-- ==== Sys2Proof/Word.lean ====
section
/-! DEFINITION. The word types of the node and the sparse table they are kept in (R2, R3). -/

namespace Sys2Proof

/-- An 8-bit byte. -/
abbrev Byte := BitVec 8
/-- A 32-bit register word (R410). -/
abbrev Word := BitVec 32
/-- A 64-bit word: a counter slot, an address, a qword of an entry. -/
abbrev DWord := BitVec 64
/-- A 64 B Pliok entry as one little-endian number (R40). -/
abbrev Entry := BitVec 512

/-- A sparse table: (key, value) pairs, keys strictly rising, no value equal to the default of its key. -/
abbrev Tab (β : Type) := List (Nat × β)

end Sys2Proof
end

