-- ==== Sys2Proof/Syntax.lean ====
section
/-! DEFINITION. The commands of the block: one constructor of Instr per row of opcode_table.json, in the table's order,
and the packets, symbols and outcomes that the commands carry. -/

namespace Sys2Proof

/-! ## What a ring or host access returned -/

/-- Why a ring access failed (R103, R429 code 0x003). -/
inductive RingFail where
  | translation | key | readError
  deriving DecidableEq, Repr

/-- The answer to a read of ring entries (R102, R103). -/
inductive FetchResult where
  | entries (es : List Entry)
  | failed (reason : RingFail) (addr : DWord)
  deriving DecidableEq, Repr

/-- The event that took the host link down (R360, R371 EVENT). -/
inductive LinkDownEvent where
  | linkDown | hotReset | perst
  deriving DecidableEq, Repr

/-- How a host read failed (R349). -/
inductive HostReadFail where
  | unsupportedRequest | completerAbort | poisoned | timeout
  deriving DecidableEq, Repr

/-- An ATS translation answer (R355). -/
inductive XlateAnswer where
  /-- A translation: the translated page address, the page size as a power of two (12 to 30), the write permission. -/
  | translation (page : DWord) (log2 : Nat) (writable : Bool)
  | noTranslation
  | error
  deriving DecidableEq, Repr

/-- A PRG Response code (R355). -/
inductive PrgCode where
  | success | invalidRequest | responseFailure
  deriving DecidableEq, Repr

/-! ## Fabric packets -/

/-- Bytes 0 to 31 of a packet header (R230). -/
structure Hdr where
  dst : BitVec 20
  src : BitVec 20
  cls : BitVec 3
  vc : BitVec 2
  vdim : BitVec 3
  vcoord : BitVec 4
  vphase : Bool
  ce : Bool
  ackpkt : Bool
  hops : BitVec 4
  psn : BitVec 32
  lup : BitVec 32
  plen : BitVec 13
  ttag : BitVec 16
  deriving DecidableEq, Repr

/-- The fields of a REQUEST (R271). -/
structure ReqF where
  opcode : BitVec 8
  iqueue : BitVec 14
  placed : Bool
  instid : BitVec 32
  addr : DWord
  key : BitVec 32
  comm : BitVec 24
  size : Bool
  fetch : Bool
  seterr : Bool
  clrerr : Bool
  arg : BitVec 32
  deriving DecidableEq, Repr

/-- The fields of a RESPONSE (R272). -/
structure RespF where
  opcode : BitVec 8
  iqueue : BitVec 14
  instid : BitVec 32
  rpsn : BitVec 32
  roff : BitVec 32
  result : DWord
  swapped : Bool
  deriving DecidableEq, Repr

/-- The fields that the collective kinds share (R273). -/
structure CollF where
  opcode : BitVec 8
  comm : BitVec 24
  npkt : BitVec 6
  exc : Bool
  cgen : BitVec 16
  cseq : BitVec 32
  chunk : BitVec 26
  pidx : BitVec 6
  srank : BitVec 20
  pdig : BitVec 32
  tcrc : DWord
  deriving DecidableEq, Repr

/-- The fields that the notices share (R274). -/
structure NoticeF where
  dim : BitVec 3
  coordA : BitVec 8
  coordB : BitVec 8
  fseq : BitVec 32
  subject : BitVec 20
  reason : BitVec 8
  comm : BitVec 24
  rank : BitVec 20
  cgen : BitVec 16
  deriving DecidableEq, Repr

/-- A delivery acknowledgement (R239). -/
structure AckF where
  ackBase : BitVec 32
  okmap : DWord
  echo : BitVec 16
  fstatus : BitVec 8
  freason : BitVec 8
  fpsn : BitVec 32
  deriving DecidableEq, Repr

/-- The collective message kinds (R270, KIND 0x10 to 0x1A). -/
inductive CollKind where
  | contrib | result | data | count | grant | resendReq | acceptAck | nak | resultAck | notReady | chunkLoss
  deriving DecidableEq, Repr

/-- The notice kinds (R270, KIND 0x20 to 0x24). -/
inductive NoticeKind where
  | deadNode | rankClaim | linkDown | linkUp | castOn
  deriving DecidableEq, Repr

/-- Bytes 32 to 63 of a packet header, by KIND (R270). -/
inductive Body where
  | request (r : ReqF)
  | response (r : RespF)
  | coll (k : CollKind) (c : CollF)
  | notice (k : NoticeKind) (n : NoticeF)
  | ack (a : AckF)
  deriving DecidableEq, Repr

/-- A fabric packet: header and payload (R230, R270). -/
structure Packet where
  hdr : Hdr
  body : Body
  payload : List Byte
  deriving DecidableEq, Repr

/-! ## Link layer -/

/-- A 64 B slot of a codeword (R253). -/
inductive Slot where
  | idle
  | head (bytes : List Byte)
  | body (bytes : List Byte)
  | ctrl (bytes : List Byte)
  deriving DecidableEq, Repr

/-- A received codeword: the PAM4 levels that each lane of the port has brought, physical lane 0 first (R247, R250). -/
structure Codeword where
  lanes : List (List (BitVec 2))
  deriving DecidableEq, Repr

/-- What a training state of a port has found at its end (R264): in DETECT the lanes with the partner's signal; in LOCK the lane order, whether reversed, and
the physical lanes whose wires are inverted (R250). -/
structure TrainFound where
  port : Nat
  signal : BitVec 16
  reversed : Bool
  inverted : BitVec 16
  deriving DecidableEq, Repr

/-- What a swatch phase has measured at its end (R267): in phase A the bits compared on each lane and the bit errors of each logical lane; in phase B,
for each lane group of a quarter of the lanes, the most symbols corrected in any codeword, none where a codeword was uncorrectable. -/
structure SwatchMeasure where
  bits : Nat
  errors : List Nat
  worst : List (Option Nat)
  deriving DecidableEq, Repr

/-- One entry of a CREDIT control symbol (R256). -/
structure CreditEntry where
  cls : BitVec 3
  vc : BitVec 2
  freed : BitVec 32
  deriving DecidableEq, Repr

/-- A KEEPALIVE control symbol (R256). -/
structure KeepaliveF where
  node : BitVec 20
  port : BitVec 6
  load : BitVec 8
  lanes : BitVec 2
  kseq : BitVec 32
  deriving DecidableEq, Repr

/-- A TS_IDENT (R256); group, link, nlinksm1 and maxrd are those of an accelerator's (R362). -/
structure IdentF where
  node : BitVec 20
  port : BitVec 6
  lanesOk : BitVec 2
  version : BitVec 8
  fast : Bool
  link : BitVec 2
  nlinksm1 : BitVec 2
  maxrd : BitVec 16
  deriving DecidableEq, Repr

/-- PHASE of a TS_SWATCH (R256). -/
inductive SwatchMsg where
  | startA | startB | result | abort
  deriving DecidableEq, Repr

/-! ## Attach messages -/

/-- STATUS of an accelerator's answer (R365); reserved values are POISON. -/
inductive AttStatus where
  | ok | addrError | poison
  deriving DecidableEq, Repr

/-- OP of a COUNTER message (R365). -/
inductive CounterOp where
  | add | setErr | clrErr | write
  deriving DecidableEq, Repr

/-! ## What a sweep, a scrub or a clock monitor found -/

/-- The duplicated accounting structures, in the order of R28's table. -/
inductive AcctStruct where
  | linkCredits | cells | inflight | queueCounts | slotGrants
  deriving DecidableEq, Repr

/-- What the accounting sweep found (R28). -/
inductive SweepFinding where
  | clean
  | corrected (st : AcctStruct) (shadow : Bool)
  | disagree (st : AcctStruct)
  deriving DecidableEq, Repr

/-- What a cell of the store holds when its ECC check fails (R280). -/
inductive CellUse where
  | transit (psn : BitVec 32) (src : BitVec 20)
  | retainedPut (node psn : Nat)
  | retainedOther (node psn : Nat) (bothFailed : Bool)
  | retainedGetResponse (node psn : Nat)
  | retainedColl (comm cseq chunk : Nat)
  | parked (src psn : Nat)
  | context (bothFailed : Bool)
  | heldRecord
  | window (line : Nat)
  deriving DecidableEq, Repr

/-- What the store sweep found in a cell (R279, R280). -/
inductive CellFinding where
  | clean | corrected
  | uncorrectable (use : CellUse)
  deriving DecidableEq, Repr

/-- What the patrol scrub found in a line (R289, R290, R291). -/
inductive LineFinding where
  | clean | corrected | uncorrectable
  deriving DecidableEq, Repr

/-- A PLL or reference that lost lock (R432). -/
inductive PllLost where
  | sys | io (die : Nat) | host | mgt
  deriving DecidableEq, Repr

/-- The sensors that the power controller evaluates (R459). -/
structure Sensors where
  pin : Nat
  vin : Nat
  tj : Nat
  lp : Nat
  nand : Nat
  coolOut : Nat
  /-- 1 ms has passed since the last rise of the throttle step. -/
  riseOk : Bool
  /-- The condition `under` has held for 100 ms. -/
  underHeld : Bool
  deriving DecidableEq, Repr

/-- The limit that an over-temperature event passed (R460). -/
inductive HotPart where
  | die | lpddr | coolant
  deriving DecidableEq, Repr

/-- A token bucket (R244, R381). -/
inductive Bucket where
  | gauge (node : Nat) | shaper (func : Nat) | queue (g : Nat)
  deriving DecidableEq, Repr

/-- What goes wrong in a keyed check (R394, R398): nothing, the two tags differ in the first run or in both, the two compare results differ, or
a copy of the key has an uncorrectable error. -/
inductive TagUpset where
  | none | firstRun | bothRuns | compare | keyLost
  deriving DecidableEq, Repr

/-- A management request as received (R449, R450): whether it was addressed to broadcast, its fields and its tag. -/
structure MgmtReq where
  broadcast : Bool
  version : BitVec 16
  flags : BitVec 8
  ctr : DWord
  body : List Byte
  tag : List Byte
  deriving DecidableEq, Repr

/-- A received frame that carries no valid command (R447, R449, R450). -/
inductive BadFrame where
  | tooLong | wrongAddress | wrongEtherType | badFcs
  /-- A frame that finds none of the 8 frame buffers free (R449). -/
  | noBuffer
  /-- A frame with the management EtherType whose request is malformed: an unknown OP, VERSION, FLAGS or BLEN. -/
  | badRequest (op : BitVec 8) (ctr : DWord)
  deriving DecidableEq, Repr

/-- What a failed NAND block held (R338): nothing more than its page in NVSTAGE, a page that die parity rebuilds, or a page that nothing recovers,
of an object of a function. -/
inductive PageFinding where
  | staged | rebuilt
  | lost (f : Nat) (obj : DWord)
  deriving DecidableEq, Repr

/-- The cause of a cold reset (R442 LAST_COLD). -/
inductive ColdCause where
  | powerOn | resetPin | register | mgtCommand | wake
  deriving DecidableEq, Repr

/-- Which boot-flash slots the ROM can read (R401, R406 FLASH_READ). -/
structure FlashRead where
  slotA : Bool
  slotB : Bool
  deriving DecidableEq, Repr

/-- The part of an 8 B counter-slot field that a write reaches (R107): the whole field, or the half in the low or the high bytes of a 4 B write. -/
inductive SlotPart where
  | whole | low | high
  deriving DecidableEq, Repr

/-- The commands of the block, one constructor per row of opcode_table.json. -/
inductive Instr where
  -- Pliok instructions: global queue g starts its next accepted instruction (R44, R50).
  | nop (g : Nat)
  | put (g : Nat)
  | puti (g : Nat)
  | get (g : Nat)
  | copy (g : Nat)
  | flush (g : Nat)
  | fadd (g : Nat)
  | cas (g : Nat)
  | wait (g : Nat)
  | signal (g : Nat)
  | mark (g : Nat)
  | fence (g : Nat)
  | repeat_ (g : Nat)
  | rdsc (g : Nat)
  | agth (g : Nat)
  | ared (g : Nat)
  | a2a (g : Nat)
  | a2av (g : Nat)
  | disp (g : Nat)
  | comb (g : Nat)
  | rug (g : Nat)
  | snap (g : Nat)
  | pers (g : Nat)
  | digest (g : Nat)
  | check (g : Nat)
  | tag (g : Nat) (upset : TagUpset)
  | uprog (g : Nat)
  | commCreate (g : Nat)
  | commReplace (g : Nat)
  | commDestroy (g : Nat)
  -- Queues, doorbells and the fetch rule (R94 to R105): function f, function-relative queue q, global queue g.
  | queueQuery (f q : Nat)
  | queueCreate (f q : Nat) (reachable : Bool)
  | queueModify (f q : Nat)
  | queueDestroy (f q : Nat)
  | dbPi (f q : Nat) (pi : BitVec 32)
  | dbCci (f q : Nat) (cci : BitVec 32)
  | entryFetch (g : Nat) (r : FetchResult)
  | ownReread (g : Nat) (r : FetchResult)
  | staleEntry (g : Nat)
  | ringRetry (g : Nat) (completion : Bool) (r : FetchResult)
  | cringStall (g : Nat)
  -- Row-counter slots (R107): function f, function-relative counter c, the part written, value written (a half's value in the low 32 bits).
  | cntWrite (f c : Nat) (part : SlotPart) (v : DWord)
  | cntAdd (f c : Nat) (part : SlotPart) (v : DWord)
  | cntSeterr (f c : Nat) (v : DWord)
  | cntClrerr (f c : Nat) (v : DWord)
  -- Function and host-domain resets (R360, R441).
  | flr (f : Nat)
  | vfEnableClear
  | d3hotToD0 (f : Nat)
  | cxlReset
  | hostLinkDown (ev : LinkDownEvent)
  | hostRetrain (rateChange : Bool) (rate : BitVec 3) (width : BitVec 5)
  | busMasterClear (f : Nat)
  | funcResetCmd (f : Nat)
  | funcResetEnd (f : Nat)
  -- Memory keys (R127).
  | keyQuery (f : Nat)
  | keyRegister (f : Nat)
  | keyRevoke (f : Nat)
  | keyRelease (f : Nat)
  | keyDrained (index : Nat)
  -- Remote memory and end-to-end reliability (R128 to R148, R238 to R242).
  | request (h : Hdr) (r : ReqF) (payload : List Byte)
  | response (h : Hdr) (r : RespF) (payload : List Byte)
  | placementAnswer (src : BitVec 20) (psn : BitVec 32)
  | contextFetchDone (src : BitVec 20) (psn : BitVec 32)
  | deliveryAck (h : Hdr) (a : AckF)
  | ackTimer (node : BitVec 20)
  | e2eRetransmit (node : BitVec 20) (psn : BitVec 32)
  | e2eRespAbandon (node : BitVec 20) (psn : BitVec 32)
  -- Routing and congestion (R231 to R245).
  | packetRoute
  | escapeTimeout (p : Nat)
  | linkDownNotice (p : Nat) (h : Hdr) (n : NoticeF)
  | linkUpNotice (p : Nat) (h : Hdr) (n : NoticeF)
  | linkReannounce
  | gaugeUpdate (node : BitVec 20)
  | gaugeIdle (node : BitVec 20)
  | telemetrySample (stall : List (BitVec 32))
  -- Ranlen links (R250 to R275).
  | codewordRx (p : Nat) (cw : Codeword)
  | lockLost (p : Nat)
  | errorRate (p : Nat)
  | laneLos (p : Nat) (lanes : BitVec 16)
  | fastRetrainEnd (p : Nat)
  | credit (p : Nat) (es : List CreditEntry)
  | creditReportTimer (p : Nat)
  | audit (p : Nat) (cls : BitVec 3) (usedA0 usedA1 usedE : BitVec 32)
  | auditSend (p : Nat)
  | keepalive (p : Nat) (k : KeepaliveF)
  | keepaliveSend (p : Nat)
  | keepaliveTimeout (p : Nat)
  | bindOffSymbol (p : Nat) (node : BitVec 20) (cause : BitVec 8)
  | abort (p : Nat)
  | tsIdent (p : Nat) (i : IdentF)
  | tsCredit (p : Nat) (cls : BitVec 3) (a0 a1 e : BitVec 16)
  | tsSwatch (p : Nat) (msg : SwatchMsg) (lanePass duration : BitVec 16)
  | tsReady (p : Nat)
  | trainStateDone (found : TrainFound)
  | trainTimeout (p : Nat)
  | trainRetry (p : Nat)
  | swatchPhase (p : Nat) (m : SwatchMeasure)
  | portLinkEnable (p : Nat) (on : Bool)
  | portRetrain (p : Nat)
  | portSwatch (p : Nat)
  | portHoldDown (p : Nat) (on : Bool)
  -- Fused collectives (R149 to R178).
  | contrib (h : Hdr) (c : CollF) (payload : List Byte)
  | result (h : Hdr) (c : CollF) (payload : List Byte)
  | data (h : Hdr) (c : CollF) (payload : List Byte)
  | count (h : Hdr) (c : CollF) (payload : List Byte)
  | grant (h : Hdr) (c : CollF) (payload : List Byte)
  | resendReq (h : Hdr) (c : CollF)
  | acceptAck (h : Hdr) (c : CollF)
  | nak (h : Hdr) (c : CollF)
  | resultAck (h : Hdr) (c : CollF)
  | notReady (h : Hdr) (c : CollF)
  | notReadyRetry (comm : BitVec 24) (node : BitVec 20)
  | handleTimeout (comm : BitVec 24) (node : BitVec 20)
  | chunkLoss (p : Nat) (h : Hdr) (c : CollF)
  | slotGrant
  | slotFinish (slot : Nat)
  -- Failure and recovery (R28, R298 to R332).
  | accountingSweep (found : SweepFinding)
  | bindOffSquelch
  | deadConfirm (x : BitVec 20)
  | deadNode (p : Nat) (h : Hdr) (n : NoticeF)
  | rankClaim (p : Nat) (h : Hdr) (n : NoticeF)
  | claimSettle (job : BitVec 24) (shard units : Nat)
  | rankAbandoned (comm : BitVec 24) (rank : BitVec 20)
  | frogRequest (p : Nat) (h : Hdr) (c : CollF)
  | frogVoteWait (job : BitVec 24)
  | frogRestoreDone (job : BitVec 24)
  | unitSaveDone (comm : BitVec 24) (unit : Nat)
  | darningRead (h : Hdr) (r : ReqF)
  | darningDone (job : BitVec 24)
  -- Checkpoint tier (R333 to R343).
  | persDurable (obj : DWord)
  | governorTick (now24hMedia now24hHost : Nat)
  | retentionScan (block : Nat) (refresh : Bool)
  | nandBlockFail (block : Nat) (page : PageFinding) (availGib : Nat)
  | jobFrog (f : Nat)
  | jobSetStep (f : Nat)
  | nvQuery (f : Nat)
  | nvRestore (f : Nat)
  | nvDelete (f : Nat)
  | failRetire (f : Nat) (code : BitVec 32)
  -- Store and pooled memory (R279, R290).
  | storeSweep (found : CellFinding)
  | poolScrub (off : Nat) (found : LineFinding)
  -- Host link (R344 to R360).
  | translationAnswer (f : Nat) (pasid : BitVec 20) (page : DWord) (ans : XlateAnswer)
  | prgResponse (f : Nat) (pasid : BitVec 20) (page : DWord) (code : PrgCode)
  | priTimeout (f : Nat) (pasid : BitVec 20) (page : DWord)
  | atsInvalidate (f : Nat) (pasid : BitVec 20) (page : DWord) (log2 : Nat) (itag : BitVec 5)
  | hostReadError (tag : Nat) (why : HostReadFail)
  | windowRead (line : Nat)
  | windowWrite (line : Nat) (bytes : List Byte)
  | birsp (line : Nat) (dirty : Option (List Byte))
  | hostWinFlush
  | hostDlogEnable (f : Nat) (on : Bool)
  | hostDlogRound (f : Nat)
  | hostDlogPause (f : Nat) (on : Bool)
  -- Ranlen Attach (R362 to R370): accelerator index a.
  | placeRsp (a : Nat) (tag : BitVec 16) (status : AttStatus)
  | ardData (a : Nat) (tag : BitVec 16) (roff : Nat) (bytes : List Byte) (status : AttStatus)
  | aatomRsp (a : Nat) (tag : BitVec 16) (old : DWord) (status : AttStatus)
  | doorbell (a : Nat) (q : BitVec 14) (slotOff : BitVec 8) (v : DWord)
  | counter (a : Nat) (cnt : BitVec 15) (op : CounterOp) (v : DWord)
  | cntRd (a : Nat) (tag : BitVec 16) (cnt : BitVec 15)
  | lrd (a : Nat) (tag : BitVec 16) (addr : DWord) (len : Nat) (key : BitVec 32)
  | lwr (a : Nat) (tag : BitVec 16) (addr : DWord) (key : BitVec 32) (payload : List Byte)
  | latom (a : Nat) (tag : BitVec 16) (addr : DWord) (key : BitVec 32) (cas size : Bool) (operand swap : DWord)
  | attachRetransmit (a : Nat) (psn : BitVec 32)
  | accelLost (a : Nat)
  -- Scheduling, sampling and fault queues (R378 to R385, R425).
  | queueSched (f : Nat)
  | sampleEnable (f : Nat) (on : Bool)
  | samplePeriod (f : Nat)
  | faultqEnable (f : Nat) (on : Bool)
  -- Monitors, key slots and security commands (R386 to R406).
  | monEnable (f m : Nat) (on : Bool)
  | monDrainDone (f m : Nat)
  | keyslotQuery (f : Nat)
  | keyslotLoad (f : Nat)
  | keyslotClear (f : Nat)
  | attest (bufferOk : Bool)
  | certs (bufferOk : Bool)
  | extend (mr : BitVec 3)
  | update (image : List Byte) (bufferOk : Bool)
  | advanceSvn
  -- Register space (R408 to R420, R442, R453).
  | globalCommit (gen : BitVec 16)
  | globalDiscard (gen : BitVec 16)
  | aliasWrite (addr : Nat) (v : Word)
  | statusSeqWrite (f addr : Nat) (v : Word)
  | cntSnap (f : Nat)
  | cntFreeze (on : Bool)
  | freezeExpire
  | rstCtl (f : Nat) (code : BitVec 32)
  | mgtKeyLoad
  | mgtKeyErase
  | registerWrite (f addr : Nat) (v : Word)
  -- Clocks, resets, cast-on and the management processor (R432, R439 to R446).
  | pllLockLoss (lost : PllLost)
  | coldReset (cause : ColdCause) (boot : FlashRead)
  | nodeResetN (boot : FlashRead)
  | poolReady
  | nvReady
  | castOnSend
  | castOn (p : Nat) (h : Hdr) (n : NoticeF)
  | watchdogExpire
  -- Management port and power (R447 to R469).
  | ident (m : MgmtReq)
  | regRead (m : MgmtReq)
  | regWrite (m : MgmtReq)
  | bufWrite (m : MgmtReq)
  | bufRead (m : MgmtReq)
  | sec (m : MgmtReq)
  | powerActive (m : MgmtReq)
  | powerStandby (m : MgmtReq)
  | powerColdReset (m : MgmtReq) (boot : FlashRead)
  | wakeMatch (frame : List Byte) (boot : FlashRead)
  | plcaFallback
  | throttleEval (x : Sensors)
  | prsntBreak
  | vinUndervoltage
  | vinOvervoltage
  | overTemperature (what : HotPart)
  | powerOverlimit
  | powerOn (boot : FlashRead)
  -- Host-link completions and the remaining events.
  | hostReadCompletion (tag : Nat) (bytes : List Byte)
  | hostLinkUp (rate : BitVec 3) (width : BitVec 5)
  | h2dSnoop (addr : DWord)
  | busMasterEnableSet (f : Nat)
  | hdmDecoderCommit
  | partnerSignalDetected (p : Nat)
  | pllLockReturn (die : Nat)
  | tokenBucketRefill (b : Bucket) (bytes : Nat)
  | regulatorsOff
  | prsntNMade
  | testReset
  | plcaCycle
  | csmaCdCollision
  | managementFrame (f : BadFrame)
  deriving DecidableEq, Repr

end Sys2Proof
end

