-- ==== Sys2Proof/WellFormed.lean ====
section
/-! DEFINITION. Well-formed commands: operands within the ranges that the spec gives the node's ports, functions, queues, counters, lines and packets. -/

namespace Sys2Proof

/-- A port, 0 to 35 (R275). -/
def okPort (p : Nat) : Bool := decide (p < 36)
/-- A function, 0 to 255 (R347). -/
def okFunc (f : Nat) : Bool := decide (f < 256)
/-- A global queue (R91), and a queue number of a function. -/
def okQueue (g : Nat) : Bool := decide (g < 16384)
/-- A row-counter number of a function (R107). -/
def okCounter (c : Nat) : Bool := decide (c < 32768)
/-- An accelerator index (R48). -/
def okAccel (a : Nat) : Bool := decide (a < 4)
/-- A line of the window (R350). -/
def okLine (l : Nat) : Bool := decide (l < 4194304)
/-- A host-read tag of 14 bits (R344). -/
def okTag (t : Nat) : Bool := decide (t < 16384)
/-- A payload of at most 4,096 B that PLEN counts (R230). -/
def okPayload (h : Hdr) (bs : List Byte) : Bool := decide (bs.length ≤ 4096) && decide (h.plen.toNat = bs.length)
/-- A slot of 64 B (R253). -/
def okSlot : Slot → Bool
  | .idle => true
  | .head bs => decide (bs.length = 64)
  | .body bs => decide (bs.length = 64)
  | .ctrl bs => decide (bs.length = 64)
/-- The levels of a codeword: of at most 16 lanes, on two lanes 5 levels for each of 272 symbols (R247, R249, R250). -/
def okCodeword (cw : Codeword) : Bool := decide (cw.lanes.length ≤ 16) && cw.lanes.all (fun l => decide (l.length ≤ 1360))
/-- What a swatch phase measures: at most 16 lanes and four groups, in each at most 15 corrected symbols (R251, R267, R268). -/
def okMeasure (m : SwatchMeasure) : Bool :=
  decide (m.errors.length ≤ 16) && decide (m.worst.length ≤ 4) && m.worst.all (fun n => n.all (fun k => decide (k ≤ 15)))
/-- A page size of an ATS answer, 4 KiB to 1 GiB (R353). -/
def okPage (log2 : Nat) : Bool := decide (12 ≤ log2) && decide (log2 ≤ 30)

/-- The command's operands lie within their ranges. -/
def Instr.wellFormed : Instr → Bool
  | .nop g | .put g | .puti g | .get g | .copy g | .flush g | .fadd g | .cas g | .wait g | .signal g | .mark g | .fence g | .repeat_ g
  | .rdsc g | .agth g | .ared g | .a2a g | .a2av g | .disp g | .comb g | .rug g | .snap g | .pers g | .digest g | .check g | .uprog g
  | .commCreate g | .commReplace g | .commDestroy g => okQueue g
  | .tag g _ => okQueue g
  | .queueQuery f q | .queueModify f q | .queueDestroy f q => okFunc f && okQueue q
  | .queueCreate f q _ => okFunc f && okQueue q
  | .dbPi f q _ | .dbCci f q _ => okFunc f && okQueue q
  | .entryFetch g _ | .ownReread g _ => okQueue g
  | .staleEntry g | .cringStall g => okQueue g
  | .ringRetry g _ _ => okQueue g
  | .cntWrite f c _ _ | .cntAdd f c _ _ | .cntSeterr f c _ | .cntClrerr f c _ => okFunc f && okCounter c
  | .flr f | .d3hotToD0 f | .busMasterClear f | .funcResetCmd f | .funcResetEnd f | .busMasterEnableSet f => okFunc f
  | .keyQuery f | .keyRegister f | .keyRevoke f | .keyRelease f => okFunc f
  | .keyDrained i => decide (i < 1048576)
  | .request h _ bs | .response h _ bs | .contrib h _ bs | .result h _ bs | .data h _ bs | .count h _ bs | .grant h _ bs => okPayload h bs
  | .escapeTimeout p | .lockLost p | .errorRate p | .fastRetrainEnd p | .creditReportTimer p | .auditSend p | .keepaliveSend p
  | .keepaliveTimeout p | .abort p | .tsReady p | .trainTimeout p | .trainRetry p | .portRetrain p | .portSwatch p
  | .partnerSignalDetected p => okPort p
  | .linkDownNotice p _ _ | .linkUpNotice p _ _ | .deadNode p _ _ | .rankClaim p _ _ | .castOn p _ _ => okPort p
  | .chunkLoss p _ _ | .frogRequest p _ _ => okPort p
  | .codewordRx p cw => okPort p && okCodeword cw
  | .laneLos p _ => okPort p
  | .trainStateDone found => okPort found.port
  | .swatchPhase p m => okPort p && okMeasure m
  | .credit p es => okPort p && decide (es.length ≤ 10)
  | .audit p _ _ _ _ => okPort p
  | .keepalive p _ => okPort p
  | .bindOffSymbol p _ _ => okPort p
  | .tsIdent p _ => okPort p
  | .tsCredit p _ _ _ _ => okPort p
  | .tsSwatch p _ _ _ => okPort p
  | .portLinkEnable p _ | .portHoldDown p _ => okPort p
  | .slotFinish n => decide (n < 4096)
  | .telemetrySample st => decide (st.length ≤ 32)
  | .translationAnswer f _ _ (.translation _ n _) => okFunc f && okPage n
  | .translationAnswer f _ _ _ => okFunc f
  | .prgResponse f _ _ _ => okFunc f
  | .priTimeout f _ _ => okFunc f
  | .atsInvalidate f _ _ n _ => okFunc f && decide (12 ≤ n) && decide (n ≤ 64)
  | .hostReadError t _ => okTag t
  | .hostReadCompletion t bs => okTag t && decide (bs.length ≤ 4096)
  | .windowRead l => okLine l
  | .windowWrite l bs => okLine l && decide (bs.length = 64)
  | .birsp l d => okLine l && (match d with | some bs => decide (bs.length = 64) | none => true)
  | .hostDlogEnable f _ | .hostDlogPause f _ | .sampleEnable f _ | .faultqEnable f _ => okFunc f
  | .hostDlogRound f | .queueSched f | .samplePeriod f | .cntSnap f | .jobFrog f | .jobSetStep f | .nvQuery f | .nvRestore f | .nvDelete f
  | .keyslotQuery f | .keyslotLoad f | .keyslotClear f => okFunc f
  | .failRetire f _ | .rstCtl f _ => okFunc f
  | .monEnable f m _ => okFunc f && decide (m < 8)
  | .monDrainDone f m => okFunc f && decide (m < 8)
  | .statusSeqWrite f _ _ | .registerWrite f _ _ => okFunc f
  | .placeRsp a _ _ | .aatomRsp a _ _ _ | .cntRd a _ _ => okAccel a
  | .ardData a _ _ bs _ => okAccel a && decide (bs.length ≤ 4096)
  | .doorbell a _ _ _ | .counter a _ _ _ => okAccel a
  | .lrd a _ _ n _ => okAccel a && decide (1 ≤ n) && decide (n ≤ 4096)
  | .lwr a _ _ _ bs => okAccel a && decide (1 ≤ bs.length) && decide (bs.length ≤ 4096)
  | .latom a _ _ _ _ _ _ _ => okAccel a
  | .attachRetransmit a _ | .accelLost a => okAccel a
  | .poolScrub off _ => decide (off < 0xC000000000)
  | .placementAnswer _ _ | .contextFetchDone _ _ | .deliveryAck _ _ | .ackTimer _ | .e2eRetransmit _ _ | .e2eRespAbandon _ _ => true
  | .packetRoute | .linkReannounce | .gaugeUpdate _ | .gaugeIdle _ => true
  | .resendReq _ _ | .acceptAck _ _ | .nak _ _ | .resultAck _ _ | .notReady _ _ | .notReadyRetry _ _ | .handleTimeout _ _ | .slotGrant => true
  | .accountingSweep _ | .bindOffSquelch | .deadConfirm _ | .claimSettle _ _ _ | .rankAbandoned _ _ | .frogVoteWait _ | .frogRestoreDone _
  | .unitSaveDone _ _ | .darningRead _ _ | .darningDone _ | .persDurable _ | .governorTick _ _ | .retentionScan _ _ | .nandBlockFail _ _ _ => true
  | .vfEnableClear | .cxlReset | .hostLinkDown _ | .hostRetrain _ _ _ | .hostLinkUp _ _ | .h2dSnoop _ | .hdmDecoderCommit | .hostWinFlush => true
  | .storeSweep _ | .attest _ | .certs _ | .extend _ | .update _ _ | .advanceSvn | .globalCommit _ | .globalDiscard _ | .aliasWrite _ _
  | .cntFreeze _ | .freezeExpire | .mgtKeyLoad | .mgtKeyErase | .pllLockLoss _ | .coldReset _ _ | .nodeResetN _ | .poolReady | .nvReady
  | .castOnSend | .watchdogExpire => true
  | .ident _ | .regRead _ | .regWrite _ | .bufWrite _ | .bufRead _ | .sec _ | .powerActive _ | .powerStandby _ | .powerColdReset _ _
  | .wakeMatch _ _ | .plcaFallback | .throttleEval _ | .prsntBreak | .vinUndervoltage | .vinOvervoltage | .overTemperature _ | .powerOverlimit
  | .powerOn _ | .pllLockReturn _ | .tokenBucketRefill _ _ | .regulatorsOff | .prsntNMade | .testReset | .plcaCycle | .csmaCdCollision
  | .managementFrame _ => true

end Sys2Proof
end

