-- ==== Sys2Proof/Decode.lean ====
section
/-! DEFINITION. The table gives no row any bits: a command is not a word, so no word spells one. -/

namespace Sys2Proof

/-- The command that a word of nbits bits spells: none, since opcode_table.json gives no row bits (the block takes commands, not words). -/
def decodeTableWord (_nbits _w : Nat) : Option Instr := none

end Sys2Proof
end

