-- ==== Sys2Proof/Config.lean ====
section
/-! DEFINITION. What the spec leaves open: free values, and the external algorithms that it names and does not restate.
Nothing here has a body, so no proof can depend on a value. -/

namespace Sys2Proof.Config

/-- The n-th free byte: a GET buffer after a failure (R53), store-window contents at enable (R294). -/
opaque freeByte : Nat → Byte

/-- Whether the n-th transit packet that fails its CRC-32C at its last cell had begun its egress by then, as R20 allows (log entry 55). -/
opaque cutThrough : Nat → Bool

/-- An FP32 value for the residual of an element whose v and d are given and whose difference passes the range of IFMT (R193, log entry 64). -/
opaque residualOver : (v d : BitVec 64) → BitVec 64

/-- ML-DSA-87 public key and signature of FIPS 204: whether the signature of a message verifies under a public key, with a context (R400). -/
opaque mldsaVerify : (publicKey message context signature : List Byte) → Bool

/-- ML-DSA-87 key generation from a 32-byte seed (R404): the public key. -/
opaque mldsaPublic : (seed : List Byte) → List Byte

/-- ML-DSA-87 signature of a message with the key of a seed and a context (R404, R405). -/
opaque mldsaSign : (seed message context : List Byte) → List Byte

/-- The DER form of the X.509 certificate for a subject key that carries the given measurements, signed with the issuer's seed (R404). -/
opaque x509 : (issuerSeed subjectKey measurements : List Byte) → List Byte

/-- Grageron's certificate for the identity key, kept in boot flash (R404). -/
opaque identityCertificate : List Byte

/-- The SHA3-512 digest of the ROM's own code, extended into MR0 (R401). -/
opaque romDigest : List Byte

/-- The digest of the fuse state, the straps and the debug state that the ROM extends into MR4; its input's layout is not given (R401). -/
opaque stateDigest : (svn revoke debugLock straps debug : Nat) → List Byte

/-- The fuses ROOT_HASH_0 to ROOT_HASH_3 and UDS, as blown at manufacture (R399). -/
opaque rootHash : Nat → List Byte
opaque uds : List Byte

/-- The image that manufacture wrote to a boot-flash slot for a component: slot B or not, component 1 to 3 (R399, R400). -/
opaque factoryImage : Bool → Nat → List Byte

/-- Cells that a bank of the store has written between the n-th time its queue was looked at and the next: the spec gives no times (R277, R278). -/
opaque cellsWritten : (n bank : Nat) → Nat

/-- Packets and events inside the crossings of the host domain when they are flushed, beyond what the state shows: the spec gives no number (R26). -/
opaque crossingEvents : Nat → Nat

/-- The module's serial number, MAC address and silicon stepping, set at manufacture (R410, R447). -/
opaque serial : BitVec 64
opaque macAddress : BitVec 48
opaque stepping : BitVec 8

end Sys2Proof.Config
end

