-- ==== Sys2Proof/Machine/Tab.lean ====
section
/-! DEFINITION. Sparse tables in one canonical form: the memory, the register file and every numbered resource. -/

namespace Sys2Proof

variable {β : Type}

/-- The value of key k: its first entry, or the default of k. -/
def Tab.get (d : Nat → β) : Tab β → Nat → β
  | [], k => d k
  | (a, v) :: t, k => if a = k then v else Tab.get d t k

/-- Puts (k, v) at its place by key, in place of an entry of k. -/
def Tab.insert : Tab β → Nat → β → Tab β
  | [], k, v => [(k, v)]
  | (a, w) :: t, k, v =>
    if k < a then (k, v) :: (a, w) :: t
    else if k = a then (k, v) :: t
    else (a, w) :: Tab.insert t k v

/-- Sets key k to v; setting the default removes the entry, so that equal tables are equal data. -/
def Tab.put [DecidableEq β] (d : Nat → β) (t : Tab β) (k : Nat) (v : β) : Tab β :=
  if v = d k then t.filter (fun e => e.1 != k) else Tab.insert t k v

/-- The canonical form: keys strictly rising, no entry equal to its default. -/
def Tab.wf [DecidableEq β] (d : Nat → β) (t : Tab β) : Bool :=
  decide ((t.map Prod.fst).Pairwise (· < ·)) && t.all (fun e => e.2 != d e.1)

/-- Writes a list of values at consecutive keys from k on. -/
def Tab.putAll [DecidableEq β] (d : Nat → β) : Tab β → Nat → List β → Tab β
  | t, _, [] => t
  | t, k, v :: vs => Tab.putAll d (Tab.put d t k v) (k + 1) vs

/-- Reads n values at consecutive keys from k on. -/
def Tab.getAll (d : Nat → β) (t : Tab β) (k : Nat) : Nat → List β
  | 0 => []
  | n + 1 => Tab.get d t k :: Tab.getAll d t (k + 1) n

end Sys2Proof
end

