-- ==== Sys2Proof/Machine/RegTable.lean ====
section
/-! DEFINITION. The register tables of the spec: every field of every BAR0 register, with its address, bits, type and reset value
(R5, R94, R97, R125, R214, R225, R233, R242, R244, R245, R275, R296, R340, R343, R357, R371, R373, R375, R382, R383, R386, R395, R406, R410,
R418, R425, R441, R442, R453, R461). -/

namespace Sys2Proof.Machine

/-- The access types of register fields (R5). -/
inductive Access where
  | ro | rw | rws | sc | wo
  deriving DecidableEq, Repr

/-- One field of one register, or of n registers that lie stride bytes apart. -/
structure RegRow where
  name : String
  base : Nat
  stride : Nat
  n : Nat
  lo : Nat
  width : Nat
  acc : Access
  reset : Nat
  deriving DecidableEq, Repr

/-- Registers of a function page (offsets within the page), part 1. -/
def regsPageA : List RegRow := [
  ⟨"QUEUE_DESC", 0x1000, 4, 16, 0, 32, .rw, 0⟩,
  ⟨"QUEUE_CMD.QUEUE", 0x1040, 0, 1, 0, 14, .rw, 0⟩,
  ⟨"QUEUE_CMD.OP", 0x1040, 0, 1, 16, 3, .rw, 0⟩,
  ⟨"QUEUE_CMD.GO", 0x1040, 0, 1, 31, 1, .sc, 0⟩,
  ⟨"QUEUE_CMD_STATUS.SEQ", 0x1044, 0, 1, 0, 8, .rw, 0⟩,
  ⟨"QUEUE_CMD_STATUS.RESULT", 0x1044, 0, 1, 8, 4, .ro, 0⟩,
  ⟨"KEY_DESC", 0x1100, 4, 8, 0, 32, .rw, 0⟩,
  ⟨"KEY_CMD_KEY", 0x1120, 0, 1, 0, 32, .rw, 0⟩,
  ⟨"KEY_CMD.OP", 0x1124, 0, 1, 0, 3, .rw, 0⟩,
  ⟨"KEY_CMD.GO", 0x1124, 0, 1, 31, 1, .sc, 0⟩,
  ⟨"KEY_CMD_STATUS.SEQ", 0x1128, 0, 1, 0, 8, .rw, 0⟩,
  ⟨"KEY_CMD_STATUS.RESULT", 0x1128, 0, 1, 8, 4, .ro, 0⟩,
  ⟨"KEY_CMD_STATUS.STATE", 0x1128, 0, 1, 12, 2, .ro, 0⟩,
  ⟨"JOB_CMD.COMM", 0x1140, 0, 1, 0, 24, .rw, 0⟩,
  ⟨"JOB_CMD.OP", 0x1140, 0, 1, 24, 2, .rw, 0⟩,
  ⟨"JOB_CMD.GO", 0x1140, 0, 1, 31, 1, .sc, 0⟩,
  ⟨"JOB_CMD_STEP", 0x1148, 0, 1, 0, 32, .rw, 0⟩,
  ⟨"JOB_CMD_STEP", 0x114c, 0, 1, 0, 32, .rw, 0⟩,
  ⟨"JOB_CMD_STATUS.SEQ", 0x1150, 0, 1, 0, 8, .rw, 0⟩,
  ⟨"JOB_CMD_STATUS.RESULT", 0x1150, 0, 1, 8, 4, .ro, 0⟩,
  ⟨"NV_CMD_OBJ", 0x1200, 0, 1, 0, 32, .rw, 0⟩,
  ⟨"NV_CMD_OBJ", 0x1204, 0, 1, 0, 32, .rw, 0⟩,
  ⟨"NV_CMD_DST", 0x1208, 0, 1, 0, 32, .rw, 0⟩,
  ⟨"NV_CMD_DST", 0x120c, 0, 1, 0, 32, .rw, 0⟩,
  ⟨"NV_CMD_KEY", 0x1210, 0, 1, 0, 32, .rw, 0⟩,
  ⟨"NV_CMD.OP", 0x1214, 0, 1, 0, 2, .rw, 0⟩,
  ⟨"NV_CMD.PREV", 0x1214, 0, 1, 2, 1, .rw, 0⟩,
  ⟨"NV_CMD.GO", 0x1214, 0, 1, 31, 1, .sc, 0⟩,
  ⟨"NV_CMD_STATUS.SEQ", 0x1218, 0, 1, 0, 8, .rw, 0⟩,
  ⟨"NV_CMD_STATUS.RESULT", 0x1218, 0, 1, 8, 4, .ro, 0⟩,
  ⟨"NV_CMD_INFO_LEN", 0x1220, 0, 1, 0, 32, .ro, 0⟩,
  ⟨"NV_CMD_INFO_LEN", 0x1224, 0, 1, 0, 32, .ro, 0⟩,
  ⟨"NV_CMD_INFO_STEP", 0x1228, 0, 1, 0, 32, .ro, 0⟩,
  ⟨"NV_CMD_INFO_STEP", 0x122c, 0, 1, 0, 32, .ro, 0⟩,
  ⟨"QUEUE_SCHED.QUEUE", 0x1060, 0, 1, 0, 14, .rw, 0⟩,
  ⟨"QUEUE_SCHED.WEIGHT", 0x1060, 0, 1, 16, 4, .rw, 0⟩,
  ⟨"QUEUE_SCHED.RESET_FULL", 0x1060, 0, 1, 20, 1, .rw, 0⟩,
  ⟨"QUEUE_SCHED.SET_RATE", 0x1060, 0, 1, 21, 1, .rw, 0⟩,
  ⟨"QUEUE_SCHED.GO", 0x1060, 0, 1, 31, 1, .sc, 0⟩,
  ⟨"QUEUE_SCHED_RATE.RATE", 0x1064, 0, 1, 0, 13, .rw, 0⟩]

/-- Registers of a function page (offsets within the page), part 2. -/
def regsPageB : List RegRow := [
  ⟨"QUEUE_SCHED_STATUS.SEQ", 0x1068, 0, 1, 0, 8, .rw, 0⟩,
  ⟨"QUEUE_SCHED_STATUS.RESULT", 0x1068, 0, 1, 8, 4, .ro, 0⟩,
  ⟨"SAMPLE_BASE", 0x1080, 0, 1, 0, 32, .rw, 0⟩,
  ⟨"SAMPLE_BASE", 0x1084, 0, 1, 0, 32, .rw, 0⟩,
  ⟨"SAMPLE_KEY", 0x1088, 0, 1, 0, 32, .rw, 0⟩,
  ⟨"SAMPLE_CTL.ENABLE", 0x108c, 0, 1, 0, 1, .rw, 0⟩,
  ⟨"SAMPLE_CTL.SP", 0x108c, 0, 1, 1, 2, .rw, 0⟩,
  ⟨"SAMPLE_CTL.SIZE", 0x108c, 0, 1, 3, 4, .rw, 0⟩,
  ⟨"SAMPLE_CTL.PERIOD", 0x108c, 0, 1, 8, 16, .rw, 1000⟩,
  ⟨"SAMPLE_PASID", 0x1090, 0, 1, 0, 20, .rw, 0⟩,
  ⟨"SAMPLE_PI", 0x1094, 0, 1, 0, 32, .ro, 0⟩,
  ⟨"SAMPLE_CI", 0x1098, 0, 1, 0, 32, .rw, 0⟩,
  ⟨"SAMPLE_STATUS.SEQ", 0x109c, 0, 1, 0, 8, .rw, 0⟩,
  ⟨"SAMPLE_STATUS.OVERFLOW", 0x109c, 0, 1, 8, 1, .ro, 0⟩,
  ⟨"SAMPLE_STATUS.RING_FAULT", 0x109c, 0, 1, 9, 1, .ro, 0⟩,
  ⟨"MON_CTL.ENABLE", 0x1400, 64, 8, 0, 1, .rw, 0⟩,
  ⟨"MON_CTL.ALG", 0x1400, 64, 8, 1, 1, .rw, 0⟩,
  ⟨"MON_CTL.MODE", 0x1400, 64, 8, 2, 1, .rw, 0⟩,
  ⟨"MON_CTL.STREAM", 0x1400, 64, 8, 3, 2, .rw, 0⟩,
  ⟨"MON_CTL.EXPECT_SRC", 0x1400, 64, 8, 5, 2, .rw, 0⟩,
  ⟨"MON_CTL.IRQ_EN", 0x1400, 64, 8, 7, 1, .rw, 0⟩,
  ⟨"MON_CTL.ALIVE_W", 0x1400, 64, 8, 8, 3, .rw, 0⟩,
  ⟨"MON_CTL.ALIVE_STEP", 0x1400, 64, 8, 11, 1, .rw, 0⟩,
  ⟨"MON_SEL.QUEUE", 0x1404, 64, 8, 0, 14, .rw, 0⟩,
  ⟨"MON_SEL.OPMASK", 0x1404, 64, 8, 16, 4, .rw, 0⟩,
  ⟨"MON_ALIVE_OFF", 0x1408, 64, 8, 0, 32, .rw, 0⟩,
  ⟨"MON_VECTOR", 0x140c, 64, 8, 0, 11, .rw, 0⟩,
  ⟨"MON_EXPECT", 0x1410, 64, 8, 0, 32, .rw, 0⟩,
  ⟨"MON_EXPECT", 0x1414, 64, 8, 0, 32, .rw, 0⟩,
  ⟨"MON_VALUE", 0x1418, 64, 8, 0, 32, .rw, 0⟩,
  ⟨"MON_VALUE", 0x141c, 64, 8, 0, 32, .rw, 0⟩,
  ⟨"MON_ALIVE_LAST", 0x1420, 64, 8, 0, 32, .rw, 0⟩,
  ⟨"MON_ALIVE_LAST", 0x1424, 64, 8, 0, 32, .rw, 0⟩,
  ⟨"MON_STATUS.SEQ", 0x1428, 64, 8, 0, 8, .rw, 0⟩,
  ⟨"MON_STATUS.STATE", 0x1428, 64, 8, 8, 2, .ro, 0⟩,
  ⟨"MON_STATUS.MISMATCH", 0x1428, 64, 8, 10, 1, .ro, 0⟩,
  ⟨"MON_STATUS.ALIVE_FAIL", 0x1428, 64, 8, 11, 1, .ro, 0⟩,
  ⟨"MON_STATUS.ALIVE_VALID", 0x1428, 64, 8, 12, 1, .ro, 0⟩,
  ⟨"MON_STATUS.SKIPPED", 0x1428, 64, 8, 13, 1, .ro, 0⟩,
  ⟨"MON_COUNT", 0x142c, 64, 8, 0, 32, .ro, 0⟩]

/-- Registers of a function page (offsets within the page), part 3. -/
def regsPageC : List RegRow := [
  ⟨"MON_LAST_ESEQ", 0x1430, 64, 8, 0, 32, .ro, 0⟩,
  ⟨"KEYSLOT_DATA", 0x1300, 4, 16, 0, 32, .wo, 0⟩,
  ⟨"KEYSLOT_CMD.SLOT", 0x1340, 0, 1, 0, 8, .rw, 0⟩,
  ⟨"KEYSLOT_CMD.LEN", 0x1340, 0, 1, 8, 7, .rw, 0⟩,
  ⟨"KEYSLOT_CMD.OP", 0x1340, 0, 1, 16, 2, .rw, 0⟩,
  ⟨"KEYSLOT_CMD.GO", 0x1340, 0, 1, 31, 1, .sc, 0⟩,
  ⟨"KEYSLOT_STATUS.SEQ", 0x1344, 0, 1, 0, 8, .rw, 0⟩,
  ⟨"KEYSLOT_STATUS.RESULT", 0x1344, 0, 1, 8, 4, .ro, 0⟩,
  ⟨"KEYSLOT_KCV", 0x1348, 0, 1, 0, 32, .ro, 0⟩,
  ⟨"KEYSLOT_KCV", 0x134c, 0, 1, 0, 32, .ro, 0⟩,
  ⟨"CNT_MODE.SNAPSHOT", 0x1700, 0, 1, 0, 1, .rw, 0⟩,
  ⟨"CNT_MODE.SNAP", 0x1700, 0, 1, 1, 1, .sc, 0⟩,
  ⟨"CNT_MODE.SNAP_GEN", 0x1700, 0, 1, 8, 8, .ro, 0⟩,
  ⟨"HIST_SEL.QUEUE", 0x1704, 0, 1, 0, 14, .rw, 0⟩,
  ⟨"HIST_BUCKET_i", 0x1800, 8, 32, 0, 32, .ro, 0⟩,
  ⟨"HIST_BUCKET_i", 0x1804, 8, 32, 0, 32, .ro, 0⟩,
  ⟨"FAULTQ_BASE", 0x1900, 0, 1, 0, 32, .rw, 0⟩,
  ⟨"FAULTQ_BASE", 0x1904, 0, 1, 0, 32, .rw, 0⟩,
  ⟨"FAULTQ_KEY", 0x1908, 0, 1, 0, 32, .rw, 0⟩,
  ⟨"FAULTQ_CTL.ENABLE", 0x190c, 0, 1, 0, 1, .rw, 0⟩,
  ⟨"FAULTQ_CTL.SP", 0x190c, 0, 1, 1, 2, .rw, 0⟩,
  ⟨"FAULTQ_CTL.SIZE", 0x190c, 0, 1, 3, 4, .rw, 0⟩,
  ⟨"FAULTQ_CTL.VECTOR", 0x190c, 0, 1, 7, 11, .rw, 0⟩,
  ⟨"FAULTQ_CTL.IRQ_EN", 0x190c, 0, 1, 18, 1, .rw, 0⟩,
  ⟨"FAULTQ_PASID", 0x1910, 0, 1, 0, 20, .rw, 0⟩,
  ⟨"FAULTQ_PI", 0x1914, 0, 1, 0, 32, .ro, 0⟩,
  ⟨"FAULTQ_CI", 0x1918, 0, 1, 0, 32, .rw, 0⟩,
  ⟨"FAULTQ_STATUS.SEQ", 0x191c, 0, 1, 0, 8, .rw, 0⟩,
  ⟨"FAULTQ_STATUS.OVERFLOW", 0x191c, 0, 1, 8, 1, .ro, 0⟩,
  ⟨"FAULTQ_STATUS.RING_FAULT", 0x191c, 0, 1, 9, 1, .ro, 0⟩,
  ⟨"FAULTQ_STATUS.CLASSES", 0x191c, 0, 1, 10, 8, .ro, 0⟩,
  ⟨"FUNC_RESET_STATUS.SEQ", 0x1a00, 0, 1, 0, 8, .rw, 0⟩,
  ⟨"FUNC_RESET_STATUS.RESETTING", 0x1a00, 0, 1, 8, 1, .ro, 0⟩,
  ⟨"FUNC_RESET_STATUS.CAUSE", 0x1a00, 0, 1, 9, 3, .ro, 0⟩,
  ⟨"QUEUE_Q_FETCH", 0x1048, 0, 1, 0, 32, .ro, 0⟩,
  ⟨"QUEUE_Q_DBPI", 0x104c, 0, 1, 0, 32, .ro, 0⟩,
  ⟨"QUEUE_Q_CPI", 0x1050, 0, 1, 0, 32, .ro, 0⟩,
  ⟨"QUEUE_Q_CCI", 0x1054, 0, 1, 0, 32, .ro, 0⟩,
  ⟨"QUEUE_Q_STATE.STARTED", 0x1058, 0, 1, 0, 11, .ro, 0⟩,
  ⟨"QUEUE_Q_STATE.CREATED", 0x1058, 0, 1, 11, 1, .ro, 0⟩]

/-- Registers of a function page (offsets within the page), part 4. -/
def regsPageD : List RegRow := [
  ⟨"QUEUE_Q_STATE.STALE", 0x1058, 0, 1, 12, 1, .ro, 0⟩,
  ⟨"QUEUE_Q_STATE.RING_FAULT", 0x1058, 0, 1, 13, 1, .ro, 0⟩,
  ⟨"QUEUE_Q_STATE.CRING_HELD", 0x1058, 0, 1, 14, 1, .ro, 0⟩,
  ⟨"QUEUE_Q_STATE.TXN_WAIT", 0x1058, 0, 1, 15, 1, .ro, 0⟩,
  ⟨"QUEUE_Q_STATE.CNT_WAIT", 0x1058, 0, 1, 16, 1, .ro, 0⟩,
  ⟨"QUEUE_Q_INFLIGHT", 0x105c, 0, 1, 0, 19, .ro, 0⟩]

/-- Registers of a function page (offsets within the page). -/
def regsPage : List RegRow := regsPageA ++ regsPageB ++ regsPageC ++ regsPageD

/-- Registers of the global range 0x0000_0000, part 1. -/
def regsW00A : List RegRow := [
  ⟨"SEC_BOOT_STATUS.RECOVERY", 0x8000, 0, 1, 0, 1, .ro, 0⟩,
  ⟨"SEC_BOOT_STATUS.SLOT_B", 0x8000, 0, 1, 1, 1, .ro, 0⟩,
  ⟨"SEC_BOOT_STATUS.DEBUG", 0x8000, 0, 1, 2, 1, .ro, 0⟩,
  ⟨"SEC_BOOT_STATUS.FAIL_REASON", 0x8000, 0, 1, 4, 4, .ro, 0⟩,
  ⟨"SEC_BOOT_STATUS.SVN", 0x8000, 0, 1, 8, 7, .ro, 0⟩,
  ⟨"SEC_CMD_ADDR", 0x8008, 0, 1, 0, 32, .rw, 0⟩,
  ⟨"SEC_CMD_ADDR", 0x800c, 0, 1, 0, 32, .rw, 0⟩,
  ⟨"SEC_CMD_LEN", 0x8010, 0, 1, 0, 32, .rw, 0⟩,
  ⟨"SEC_CMD.OP", 0x8014, 0, 1, 0, 4, .rw, 0⟩,
  ⟨"SEC_CMD.MR", 0x8014, 0, 1, 4, 3, .rw, 0⟩,
  ⟨"SEC_CMD.GO", 0x8014, 0, 1, 31, 1, .sc, 0⟩,
  ⟨"SEC_CMD_STATUS.SEQ", 0x8018, 0, 1, 0, 8, .rw, 0⟩,
  ⟨"SEC_CMD_STATUS.RESULT", 0x8018, 0, 1, 8, 4, .ro, 0⟩,
  ⟨"SEC_ARG", 0x8040, 4, 16, 0, 32, .rw, 0⟩,
  ⟨"GLOBAL_ID.PART", 0x0, 0, 1, 0, 32, .ro, 0x514e1000⟩,
  ⟨"GLOBAL_ID.STEPPING", 0x4, 0, 1, 0, 8, .ro, 0⟩,
  ⟨"GLOBAL_SERIAL", 0x8, 0, 1, 0, 32, .ro, 0⟩,
  ⟨"GLOBAL_SERIAL", 0xc, 0, 1, 0, 32, .ro, 0⟩,
  ⟨"GLOBAL_FW_BOOT", 0x10, 0, 1, 0, 32, .ro, 0⟩,
  ⟨"GLOBAL_FW_MGMT", 0x14, 0, 1, 0, 32, .ro, 0⟩,
  ⟨"GLOBAL_FW_UCODE", 0x18, 0, 1, 0, 32, .ro, 0⟩,
  ⟨"GLOBAL_TIME", 0x20, 0, 1, 0, 32, .ro, 0⟩,
  ⟨"GLOBAL_TIME", 0x24, 0, 1, 0, 32, .ro, 0⟩,
  ⟨"GLOBAL_GEN.CURRENT", 0x100, 0, 1, 0, 16, .ro, 0⟩,
  ⟨"GLOBAL_GEN.BUSY", 0x100, 0, 1, 16, 1, .ro, 0⟩,
  ⟨"GLOBAL_COMMIT.GEN", 0x104, 0, 1, 0, 16, .wo, 0⟩,
  ⟨"GLOBAL_COMMIT.DISCARD", 0x104, 0, 1, 16, 1, .wo, 0⟩,
  ⟨"GLOBAL_COMMIT_STATUS.SEQ", 0x108, 0, 1, 0, 8, .rw, 0⟩,
  ⟨"GLOBAL_COMMIT_STATUS.RESULT", 0x108, 0, 1, 8, 4, .ro, 0⟩,
  ⟨"GLOBAL_COMMIT_STATUS.BLOCK", 0x108, 0, 1, 12, 4, .ro, 0⟩,
  ⟨"GLOBAL_ALIAS_WIN.WIN", 0x110, 0, 1, 0, 4, .rw, 0⟩,
  ⟨"CNT_FREEZE.FREEZE", 0x120, 0, 1, 0, 1, .rw, 0⟩,
  ⟨"CNT_FREEZE.EXPIRED", 0x120, 0, 1, 1, 1, .ro, 0⟩,
  ⟨"RST_STATUS.SEQ", 0x200, 0, 1, 0, 8, .rw, 0⟩,
  ⟨"RST_STATUS.STAGE", 0x200, 0, 1, 8, 4, .ro, 0⟩,
  ⟨"RST_STATUS.LAST_COLD", 0x200, 0, 1, 12, 4, .ro, 0⟩,
  ⟨"RST_STATUS.POOL_READY", 0x200, 0, 1, 16, 1, .ro, 0⟩,
  ⟨"RST_STATUS.NV_READY", 0x200, 0, 1, 17, 1, .ro, 0⟩,
  ⟨"RST_CTL.CODE", 0x204, 0, 1, 0, 32, .wo, 0⟩,
  ⟨"CLK_STATUS.LOCK", 0x208, 0, 1, 0, 6, .ro, 0⟩]

/-- Registers of the global range 0x0000_0000, part 2. -/
def regsW00B : List RegRow := [
  ⟨"CLK_STATUS.IO_LOCK", 0x208, 0, 1, 6, 4, .ro, 0⟩,
  ⟨"CLK_STATUS.THROTTLE", 0x208, 0, 1, 10, 4, .ro, 0⟩,
  ⟨"MGT_MAC", 0x400, 0, 1, 0, 32, .ro, 0⟩,
  ⟨"MGT_MAC", 0x404, 0, 1, 0, 16, .ro, 0⟩,
  ⟨"MGT_PLCA_CTL.EN", 0x408, 0, 1, 0, 1, .rw, 1⟩,
  ⟨"MGT_PLCA_CTL.NODE_ID", 0x408, 0, 1, 1, 8, .rw, 255⟩,
  ⟨"MGT_PLCA_CTL.NCOUNT", 0x408, 0, 1, 9, 8, .rw, 8⟩,
  ⟨"MGT_PLCA_CTL.TO_TIMER", 0x408, 0, 1, 17, 8, .rw, 32⟩,
  ⟨"MGT_PLCA_CTL.MAX_BC", 0x408, 0, 1, 25, 4, .rw, 0⟩,
  ⟨"MGT_PLCA_BURST.TMR", 0x40c, 0, 1, 0, 8, .rw, 128⟩,
  ⟨"MGT_STATUS.SEQ", 0x410, 0, 1, 0, 8, .rw, 0⟩,
  ⟨"MGT_STATUS.PLCA_ACTIVE", 0x410, 0, 1, 8, 1, .ro, 0⟩,
  ⟨"MGT_STATUS.FALLBACK", 0x410, 0, 1, 9, 1, .ro, 0⟩,
  ⟨"MGT_STATUS.RX_OVERFLOW", 0x410, 0, 1, 10, 1, .ro, 0⟩,
  ⟨"MGT_STATUS.AUTH_FAIL", 0x410, 0, 1, 11, 1, .ro, 0⟩,
  ⟨"MGT_STATUS.KEY_VALID", 0x410, 0, 1, 12, 1, .ro, 0⟩,
  ⟨"MGT_WAKE_i.MASK", 0x420, 32, 8, 0, 32, .rw, 0⟩,
  ⟨"MGT_WAKE_i.MASK", 0x424, 32, 8, 0, 32, .rw, 0⟩,
  ⟨"MGT_WAKE_i.MASK", 0x428, 32, 8, 0, 32, .rw, 0⟩,
  ⟨"MGT_WAKE_i.MASK", 0x42c, 32, 8, 0, 32, .rw, 0⟩,
  ⟨"MGT_WAKE_i.CRC", 0x430, 32, 8, 0, 32, .rw, 0⟩,
  ⟨"MGT_WAKE_i.EN", 0x434, 32, 8, 0, 1, .rw, 0⟩,
  ⟨"MGT_KEY", 0x500, 4, 8, 0, 32, .wo, 0⟩,
  ⟨"MGT_KEY_CTL.LOAD", 0x520, 0, 1, 0, 1, .sc, 0⟩,
  ⟨"MGT_KEY_CTL.ERASE", 0x520, 0, 1, 1, 1, .sc, 0⟩,
  ⟨"PWR_CTL.LIMIT", 0x600, 0, 1, 0, 10, .rw, 600⟩,
  ⟨"PWR_CTL.HYST", 0x600, 0, 1, 10, 6, .rw, 40⟩,
  ⟨"PWR_STATUS.SEQ", 0x604, 0, 1, 0, 8, .rw, 0⟩,
  ⟨"PWR_STATUS.CAUSE", 0x604, 0, 1, 8, 2, .ro, 0⟩,
  ⟨"PWR_MEAS.VIN", 0x608, 0, 1, 0, 16, .ro, 0⟩,
  ⟨"PWR_MEAS.PIN", 0x608, 0, 1, 16, 16, .ro, 0⟩,
  ⟨"THERM_STATUS.TJ", 0x60c, 0, 1, 0, 8, .ro, 0⟩,
  ⟨"THERM_STATUS.LP", 0x60c, 0, 1, 8, 8, .ro, 0⟩,
  ⟨"THERM_STATUS.NAND", 0x60c, 0, 1, 16, 8, .ro, 0⟩,
  ⟨"THERM_STATUS.COOL_OUT", 0x60c, 0, 1, 24, 8, .ro, 0⟩,
  ⟨"STRAP.PLCA_ID", 0x610, 0, 1, 0, 8, .ro, 255⟩,
  ⟨"STRAP.RECOVERY_N", 0x610, 0, 1, 8, 1, .ro, 1⟩,
  ⟨"STRAP.HOST_DIS_N", 0x610, 0, 1, 9, 1, .ro, 1⟩]

/-- Registers of the global range 0x0000_0000. -/
def regsW00 : List RegRow := regsW00A ++ regsW00B

/-- Registers of the routing window. -/
def regsW11 : List RegRow := [
  ⟨"ROUTE_SELF.NODE", 0x110004, 0, 1, 0, 20, .rws, 0⟩,
  ⟨"ROUTE_SIZE.SZM1_0", 0x110008, 0, 1, 0, 4, .rws, 0⟩,
  ⟨"ROUTE_SIZE.SZM1_1", 0x110008, 0, 1, 4, 4, .rws, 0⟩,
  ⟨"ROUTE_SIZE.SZM1_2", 0x110008, 0, 1, 8, 4, .rws, 0⟩,
  ⟨"ROUTE_SIZE.SZM1_3", 0x110008, 0, 1, 12, 4, .rws, 0⟩,
  ⟨"ROUTE_SIZE.SZM1_4", 0x110008, 0, 1, 16, 4, .rws, 0⟩,
  ⟨"ROUTE_CFG_STATUS.SEQ", 0x11000c, 0, 1, 0, 8, .rw, 0⟩,
  ⟨"ROUTE_CFG_STATUS.RESULT", 0x11000c, 0, 1, 8, 4, .ro, 0⟩,
  ⟨"ROUTE_CFG_STATUS.PORT", 0x11000c, 0, 1, 12, 5, .ro, 0⟩,
  ⟨"ROUTE_APEX.APEX_0", 0x110010, 0, 1, 0, 4, .ro, 0⟩,
  ⟨"ROUTE_APEX.APEX_1", 0x110010, 0, 1, 4, 4, .ro, 0⟩,
  ⟨"ROUTE_APEX.APEX_2", 0x110010, 0, 1, 8, 4, .ro, 0⟩,
  ⟨"ROUTE_APEX.APEX_3", 0x110010, 0, 1, 12, 4, .ro, 0⟩,
  ⟨"ROUTE_APEX.APEX_4", 0x110010, 0, 1, 16, 4, .ro, 0⟩,
  ⟨"ROUTE_APEX.NOAPEX_0", 0x110010, 0, 1, 20, 1, .ro, 0⟩,
  ⟨"ROUTE_APEX.NOAPEX_1", 0x110010, 0, 1, 21, 1, .ro, 0⟩,
  ⟨"ROUTE_APEX.NOAPEX_2", 0x110010, 0, 1, 22, 1, .ro, 0⟩,
  ⟨"ROUTE_APEX.NOAPEX_3", 0x110010, 0, 1, 23, 1, .ro, 0⟩,
  ⟨"ROUTE_APEX.NOAPEX_4", 0x110010, 0, 1, 24, 1, .ro, 0⟩,
  ⟨"ROUTE_PORT_MAP_p.DIM", 0x110100, 4, 32, 0, 3, .rws, 7⟩,
  ⟨"ROUTE_PORT_MAP_p.PEER", 0x110100, 4, 32, 3, 4, .rws, 0⟩,
  ⟨"ROUTE_ADAPT.VAL_BIAS", 0x110014, 0, 1, 0, 8, .rws, 16⟩,
  ⟨"ROUTE_ADAPT.LW", 0x110014, 0, 1, 8, 3, .rws, 2⟩,
  ⟨"ROUTE_ADAPT.ESC_WAIT", 0x110014, 0, 1, 16, 10, .rws, 384⟩,
  ⟨"ROUTE_E2E.RTO_MIN", 0x110018, 0, 1, 0, 10, .rws, 20⟩,
  ⟨"ROUTE_E2E.RTO_MAX", 0x110018, 0, 1, 10, 12, .rws, 1000⟩,
  ⟨"ROUTE_E2E.RETRY_LIMIT", 0x110018, 0, 1, 22, 5, .rws, 16⟩,
  ⟨"ROUTE_CC0.KMARK", 0x11001c, 0, 1, 0, 16, .rws, 32⟩,
  ⟨"ROUTE_CC0.T_UPD", 0x11001c, 0, 1, 16, 8, .rws, 20⟩,
  ⟨"ROUTE_CC0.G_SHIFT", 0x11001c, 0, 1, 24, 4, .rws, 4⟩,
  ⟨"ROUTE_CC0.HAI_N", 0x11001c, 0, 1, 28, 4, .rws, 8⟩,
  ⟨"ROUTE_CC1.G_MIN", 0x110020, 0, 1, 0, 13, .rws, 1⟩,
  ⟨"ROUTE_CC1.G_MAX", 0x110020, 0, 1, 16, 13, .rws, 2048⟩,
  ⟨"ROUTE_CC2.G_AI", 0x110024, 0, 1, 0, 13, .rws, 4⟩,
  ⟨"ROUTE_CC2.G_HAI", 0x110024, 0, 1, 16, 13, .rws, 32⟩,
  ⟨"ROUTE_CC3.IDLE", 0x110028, 0, 1, 0, 16, .rws, 100⟩,
  ⟨"ROUTE_LB_CTL.VALIANT_OFF", 0x110000, 0, 1, 0, 1, .rws, 0⟩,
  ⟨"ROUTE_LB_CTL.ROUTE_FIXED", 0x110000, 0, 1, 1, 1, .rws, 0⟩]

/-- Registers of the port telemetry window. -/
def regsW13 : List RegRow := [
  ⟨"PORT_TELEM_UTIL.EGRESS", 0x130000, 32, 32, 0, 16, .ro, 0⟩,
  ⟨"PORT_TELEM_UTIL.INGRESS", 0x130000, 32, 32, 16, 16, .ro, 0⟩,
  ⟨"PORT_TELEM_OCC", 0x130004, 32, 32, 0, 32, .ro, 0⟩,
  ⟨"PORT_TELEM_LOAD.RX", 0x130008, 32, 32, 0, 8, .ro, 0⟩,
  ⟨"PORT_TELEM_LOAD.TX", 0x130008, 32, 32, 8, 8, .ro, 0⟩,
  ⟨"PORT_BIAS.BIAS", 0x13000c, 32, 32, 0, 16, .rw, 0⟩,
  ⟨"PORT_TELEM_MARKS", 0x130010, 32, 32, 0, 32, .ro, 0⟩,
  ⟨"PORT_TELEM_STALL", 0x130014, 32, 32, 0, 32, .ro, 0⟩]

/-- Registers of the port link window. -/
def regsW14 : List RegRow := [
  ⟨"PORT_LINK_CTL.ENABLE", 0x140000, 64, 36, 0, 1, .rw, 0⟩,
  ⟨"PORT_LINK_CTL.RETRAIN", 0x140000, 64, 36, 1, 1, .sc, 0⟩,
  ⟨"PORT_LINK_CTL.SWATCH", 0x140000, 64, 36, 2, 1, .sc, 0⟩,
  ⟨"PORT_LINK_CTL.MIN_LANES", 0x140000, 64, 36, 3, 2, .rw, 2⟩,
  ⟨"PORT_LINK_CTL.HOLD_DOWN", 0x140000, 64, 36, 5, 1, .rw, 0⟩,
  ⟨"PORT_LINK_CFG.KA_MISS", 0x140004, 64, 36, 0, 5, .rws, 16⟩,
  ⟨"PORT_LINK_CFG.SWATCH_MS", 0x140004, 64, 36, 8, 8, .rws, 20⟩,
  ⟨"PORT_LINK_CFG.BER_EXP", 0x140004, 64, 36, 16, 4, .rws, 5⟩,
  ⟨"PORT_LINK_CFG.MARGIN", 0x140004, 64, 36, 20, 4, .rws, 10⟩,
  ⟨"PORT_LINK_CFG.UNC_EXP", 0x140004, 64, 36, 24, 4, .rws, 4⟩,
  ⟨"PORT_LINK_STATUS.SEQ", 0x140008, 64, 36, 0, 8, .rw, 0⟩,
  ⟨"PORT_LINK_STATUS.STATE", 0x140008, 64, 36, 8, 3, .ro, 0⟩,
  ⟨"PORT_LINK_STATUS.LANES", 0x140008, 64, 36, 11, 2, .ro, 0⟩,
  ⟨"PORT_LINK_STATUS.GROUP", 0x140008, 64, 36, 13, 2, .ro, 0⟩,
  ⟨"PORT_LINK_STATUS.DOWN_CAUSE", 0x140008, 64, 36, 15, 4, .ro, 0⟩,
  ⟨"PORT_LINK_STATUS.SWATCH_RESULT", 0x140008, 64, 36, 19, 4, .ro, 0⟩,
  ⟨"PORT_LINK_PARTNER.NODE", 0x14000c, 64, 36, 0, 20, .ro, 0⟩,
  ⟨"PORT_LINK_PARTNER.PORT", 0x14000c, 64, 36, 20, 6, .ro, 0⟩,
  ⟨"PORT_LANE_STATUS.PASS", 0x140010, 64, 36, 0, 16, .ro, 0⟩,
  ⟨"PORT_LANE_STATUS.LOS", 0x140010, 64, 36, 16, 16, .ro, 0⟩]

/-- Registers of the store window, part 1. -/
def regsW15A : List RegRow := [
  ⟨"STORE_LINK_LIMIT_0.A0", 0x150000, 0, 1, 0, 10, .rws, 0⟩,
  ⟨"STORE_LINK_LIMIT_1.A0", 0x150004, 0, 1, 0, 10, .rws, 64⟩,
  ⟨"STORE_LINK_LIMIT_2.A0", 0x150008, 0, 1, 0, 10, .rws, 64⟩,
  ⟨"STORE_LINK_LIMIT_3.A0", 0x15000c, 0, 1, 0, 10, .rws, 64⟩,
  ⟨"STORE_LINK_LIMIT_4.A0", 0x150010, 0, 1, 0, 10, .rws, 32⟩,
  ⟨"STORE_LINK_LIMIT_5.A0", 0x150014, 0, 1, 0, 10, .rws, 64⟩,
  ⟨"STORE_LINK_LIMIT_0.A1", 0x150000, 0, 1, 10, 10, .rws, 0⟩,
  ⟨"STORE_LINK_LIMIT_1.A1", 0x150004, 0, 1, 10, 10, .rws, 128⟩,
  ⟨"STORE_LINK_LIMIT_2.A1", 0x150008, 0, 1, 10, 10, .rws, 256⟩,
  ⟨"STORE_LINK_LIMIT_3.A1", 0x15000c, 0, 1, 10, 10, .rws, 256⟩,
  ⟨"STORE_LINK_LIMIT_4.A1", 0x150010, 0, 1, 10, 10, .rws, 64⟩,
  ⟨"STORE_LINK_LIMIT_5.A1", 0x150014, 0, 1, 10, 10, .rws, 256⟩,
  ⟨"STORE_LINK_LIMIT_0.E", 0x150000, 0, 1, 20, 10, .rws, 16⟩,
  ⟨"STORE_LINK_LIMIT_1.E", 0x150004, 0, 1, 20, 10, .rws, 16⟩,
  ⟨"STORE_LINK_LIMIT_2.E", 0x150008, 0, 1, 20, 10, .rws, 16⟩,
  ⟨"STORE_LINK_LIMIT_3.E", 0x15000c, 0, 1, 20, 10, .rws, 16⟩,
  ⟨"STORE_LINK_LIMIT_4.E", 0x150010, 0, 1, 20, 10, .rws, 16⟩,
  ⟨"STORE_LINK_LIMIT_5.E", 0x150014, 0, 1, 20, 10, .rws, 16⟩,
  ⟨"STORE_REGION_1.MIN", 0x150024, 0, 1, 0, 16, .rws, 64⟩,
  ⟨"STORE_REGION_2.MIN", 0x150028, 0, 1, 0, 16, .rws, 128⟩,
  ⟨"STORE_REGION_3.MIN", 0x15002c, 0, 1, 0, 16, .rws, 256⟩,
  ⟨"STORE_REGION_5.MIN", 0x150034, 0, 1, 0, 16, .rws, 64⟩,
  ⟨"STORE_REGION_6.MIN", 0x150038, 0, 1, 0, 16, .rws, 1536⟩,
  ⟨"STORE_REGION_7.MIN", 0x15003c, 0, 1, 0, 16, .rws, 256⟩,
  ⟨"STORE_REGION_8.MIN", 0x150040, 0, 1, 0, 16, .rws, 2048⟩,
  ⟨"STORE_REGION_1.MAX", 0x150024, 0, 1, 16, 16, .rws, 512⟩,
  ⟨"STORE_REGION_2.MAX", 0x150028, 0, 1, 16, 16, .rws, 1024⟩,
  ⟨"STORE_REGION_3.MAX", 0x15002c, 0, 1, 16, 16, .rws, 1024⟩,
  ⟨"STORE_REGION_5.MAX", 0x150034, 0, 1, 16, 16, .rws, 64⟩,
  ⟨"STORE_REGION_6.MAX", 0x150038, 0, 1, 16, 16, .rws, 4096⟩,
  ⟨"STORE_REGION_7.MAX", 0x15003c, 0, 1, 16, 16, .rws, 1024⟩,
  ⟨"STORE_REGION_8.MAX", 0x150040, 0, 1, 16, 16, .rws, 4096⟩,
  ⟨"STORE_REGION_4", 0x150030, 0, 1, 0, 32, .ro, 0x200020⟩,
  ⟨"STORE_WINDOW.TARGET", 0x150050, 0, 1, 0, 2, .rws, 0⟩,
  ⟨"STORE_WINDOW.BASE", 0x150050, 0, 1, 2, 12, .rws, 0⟩,
  ⟨"STORE_PARK.REQ_SHARE", 0x150054, 0, 1, 0, 8, .rws, 192⟩,
  ⟨"STORE_CFG_STATUS.SEQ", 0x150058, 0, 1, 0, 8, .rw, 0⟩,
  ⟨"STORE_CFG_STATUS.RESULT", 0x150058, 0, 1, 8, 4, .ro, 0⟩,
  ⟨"STORE_CFG_STATUS.REGION", 0x150058, 0, 1, 12, 4, .ro, 0⟩,
  ⟨"STORE_OCC_n", 0x150080, 4, 10, 0, 26, .ro, 0⟩]

/-- Registers of the store window, part 2. -/
def regsW15B : List RegRow := [
  ⟨"STORE_OCC_SHARED", 0x1500a8, 0, 1, 0, 26, .ro, 0xe0e000⟩]

/-- Registers of the store window. -/
def regsW15 : List RegRow := regsW15A ++ regsW15B

/-- Registers of the pooled memory window. -/
def regsW16 : List RegRow := [
  ⟨"POOL_ARB.REMOTE", 0x160000, 0, 1, 0, 4, .rw, 8⟩,
  ⟨"POOL_ARB.ENGINE", 0x160000, 0, 1, 4, 4, .rw, 8⟩,
  ⟨"POOL_ARB.HOSTWIN", 0x160000, 0, 1, 8, 4, .rw, 2⟩,
  ⟨"POOL_ARB.CKPT", 0x160000, 0, 1, 12, 4, .rw, 1⟩,
  ⟨"POOL_SCRUB_CTL.PERIOD_H", 0x160004, 0, 1, 0, 8, .rw, 24⟩]

/-- Registers of the failure window. -/
def regsW17 : List RegRow := [
  ⟨"FAIL_TIMING.DEAD_CONFIRM", 0x170000, 0, 1, 0, 8, .rws, 50⟩,
  ⟨"FAIL_TIMING.CLAIM_SETTLE", 0x170000, 0, 1, 8, 8, .rws, 20⟩,
  ⟨"FAIL_NODE_STATUS.SEQ", 0x170004, 0, 1, 0, 8, .rw, 0⟩,
  ⟨"FAIL_NODE_STATUS.CAUSE", 0x170004, 0, 1, 8, 8, .ro, 0⟩,
  ⟨"FAIL_NODE_STATUS.BOUND_OFF", 0x170004, 0, 1, 16, 1, .ro, 0⟩,
  ⟨"FAIL_NODE_STATUS.CLAIMING", 0x170004, 0, 1, 17, 1, .ro, 0⟩,
  ⟨"FAIL_RETIRE.CODE", 0x170008, 0, 1, 0, 32, .wo, 0⟩]

/-- Registers of the checkpoint tier window. -/
def regsW18 : List RegRow := [
  ⟨"NV_GOV_CFG.AVG", 0x180000, 0, 1, 0, 8, .rws, 160⟩,
  ⟨"NV_GOV_CFG.BURST", 0x180000, 0, 1, 8, 8, .rws, 32⟩,
  ⟨"NV_GOV_STATUS.CREDIT", 0x180004, 0, 1, 0, 16, .ro, 0⟩,
  ⟨"NV_GOV_STATUS.PACED", 0x180004, 0, 1, 16, 1, .ro, 0⟩,
  ⟨"NV_WEAR.MEAN_PE", 0x180008, 0, 1, 0, 16, .ro, 0⟩,
  ⟨"NV_WEAR.LIFE_PERMIL", 0x180008, 0, 1, 16, 16, .ro, 0⟩,
  ⟨"NV_CAP.AVAIL_GIB", 0x18000c, 0, 1, 0, 16, .ro, 8192⟩,
  ⟨"NV_CAP.RETIRED_PERMIL", 0x18000c, 0, 1, 16, 16, .ro, 0⟩]

/-- Registers of the host link window. -/
def regsW19 : List RegRow := [
  ⟨"HOST_DLOG_BASE", 0x191000, 32, 256, 0, 32, .rw, 0⟩,
  ⟨"HOST_DLOG_BASE", 0x191004, 32, 256, 0, 32, .rw, 0⟩,
  ⟨"HOST_DLOG_CTL.SIZE", 0x191008, 32, 256, 0, 4, .rw, 0⟩,
  ⟨"HOST_DLOG_CTL.ENABLE", 0x191008, 32, 256, 4, 1, .rw, 0⟩,
  ⟨"HOST_DLOG_CTL.PAUSE", 0x191008, 32, 256, 5, 1, .rw, 0⟩,
  ⟨"HOST_DLOG_CTL.ROUND", 0x191008, 32, 256, 6, 1, .sc, 0⟩,
  ⟨"HOST_DLOG_PI", 0x19100c, 32, 256, 0, 32, .ro, 0⟩,
  ⟨"HOST_DLOG_CI", 0x191010, 32, 256, 0, 32, .rw, 0⟩,
  ⟨"HOST_DLOG_STATUS.SEQ", 0x191014, 32, 256, 0, 8, .rw, 0⟩,
  ⟨"HOST_DLOG_STATUS.OVERFLOW", 0x191014, 32, 256, 8, 1, .ro, 0⟩,
  ⟨"HOST_DLOG_STATUS.PAUSED", 0x191014, 32, 256, 9, 1, .ro, 0⟩,
  ⟨"HOST_LINK_STATUS.SEQ", 0x190000, 0, 1, 0, 8, .rw, 0⟩,
  ⟨"HOST_LINK_STATUS.RATE", 0x190000, 0, 1, 8, 3, .ro, 0⟩,
  ⟨"HOST_LINK_STATUS.WIDTH", 0x190000, 0, 1, 11, 5, .ro, 0⟩,
  ⟨"HOST_LINK_STATUS.CXL", 0x190000, 0, 1, 16, 1, .ro, 0⟩,
  ⟨"HOST_LINK_STATUS.MEM", 0x190000, 0, 1, 17, 1, .ro, 0⟩,
  ⟨"HOST_LINK_STATUS.EVENT", 0x190000, 0, 1, 18, 4, .ro, 0⟩,
  ⟨"HOST_XLATE_CFG.PRI_TIMEOUT", 0x190004, 0, 1, 0, 16, .rws, 1000⟩,
  ⟨"HOST_XLATE_CFG.FUNC_MAX", 0x190004, 0, 1, 16, 7, .rws, 16⟩,
  ⟨"HOST_WIN_CTL.FLUSH", 0x190008, 0, 1, 0, 1, .sc, 0⟩,
  ⟨"HOST_WIN_CTL.DIR_EMPTY", 0x190008, 0, 1, 1, 1, .ro, 1⟩]

/-- Registers of the attach window. -/
def regsW1a : List RegRow := [
  ⟨"ATTACH_ACC_a.OWNER", 0x1a0000, 16, 4, 0, 8, .rws, 0⟩,
  ⟨"ATTACH_ACC_a.PRESENT", 0x1a0000, 16, 4, 8, 1, .ro, 0⟩,
  ⟨"ATTACH_ACC_a.PORTS", 0x1a0000, 16, 4, 9, 4, .ro, 0⟩,
  ⟨"ATTACH_ACC_a.NLINKSM1", 0x1a0000, 16, 4, 13, 2, .ro, 0⟩,
  ⟨"ATTACH_ID_a.GROUP", 0x1a0004, 16, 4, 0, 20, .ro, 0⟩,
  ⟨"ATTACH_CFG.RTO", 0x1a0040, 0, 1, 0, 8, .rws, 8⟩,
  ⟨"ATTACH_CFG.LOST", 0x1a0040, 0, 1, 8, 8, .rws, 10⟩,
  ⟨"ATTACH_CFG.RETRY_LIMIT", 0x1a0040, 0, 1, 16, 5, .rws, 16⟩,
  ⟨"ATTACH_CFG_STATUS.SEQ", 0x1a0044, 0, 1, 0, 8, .rw, 0⟩,
  ⟨"ATTACH_CFG_STATUS.RESULT", 0x1a0044, 0, 1, 8, 4, .ro, 0⟩,
  ⟨"ATTACH_CFG_STATUS.INDEX", 0x1a0044, 0, 1, 12, 2, .ro, 0⟩]

/-- Registers of the functions window. -/
def regsW1b : List RegRow := [
  ⟨"FUNC_GRANT_f.QBASE", 0x1b0000, 64, 256, 0, 14, .rws, 0⟩,
  ⟨"FUNC_GRANT_f.QCOUNT", 0x1b0000, 64, 256, 16, 15, .rws, 0⟩,
  ⟨"FUNC_GRANT_f.CBASE", 0x1b0004, 64, 256, 0, 15, .rws, 0⟩,
  ⟨"FUNC_GRANT_f.CCOUNT", 0x1b0004, 64, 256, 16, 16, .rws, 0⟩,
  ⟨"FUNC_GRANT_f.POOL_BASE", 0x1b0008, 64, 256, 0, 12, .rws, 0⟩,
  ⟨"FUNC_GRANT_f.POOL_LEN", 0x1b0008, 64, 256, 16, 12, .rws, 0⟩,
  ⟨"FUNC_GRANT_f.KEYS", 0x1b000c, 64, 256, 0, 21, .rws, 0x20000⟩,
  ⟨"FUNC_GRANT_f.CONNS", 0x1b0010, 64, 256, 0, 21, .rws, 0x20000⟩,
  ⟨"FUNC_GRANT_f.INFLIGHT", 0x1b0014, 64, 256, 0, 19, .rws, 32768⟩,
  ⟨"FUNC_GRANT_f.STORE", 0x1b0018, 64, 256, 0, 13, .rws, 512⟩,
  ⟨"FUNC_GRANT_f.SLOTS", 0x1b001c, 64, 256, 0, 13, .rws, 512⟩,
  ⟨"FUNC_GRANT_f.PBASE", 0x1b0020, 64, 256, 0, 6, .rws, 0⟩,
  ⟨"FUNC_GRANT_f.PCOUNT", 0x1b0020, 64, 256, 8, 7, .rws, 0⟩,
  ⟨"FUNC_GRANT_f.KBASE", 0x1b0024, 64, 256, 0, 8, .rws, 0⟩,
  ⟨"FUNC_GRANT_f.KCOUNT", 0x1b0024, 64, 256, 8, 9, .rws, 0⟩,
  ⟨"FUNC_GRANT_f.CKPT", 0x1b0028, 64, 256, 0, 14, .rws, 0⟩,
  ⟨"FUNC_GRANT_f.TTAG", 0x1b002c, 64, 256, 0, 16, .rws, 0⟩,
  ⟨"FUNC_SCHED_f.QUANTUM", 0x1b0030, 64, 256, 0, 8, .rws, 8⟩,
  ⟨"FUNC_SCHED_f.SHAPE_EN", 0x1b0030, 64, 256, 8, 1, .rws, 0⟩,
  ⟨"FUNC_SCHED_f.ONCHANGE", 0x1b0030, 64, 256, 9, 1, .rws, 0⟩,
  ⟨"FUNC_SHAPE_f.RATE", 0x1b0034, 64, 256, 0, 13, .rws, 2048⟩,
  ⟨"FUNC_SHAPE_f.BURST", 0x1b0034, 64, 256, 16, 8, .rws, 8⟩,
  ⟨"FUNC_CFG_STATUS.SEQ", 0x1b4000, 0, 1, 0, 8, .rw, 0⟩,
  ⟨"FUNC_CFG_STATUS.RESULT", 0x1b4000, 0, 1, 8, 4, .ro, 0⟩,
  ⟨"FUNC_CFG_STATUS.FUNC", 0x1b4000, 0, 1, 12, 8, .ro, 0⟩,
  ⟨"FUNC_RESET_CMD.FUNC", 0x1b4010, 0, 1, 0, 8, .rw, 0⟩,
  ⟨"FUNC_RESET_CMD.GO", 0x1b4010, 0, 1, 31, 1, .sc, 0⟩]

/-- The offset within its page of an address in the function pages, with the rows to look in; other addresses keep theirs (R408). -/
def regRows (a : Nat) : Nat × List RegRow :=
  if 0x400000 ≤ a ∧ a < 0x800000 then ((a - 0x400000) % 0x4000, regsPage)
  else (a, match a / 0x10000 with
  | 0x00 => regsW00
  | 0x11 => regsW11
  | 0x13 => regsW13
  | 0x14 => regsW14
  | 0x15 => regsW15
  | 0x16 => regsW16
  | 0x17 => regsW17
  | 0x18 => regsW18
  | 0x19 => regsW19
  | 0x1a => regsW1a
  | 0x1b => regsW1b
  | _ => [])

/-- Row r has a register word at address (or page offset) o. -/
def RegRow.at (r : RegRow) (o : Nat) : Bool :=
  if r.n = 1 then r.base == o
  else decide (r.base ≤ o) && (o - r.base) % r.stride == 0 && decide ((o - r.base) / r.stride < r.n)

/-- The fields at word address a. -/
def regFields (a : Nat) : List RegRow := (regRows a).2.filter (·.at (regRows a).1)

/-- Width bits from bit lo on, as a 32-bit mask. -/
def bitMask (lo width : Nat) : Word := BitVec.ofNat 32 ((2 ^ width - 1) * 2 ^ lo)

/-- The bits of the word at address a whose type is one of those for which p holds. -/
def accMask (p : Access → Bool) (a : Nat) : Word :=
  (regFields a).foldl (fun m r => if p r.acc then m ||| bitMask r.lo r.width else m) 0

/-- The reset value of the word at address a; 0 where no table names a field (R409). -/
def regReset (a : Nat) : Word :=
  (regFields a).foldl (fun m r => m ||| BitVec.ofNat 32 (r.reset * 2 ^ r.lo)) 0

end Sys2Proof.Machine
end

