-- ==== Sys2Proof/Machine/Types.lean ====
section
/-! DEFINITION. The parts of the state: queues, started instructions, keys, paths, host link, accelerators, functions. -/

namespace Sys2Proof.Machine

/-! ## Local spaces and tickets -/

/-- The local spaces of R48. -/
inductive Space where
  | hostva | accel | pool
  deriving DecidableEq, Repr

/-- The record rings of a function: its fault queue (R425) and its sample ring (R383). -/
inductive RecRing where
  | fault | sample
  deriving DecidableEq, Repr

/-- The interrupt that SOL asks for, as it stands when its record is written (R46): MSI-X, or an AINTR with the queue and CPI. -/
inductive Irq where
  | msix (f vector : Nat)
  | attach (a q : Nat) (cpi : Word)
  deriving DecidableEq, Repr

/-- What waits for a local write to be placed, or for local data to arrive. -/
inductive Ticket where
  /-- Buffer or write of run rid (R144). -/
  | run (rid : Nat) (buf : Nat)
  /-- A completion record: its counter update, whether it marks ERR, and its SOL interrupt follow (R45, R104). -/
  | record (g : Nat) (ctr : Option Nat) (err : Bool) (sol : Option Irq)
  /-- The completion ring, or the work ring, of queue g waits for a translation (R92, R103, R354). -/
  | cring (g : Nat)
  | wring (g : Nat)
  /-- The oldest waiting record of a ring of function f (R385, R427). -/
  | ringRec (k : RecRing) (f : Nat)
  /-- A remote request accepted from a peer's queue, or from an accelerator (R142, R143). -/
  | remote (src iqueue : Nat) (psn : Nat)
  /-- The answer to a remote GET or atomic on accelerator memory: the request's source and PSN (R137, R139). -/
  | remoteRead (src psn : Nat)
  /-- An LWR of accelerator a, with the INDEX it passed its check with (R132, R367). -/
  | accelMsg (a : Nat) (tag : BitVec 16) (idx : Nat)
  /-- A write into destination chunk c of the collective of run rid (R172). -/
  | coll (rid : Nat) (chunk : Nat)
  /-- The copy of a PUT packet that is rebuilt from its source: peer and PSN (R280). -/
  | rebuild (peer : Nat) (psn : Word)
  /-- Nothing waits. -/
  | nobody
  deriving DecidableEq, Repr

/-- Buffer numbers of a run's writes that go to no buffer: the residual, an auxiliary array, a stitch marker, and a translation ahead of its use or a
unit of parity. -/
def wResid : Nat := 2 ^ 20
def wAux : Nat := 2 ^ 20 + 1
def wMark : Nat := 2 ^ 20 + 2
def wOther : Nat := 2 ^ 20 + 3

/-! ## Queues and instructions -/

/-- A fetched instruction: its position, its entry and its extension (R40, R43). -/
structure Fetched where
  pos : Word
  w : Entry
  x : Option Entry
  /-- A frog of its job began after it was accepted (R322 step 1). -/
  frogged : Bool := false
  deriving DecidableEq, Repr

/-- An accepted instruction with the body of a REPEAT, and whether it is consumed by a malformed REPEAT (R66). -/
structure Acc where
  ins : Fetched
  body : List Fetched
  doomed : Bool
  deriving DecidableEq, Repr

/-- A REPEAT whose body is being fetched: the positions still to come (R110). -/
structure Collect where
  left : Nat
  doomed : Bool
  deriving DecidableEq, Repr

/-- A REPEAT in progress: the run of the REPEAT itself, its entry, its body, the pass and the next body instruction (R65). -/
structure Rep where
  rid : Nat
  ins : Fetched
  body : List Fetched
  pass : Nat
  next : Nat
  deriving DecidableEq, Repr

/-- A completion record with what follows its write (R86, R45). -/
structure CRec where
  status : BitVec 8
  opcode : BitVec 8
  eseq : Word
  iter : Word
  flags : BitVec 4
  detail : BitVec 8
  result : DWord
  info : DWord
  ctr : Option Nat
  err : Bool
  /-- The MSI-X vector of its SOL interrupt (R46, R96). -/
  sol : Option Nat
  startT : Nat
  deriving DecidableEq, Repr

/-- What holds the head packet of a queue back: nothing to send, a transaction, the store, a connection half, its fetch into the context cache, the
window, the gauge, a token bucket, a claim, or a lost target (R112, R121, R146, R147, R238, R244, R285, R381). -/
inductive Hold where
  | nothing | noWork | txn | store | conn | fetch | window | gauge | bucket | claim | lost
  deriving DecidableEq, Repr

/-- A hardware queue (R91 to R106, R382, R421). -/
structure Queue where
  created : Bool := false
  /-- The 64 B descriptor of R93. -/
  desc : Entry := 0
  fetch : Word := 0
  dbpi : Word := 0
  cpi : Word := 0
  cci : Word := 0
  /-- Accepted and completed instructions (R28). -/
  accepted : Word := 0
  completed : Word := 0
  held : List Acc := []
  /-- The primary entry at the ring's last index, read and OWN checked, whose extension at index 0 is still to be read (R43, R102). -/
  half : Option Entry := none
  collect : Option Collect := none
  rep : Option Rep := none
  /-- Position waited on, read attempts, fault raised (R102). -/
  stale : Option (Word × Nat × Bool) := none
  /-- Ring-fault episodes of the work ring and of the completion ring (R103). -/
  workFault : Bool := false
  compFault : Bool := false
  heldRecs : List CRec := []
  stallRaised : Bool := false
  /-- The stamp at which the queue began to wait for a transaction, and whether the contributions of a collective wait for it (R112). -/
  txnWait : Option Nat := none
  txnColl : Bool := false
  /-- What held the queue's head packet back when it was last looked at: a wait is counted where it begins (R112, R147, R238, R285). -/
  noted : Hold := .noWork
  /-- Writes of completed instructions that no FLUSH has confirmed placed: node, completed without error, run, known to be placed (R56, R143). -/
  unplaced : List (Nat × Bool × Nat × Bool) := []
  /-- Nodes asked for an ORDER AFTER_PLACED hold, and those whose request failed (R44). -/
  holdAsked : List Nat := []
  holdFailed : List Nat := []
  /-- Doorbells applied, oldest first: the index announced and the time (R384 DELAY). -/
  bells : List (Word × Nat) := []
  weight : Nat := 4
  rate : Nat := 0
  tokens : Nat := 65536
  qdef : Nat := 0
  hist : Tab DWord := []
  deriving DecidableEq, Repr

/-- A packet that a run has still to inject: its destination address, what it carries and its cost (R111, R378). -/
structure Unsent where
  addr : DWord
  body : Body
  payload : List Byte
  cost : Nat
  /-- Offset of the packet's bytes within the run's range, and their number. -/
  off : Nat
  len : Nat
  deriving DecidableEq, Repr

/-- What a started instruction waits for; granting: a COPY waits for the grants of its pieces (R378); ending: it has failed, and its record waits for the local writes that it has made (R45). -/
inductive Phase where
  | granting | reading | sending | placing | counter | covered | requests | passes | coll | tier | ending
  deriving DecidableEq, Repr

/-- A local operand (R48). -/
structure Opnd where
  space : Space
  addr : DWord
  len : Nat
  key : Word
  deriving DecidableEq, Repr

/-- No operand: what a buffer of a run that is free again holds. -/
def noOpnd : Opnd := { space := .pool, addr := 0, len := 0, key := 0 }

/-- A part of an operand: n bytes from an offset on. -/
def Opnd.part (o : Opnd) (off n : Nat) : Opnd := { o with addr := o.addr + BitVec.ofNat 64 off, len := n }

/-- A packet of a run that has failed: its offset in the range, its status and reason (R134). -/
structure PktFail where
  off : Nat
  status : BitVec 8
  reason : BitVec 8
  deriving DecidableEq, Repr

/-- A started instruction that has not completed (R44, R106). -/
structure Run where
  rid : Nat
  g : Nat
  ins : Fetched
  iter : Word
  /-- The REPEAT whose body instance this is (R65). -/
  parent : Option Nat
  /-- The communicator bound to the queue at the start (R96). -/
  comm : Option (BitVec 24)
  /-- The global row counter of CNT_SEL (R45). -/
  ctr : Option Nat
  /-- The vector of its SOL interrupt, where SOL is 1 (R46, R96). -/
  sol : Option Nat
  startT : Nat
  phase : Phase
  /-- Operand buffers, in the opcode's order, with the bytes each still misses. -/
  bufs : List (Opnd × List Byte × Nat)
  unsent : List Unsent
  /-- Request packets not yet acknowledged or answered. -/
  outstanding : Nat
  /-- Local writes not yet placed. -/
  writes : Nat
  /-- Bytes acknowledged without failure (R134 INFO). -/
  acked : Nat
  fails : List PktFail
  status : BitVec 8
  detail : BitVec 8
  result : DWord
  info : DWord
  flags : BitVec 4
  /-- Nodes that the instruction's writes reached (R143). -/
  reached : List Nat
  /-- Runs that a FLUSH or a PLACED write covers and that have not completed (R56, R61). -/
  covers : List Nat
  /-- The first error status of a covered instruction in ring order, with its place (R56). -/
  covErr : Option (Nat × BitVec 8)
  /-- Placement requests still open, and those that failed: node, and whether the node was lost. -/
  asks : List Nat
  askFails : List (Nat × Bool)
  /-- TAG: how its two instances disagreed, as a code (R398). COPY: the bytes whose pieces have been granted (R378). -/
  aux : Nat := 0
  /-- The global program slot of a RUG or UPROG, or key slot of a TAG, that the instruction started with (R376). -/
  slot : Nat := 0
  deriving DecidableEq, Repr

/-- An instruction that a monitor covers and that has no final verdict yet (R387 to R390): its function, monitor, run, position and queue,
whether it has completed and passed so far (none while it has not), and its bytes. -/
structure MonItem where
  f : Nat
  m : Nat
  rid : Nat
  eseq : Word
  q : Nat
  ended : Option Bool
  bytes : List Byte
  deriving DecidableEq, Repr

/-- A TAG key slot: its two copies, empty where no key is loaded (R394). -/
structure KSlot where
  a : List Byte := []
  b : List Byte := []
  deriving DecidableEq, Repr

/-! ## Keys -/

/-- The state of a registration (R125 STATE). -/
inductive KeyState where
  | free | valid | draining | drained
  deriving DecidableEq, Repr

/-- A registration entry: the GEN last assigned, its state, its owner and its 32 B descriptor (R123, R124). -/
structure KeyEnt where
  gen : BitVec 12 := 4095
  state : KeyState := .free
  owner : Nat := 0
  desc : BitVec 256 := 0
  /-- Freed by itself as it drains (R133). -/
  autoRelease : Bool := false
  deriving DecidableEq, Repr

/-- An in-flight transaction (R111): its function, the queue whose instruction holds it, none once the queue is gone, and its number. -/
structure Txn where
  f : Nat
  q : Option Nat
  num : Nat
  deriving DecidableEq, Repr

/-! ## Paths to peers -/

/-- A packet retained at its source until it is acknowledged (R238, R242). -/
structure Retained where
  pkt : Packet
  /-- The fabric address it was resolved from, for a new resolution (R120). -/
  addr : DWord
  comm : Option (BitVec 24)
  sentT : Nat
  /-- Transmissions so far. -/
  tries : Nat
  /-- The run that issued it, if it is a request of one (R111). -/
  rid : Option Nat
  off : Nat
  len : Nat
  /-- It stays timed until its response arrives (R242). -/
  needsResp : Bool
  acked : Bool
  longRaised : Bool
  /-- It is the response to the peer's request with this PSN, and stays until the peer's LUP passes it (R137, R242). -/
  reply : Option Word := none
  /-- Its retransmission waits for gauge tokens (R244). -/
  due : Bool := false
  /-- The in-flight transaction that it holds, by its number (R111). -/
  txn : Option Nat := none
  /-- Bytes of its copy that are still being read again (R280). -/
  missing : Nat := 0
  /-- A contribution that has not been injected yet: the queue that its grant is charged to (R378). -/
  charge : Option Nat := none
  deriving DecidableEq, Repr

/-- The outcome of a delivered PSN (R241). -/
inductive RxState where
  | pending
  | done (status reason : BitVec 8)
  deriving DecidableEq, Repr

/-- A path context with one peer, both directions (R238 to R244). -/
structure Path where
  nextPsn : Word := 0
  retained : List Retained := []
  /-- Packets that wait for the window or for gauge tokens, oldest first. -/
  waitq : List Retained := []
  rbase : Word := 0
  rx : List (Word × RxState) := []
  /-- First deliveries not yet reported, each with its congestion mark (R239). -/
  unreported : List (Word × Bool) := []
  /-- SRTT in ns, absent before the first sample (R242). -/
  srtt : Option Nat := none
  /-- Gauge in units of 0.5 GB/s: absent stands for G_MAX (R244). -/
  gauge : Option Rat := none
  alpha : Rat := 1
  quiet : Nat := 0
  tokens : Nat := 65536
  newAcked : Nat := 0
  newEchoed : Nat := 0
  deriving DecidableEq, Repr

/-- A packet inside the node: where it came in, and whether it originates here. -/
structure InPkt where
  pkt : Packet
  port : Option Nat
  originated : Bool
  /-- The channel it came in on, whose partition its cells are charged to (R282). -/
  vcIn : BitVec 2 := 0
  /-- The generation of its port's credit counts in which its slots were counted (R258, R262). -/
  gen : Nat := 0
  deriving DecidableEq, Repr

/-! ## The cells of the store (R277, R278) -/

/-- What a chain of cells holds (R280, R281): a packet that came in; a request of a run, by its offset in the range; a held
record; a response to a peer's request; a packet of an engine; a chunk transfer; the context region; the store window; data that have come for a run
from the host or from pooled memory; units for a darning read; a version on its way to or from the tier. -/
inductive HeldAs where
  | packet (src dst : BitVec 20) (psn : Word) (cls : BitVec 3)
  | request (rid off : Nat)
  | record (g : Nat) (eseq iter : Word)
  | reply (peer : Nat) (psn : Word) (roff : Nat)
  | engine (peer : Nat) (psn : Word)
  | transfer (comm : Nat) (cseq : Word) (chunk : Nat) (kind : CollKind)
  | context
  | window
  | hostIn (rid : Nat)
  | memIn (rid : Nat)
  | darning (src : Nat) (psn : Word)
  | version (obj : Nat) (rid : Nat)
  | restore (f obj : Nat)
  deriving DecidableEq, Repr

/-- What needs a chain: the region charged, what it holds, which of its copies, and its cells. -/
structure Need where
  region : Nat
  use : HeldAs
  copy : Bool := false
  cells : Nat
  deriving DecidableEq, Repr

/-- A chain of cells: what it holds, which copy, and its cells in order, each a bank and a cell of that bank (R278). -/
structure Chain where
  use : HeldAs
  copy : Bool
  cells : List (Nat × Nat)
  deriving DecidableEq, Repr

/-- A bank (R277, R278): its free list, which is the cells freed, oldest first, and then the cells never used from `fresh` on; and the cells queued for
writing. -/
structure Bank where
  freed : List Nat := []
  fresh : Nat := 0
  queued : Nat := 0
  deriving DecidableEq, Repr

/-- The store allocator: its 128 banks, its chains, and the times at which it has looked at the banks' queues. -/
structure Store where
  banks : Tab Bank := []
  chains : List Chain := []
  looks : Nat := 0
  deriving DecidableEq, Repr

/-! ## Ports (R247 to R269) -/

/-- Credits of a class and virtual channel of a port in both directions, modulo 2^32 (R257, R258): at the sender LIMIT, USED and RET, at
the receiver RCVD, FREED and the FREED last reported. -/
structure Pair where
  limit : Word := 0
  used : Word := 0
  ret : Word := 0
  rcvd : Word := 0
  freed : Word := 0
  reported : Word := 0
  deriving DecidableEq, Repr

/-- Why a port is in HELD (R263, R264, R266, R401). -/
inductive HeldBy where
  | nothing | partner | miswired | hold | boundOff | recovery
  deriving DecidableEq, Repr

/-- Why a fast retrain runs (R265). -/
inductive FastWhy where
  | lock | lane | credit | errors
  deriving DecidableEq, Repr

/-- Where a swatch stands (R267): waiting for an echo, in a phase, or with its own result out. -/
inductive SwPhase where
  | askA | runA | endA | askB | runB | results | ready
  deriving DecidableEq, Repr

/-- A swatch in progress: whether this end leads, its own LANE_PASS so far, the partner's result, and the lane set tested in phase B. -/
structure Swatch where
  leader : Bool
  phase : SwPhase
  own : BitVec 16
  partner : Option (BitVec 16)
  lanes : Nat
  group : Nat
  /-- The most symbols corrected in any codeword, per quarter of the lanes, none where one was uncorrectable (R267 step 4). -/
  worst : List (Option Nat) := []
  deriving DecidableEq, Repr

/-- A port engine, beside its registers (R251 to R267). -/
structure Port where
  /-- Credit counts, by 4 × class + channel. -/
  pairs : Tab Pair := []
  /-- How often the counts have been set to 0: packets counted before that return no credit (R262, R265). -/
  gen : Nat := 0
  /-- Packets queued for egress, oldest first, with the channel each will leave on. -/
  egress : List InPkt := []
  /-- The packet in progress: its HEAD and its BODY bytes so far; and a complete packet whose following slot has not come (R254). -/
  cur : Option (List Byte × List Byte) := none
  last : Option (List Byte × List Byte) := none
  heldBy : HeldBy := .nothing
  fast : Option FastWhy := none
  /-- Times of the fast retrains and of the error-rate events of the last second (R261, R265). -/
  fastTimes : List Nat := []
  errTimes : List Nat := []
  /-- Codeword lock, consecutive correctable and consecutive uncorrectable codewords, and the times of the uncorrectable ones of the last 1 ms
  (R251, R261). -/
  lock : Bool := false
  good : Nat := 0
  bad : Nat := 0
  uncTimes : List Nat := []
  /-- The last 58 bits that went into the descrambler, the latest highest; lane order and polarity as training found them (R250). -/
  descr : Nat := 0
  reversed : Bool := false
  inverted : BitVec 16 := 0
  /-- The partner's TS_IDENT has passed its check, and the classes whose TS_CREDIT has come, in this IDENT (R264). -/
  identOk : Bool := false
  limits : List Nat := []
  /-- LOAD in the partner's last keepalive and in this node's (R244). -/
  loadRx : Nat := 0
  loadTx : Nat := 0
  sw : Option Swatch := none
  /-- Consecutive failed training attempts, and whether PORT_TRAIN_FAIL is raised (R264). -/
  fails : Nat := 0
  trainRaised : Bool := false
  kseq : Word := 0
  /-- Bytes sent and received, and packets marked, in the telemetry period (R245). -/
  tx : Nat := 0
  rx : Nat := 0
  marks : Nat := 0
  deriving DecidableEq, Repr

/-! ## Host link -/

/-- A cached translation (R353). -/
structure Xlate where
  f : Nat
  pasid : BitVec 20
  va : DWord
  log2 : Nat
  pa : DWord
  writable : Bool
  deriving DecidableEq, Repr

/-- The state of a parked stream (R354, R355). -/
inductive ParkState where
  | waiting | translating | paging | pageWaiting
  deriving DecidableEq, Repr

/-- A translation stream that waits: the rest of its range, its data for a write, and the ticket it serves. -/
structure Park where
  f : Nat
  pasid : BitVec 20
  va : DWord
  len : Nat
  write : Bool
  data : List Byte
  off : Nat
  ticket : Ticket
  st : ParkState
  /-- It only translates its range, ahead of the use. -/
  probe : Bool := false
  deriving DecidableEq, Repr

/-- An outstanding host read (R348): the page it was formed from and where its data go. -/
structure HRead where
  tag : Nat
  f : Nat
  pasid : BitVec 20
  va : DWord
  len : Nat
  off : Nat
  ticket : Ticket
  deriving DecidableEq, Repr

/-- A write or an atomic on a window line that waits for a BIRsp (R350). -/
structure WinWait where
  off : Nat
  data : List Byte
  ticket : Ticket
  deriving DecidableEq, Repr

/-! ## Accelerators -/

/-- What an outstanding attach request is. -/
inductive AKind where
  | awr | ard | aatom
  deriving DecidableEq, Repr

/-- An outstanding request to an accelerator (R365). -/
structure AOp where
  tag : BitVec 16
  kind : AKind
  addr : DWord
  len : Nat
  off : Nat
  /-- Bytes received so far, and the data they make up. -/
  got : Nat
  data : List Byte
  ticket : Ticket
  deriving DecidableEq, Repr

/-- A message to an accelerator (R364, R365). -/
structure AMsg where
  akind : BitVec 8
  tag : BitVec 16
  status : BitVec 8
  reason : BitVec 8
  addr : DWord
  arg0 : DWord
  arg1 : DWord
  arg2 : Word
  payload : List Byte
  deriving DecidableEq, Repr

/-- An accelerator (R362, R366): the ports of its group, its links, its path context and its outstanding requests. -/
structure Accel where
  maxrd : Nat := 0
  /-- The up attach ports with the LINK that each reports. -/
  links : List (Nat × Nat) := []
  nextPsn : Word := 0
  nextTag : BitVec 16 := 0
  ops : List AOp := []
  /-- ARD requests that wait for MAXRD. -/
  waiting : List (AOp × AMsg) := []
  /-- Unacknowledged messages: PSN, transmissions, message; and messages that wait for the window (R366). -/
  retained : List (Word × Nat × AMsg) := []
  queued : List AMsg := []
  /-- The base and the delivered PSNs of the other direction (R241, R366). -/
  rbase : Word := 0
  rx : List Word := []
  deriving DecidableEq, Repr

/-! ## Communicators (R149, R305, R306) -/

/-- The state of a rank in a rank map (R306). -/
inductive RankState where
  | ready | claimed | abandoned
  deriving DecidableEq, Repr

/-- A rank of a map: its node, claim generation and parity place (R305). -/
structure Rank where
  node : Nat
  cgen : BitVec 16
  pgroup : Nat
  pmember : Nat
  deriving DecidableEq, Repr

/-- CGEN gives the state (R306). -/
def Rank.state (r : Rank) : RankState :=
  if r.cgen == 0xFFFF then .abandoned else if r.cgen.getLsbD 0 then .claimed else .ready

/-- A rank map that a COMM replace has put out of use: the last CSEQ that started under it, its ranks and its digest (R85, R178). -/
structure OldMap where
  last : Word
  ranks : List Rank
  digest : DWord
  deriving DecidableEq, Repr

/-- A communicator created at this node: its creator and tag, its map with the claims applied, and the last CSEQ admitted (R72, R149, R150, R305). -/
structure Comm where
  creator : Nat
  tag : BitVec 16
  ranks : List Rank
  spares : List Nat
  job : Nat
  jmode : Bool
  ckptEvery : Nat
  ckptStride : Nat
  seq : Word := 0
  /-- The next instruction may carry any CSEQ that follows (R324). -/
  anySeq : Bool := false
  /-- The first 8 B of the map's digest, and whether the next collective compares it (R85). -/
  digest : DWord := 0
  fresh : Bool := false
  /-- The maps that collectives started before a replace still use, oldest first (R178). -/
  olds : List OldMap := []
  deriving DecidableEq, Repr

/-! ## Collectives (R149 to R178) -/

/-- A receiver of a chunk transfer: its rank and node, transmissions so far, and whether the transfer is held: the rank is lost, or its node
has answered that it is not ready (R121, R150). -/
structure Peer where
  rank : Nat
  node : Nat
  tries : Nat
  held : Bool
  /-- The PSN from which on the packets of its last re-send stand (R178). -/
  mark : Word := 0
  deriving DecidableEq, Repr

/-- A chunk transfer kept at its sender until its receivers acknowledge it (R165, R174). -/
structure Xfer where
  comm : Nat
  cseq : Word
  kind : CollKind
  op : BitVec 8
  chunk : Nat
  srank : Nat
  bytes : List Byte
  exc : Bool
  pdig : Word
  peers : List Peer
  /-- The CRC-64 it was built with (R174), and the nodes that a loss of it is told: the neighbours in its tree, or the other end of its pair (R176). -/
  crc : BitVec 64 := 0
  kin : List Nat := []
  deriving DecidableEq, Repr

/-- A retention ticket: cells of RETC reserved for a chunk at an interior position, whether it is the communicator's reserved one, and whether the
parent's and the children's acknowledgements are still to come (R283). -/
structure RTicket where
  comm : Nat
  cseq : Word
  chunk : Nat
  cells : Nat
  reserved : Bool
  up : Bool
  down : Bool
  deriving DecidableEq, Repr

/-- A chunk transfer that has come in, whole or in part: its packets in the store, and whether it is whole and verified (R164, R166, R174). -/
structure Arrival where
  comm : Nat
  cseq : Word
  kind : CollKind
  op : BitVec 8
  chunk : Nat
  srank : Nat
  pkts : List InPkt
  ok : Bool
  deriving DecidableEq, Repr

/-- A reduction slot that is not FREE (R160): its chunk, whether it is the communicator's reserved slot, the accumulator, and the contribution bitmap,
with one bit for each input in the order of R156, or of R169 for COMB. -/
structure RSlot where
  comm : Nat
  cseq : Word
  chunk : Nat
  reserved : Bool
  acc : List DWord
  bits : Nat
  exc : Bool
  /-- SNAP: the parity unit has been given to the store, and its write is not known to be placed yet (R316 step 3). -/
  written : Bool := false
  deriving DecidableEq, Repr

/-- Inputs combined so far: they are combined in order, so that the bits set are the lowest. -/
def RSlot.got (y : RSlot) : Nat := Nat.log2 (y.bits + 1)

/-- The bitmap with the next input's bit set. -/
def RSlot.mark (y : RSlot) : Nat := y.bits ||| 2 ^ y.got

/-- A grant entry (R168, R170): expert, k, kept, base. -/
structure GrantE where
  expert : Nat
  k : Nat
  a : Nat
  base : Nat
  deriving DecidableEq, Repr

/-- A collective or SNAP that has started at this rank and has not completed (R152, R154). -/
structure Coll where
  rid : Nat
  comm : Nat
  cseq : Word
  op : BitVec 8
  ins : Fetched
  rank : Nat
  /-- The nodes of the ranks in the map it started under (R178). -/
  nodes : List Nat
  /-- The digest of its map, and whether this collective compares it (R85). -/
  map : DWord
  mapCmp : Bool
  /-- Its PDIG (R73). -/
  pdig : Word
  /-- Parts of the source that are being read, by what they are read for, each with its buffers; and the tree chunks whose contribution has been
  built (R154). -/
  win : List (Nat × List Nat) := []
  built : Nat := 0
  /-- Data of A2AV and DISP that are still to be sent: destination chunk and owner. -/
  todo : List (Nat × Nat) := []
  /-- Assignment array (expert, gate), expert map, and send counts. -/
  assign : List (Nat × Word)
  emap : List Nat
  sendCounts : List Nat
  /-- Chunks of the send order that have left, slot requests granted, partials and COMB rows that wait for their turn. -/
  sent : Nat
  granted : Nat
  partials : List (Nat × List Byte × Bool)
  /-- Count messages in, by source; grant messages in, by owner; whether this rank has sent its own. -/
  counts : List (Nat × List Nat)
  grants : List (Nat × List GrantE)
  granting : Bool
  grantsIn : Bool
  /-- Inputs placed in destination chunks (chunk, source), writes not placed, and finished chunks. -/
  recv : List (Nat × Nat)
  wr : List (Nat × Nat)
  done : List Nat
  /-- Destination chunks with ARITH, and (chunk, kind) of exceptions counted (R192). -/
  arith : List Nat
  excs : List (Nat × Nat)
  /-- SNAP: parity blocks written, ranks that voted PREPARED, and whether this position has (R316). -/
  parity : List Nat
  votes : List Nat
  prepared : Bool
  /-- Destination bytes that wait until every member's digest agrees (R73): chunk, element offset, bytes; and the destination bytes written. -/
  hold : List (Nat × Nat × List Byte)
  wrote : Nat
  /-- RUG: the program in its slot when it started (R84). -/
  prog : List Byte
  /-- The operands that its local key check has passed (R132). -/
  opnds : List Opnd := []
  /-- Elements or pairs that were dropped, once every grant is in (R75, R76). -/
  drops : Nat := 0
  deriving DecidableEq, Repr

/-- An access that passed its key check here and has not finished with the memory: its message, its PSN and the INDEX (R132, R145). -/
structure Admit where
  src : Nat
  iqueue : Nat
  psn : Nat
  idx : Nat
  write : Bool
  deriving DecidableEq, Repr

/-! ## Journals, jobs and claims (R309 to R328) -/

/-- STATE of a journal header (R318). -/
inductive JState where
  | idle | active | prepared | restoring
  deriving DecidableEq, Repr

/-- The journal of a commit communicator at this member (R313, R318, R319). The header, bitmap and undo copies also stand in pooled memory. -/
structure Journal where
  comm : Nat
  st : JState
  parityValid : Bool
  cstep : DWord
  ccseq : Word
  pstep : DWord
  jmode : Bool
  /-- A step has been committed (R319). -/
  committed : Bool
  /-- SHARD, the number n of protected units and n_p of parity units: the units 0 to n + n_p - 1 lie at SHARD + u × 65,536. -/
  base : Nat
  n : Nat
  np : Nat
  /-- Units saved since the last commit. -/
  saved : List Nat
  deriving DecidableEq, Repr

/-- A pooled-memory write that waits for unit saves (R319). -/
structure UnitWait where
  off : Nat
  data : List Byte
  ticket : Ticket
  deriving DecidableEq, Repr

/-- A read of pooled memory that waits for a lost line to be rebuilt (R291): its range, its place in the ticket's data, and the ticket. -/
structure PoolWait where
  off : Nat
  len : Nat
  boff : Nat
  ticket : Ticket
  deriving DecidableEq, Repr

/-- Where a frog stands (R322). -/
inductive FrogPhase where
  | claims | noCommit | vote | restore
  deriving DecidableEq, Repr

/-- A frog in progress: its number, its place, the votes in by rank (CSTEP, CCSEQ), whether this position has voted, and the target. -/
structure Frog where
  number : Nat
  phase : FrogPhase
  votes : List (Nat × DWord × Word)
  voted : Bool
  target : Option (DWord × Word)
  deriving DecidableEq, Repr

/-- A job at this node (R317, R320 to R325): its commit communicator, frogs completed, the frog in progress, a further frog that waits for a
restore to end, and whether the claims it waits for have settled. -/
structure Job where
  commit : Option Nat := none
  frogs : Nat := 0
  frog : Option Frog := none
  again : Bool := false
  settled : Bool := false
  /-- The highest frog number heard of while this node had no part in the job (R325). -/
  heard : Nat := 0
  deriving DecidableEq, Repr

/-- Where a claim of this node stands (R310). -/
inductive ClaimPhase where
  | sent | settled | darning | halted
  deriving DecidableEq, Repr

/-- A claim that this node, a spare, holds (R310, R326): its generation, the commit area it fills (first byte, units and parity units), the target
of the vote, and the darning reads still open, as unit and pieces to come. -/
structure Claim where
  job : Nat
  comm : Nat
  rank : Nat
  cgen : BitVec 16
  phase : ClaimPhase
  base : Nat := 0
  n : Nat := 0
  np : Nat := 0
  target : DWord × Word := (0, 0)
  todo : List (Nat × Nat) := []
  deriving DecidableEq, Repr

/-- A darning read in service (R326): the request, the pieces of the other members' units so far (member, offset, bytes), and those still to come. -/
structure DarnRead where
  pkt : Packet
  units : List (Nat × Nat × List Byte)
  missing : List (Nat × Nat)
  deriving DecidableEq, Repr

/-- A RESTORE in progress (R343): its function, object and version, the requests not yet answered, the first failed status, its target, and whether the
placement of its writes has been asked for. -/
structure Restore where
  f : Nat
  obj : Nat
  prev : Bool
  left : Nat
  fail : Option (BitVec 8)
  node : Nat
  asked : Bool := false
  deriving DecidableEq, Repr

/-! ## The checkpoint tier (R333 to R339) -/

/-- A version of an object. -/
structure TVer where
  step : DWord
  data : List Byte
  deriving DecidableEq, Repr

/-- An object: the function charged, its current and earlier version, and the versions being written, oldest first, with their runs. -/
structure TObj where
  obj : Nat
  owner : Nat
  cur : Option TVer
  prev : Option TVer
  writing : List (Nat × TVer)
  deriving DecidableEq, Repr

/-! ## Functions -/

/-- What a function has beside its register page (R344, R360, R358, R381, R384, R426). -/
structure Func where
  vfEnabled : Bool := false
  busMaster : Bool := false
  ats : Bool := false
  pri : Bool := false
  /-- Page requests stopped by a Response Failure (R355). -/
  priStopped : Bool := false
  fseq : Word := 0
  irqSent : Bool := false
  tokens : Nat := 0
  snum : Word := 0
  /-- The descriptor of a REGISTER that waits for POOL_READY, as it was read when GO was written (R125). -/
  keyReg : Option (BitVec 256) := none
  /-- Records raised and not yet written, oldest first, each with its class; the oldest is being written (R385, R426). -/
  faultRecs : List (Nat × List Byte) := []
  sampleRecs : List (Nat × List Byte) := []
  dlogFilter : List Nat := []
  deriving DecidableEq, Repr

/-! ## Security, management and power (R399 to R406, R447 to R469) -/

/-- A firmware image in boot flash: the slot, the component and its bytes (R399, R400). -/
structure Image where
  slotB : Bool
  comp : Nat
  bytes : List Byte
  deriving DecidableEq, Repr

/-- Fuses, boot flash and boot state (R399 to R405): blown SVN fuses, ROOT_REVOKE, DEBUG_LOCK; the images written since manufacture and the slot that
the boot-select record names; BOOTS; the attestation seed and certificate of this boot, and whether the ROM has locked UDS. -/
structure Sec where
  svn : Nat
  revoke : BitVec 4
  debugLock : Bool
  flash : List Image
  bootB : Bool
  boots : Nat
  attSeed : List Byte
  attCert : List Byte
  udsLocked : Bool
  deriving DecidableEq, Repr

/-- The management port beside its registers (R448 to R451): the key and the last CTR accepted, the security buffer and the ranges of it that an ATTEST
or CERTS wrote last, the frames that wait for an opportunity, and the frame on the segment with its attempts under CSMA/CD. -/
structure Mgt where
  key : Option (List Byte)
  ctr : Nat
  buf : Tab Byte
  open_ : List (Nat × Nat)
  tx : List (List Byte)
  wire : Option (List Byte × Nat)
  /-- MGT_PLCA_CTL as the cycle in progress took it (R448). -/
  plca : Word := 0
  deriving DecidableEq, Repr

/-- The power states (R457). -/
inductive PowerState where
  | off | standby | active
  deriving DecidableEq, Repr

/-- The power controller (R456 to R460, R469): the state, PRSNT_N made, regulators about to be switched off and kept off after a shutdown limit, the strap
pins (HOST_DIS_N, RECOVERY_N, PLCA_ID from bit 9 down), tier writes paused for NAND temperature, and the TAP controller's state (0 is
Test-Logic-Reset). -/
structure Pwr where
  state : PowerState
  present : Bool
  offDue : Bool
  latched : Bool
  straps : BitVec 10
  nandPaused : Bool
  tap : Nat
  deriving DecidableEq, Repr

/-- The readable values that a freeze holds: the event counters, and the histograms of the queues (R419). -/
structure Frozen where
  ev : Tab DWord
  hist : List (Nat × Tab DWord)
  deriving DecidableEq, Repr

end Sys2Proof.Machine
end

