-- ==== Sys2Proof/Machine/State.lean ====
section
/-! DEFINITION. The state of the node as plain data, the reasons a step can stop, and the machine right after reset. -/

namespace Sys2Proof.Machine

/-- What the node puts on its ports, links and pins, in order: the model's own record of its outputs. -/
inductive Out where
  /-- A packet sent on fabric port p (R231). -/
  | packet (p : Nat) (pkt : Packet)
  /-- A control symbol of 16 B on port p (R255, R256). -/
  | symbol (p : Nat) (bytes : List Byte)
  /-- A host-memory read request (R348). -/
  | hostRead (tag : Nat) (f : Nat) (pasid : BitVec 20) (translated : Bool) (addr : DWord) (len : Nat)
  /-- A posted host-memory write (R348). -/
  | hostWrite (f : Nat) (pasid : BitVec 20) (translated : Bool) (addr : DWord) (bytes : List Byte)
  /-- An MSI-X message (R46, R426). -/
  | msix (f : Nat) (vector : Nat)
  /-- An ATS Translation Request (R354), a Page Request (R355), an Invalidation Completion (R356). -/
  | xlateReq (f : Nat) (pasid : BitVec 20) (page : DWord) (pages : Nat)
  | pageReq (f : Nat) (pasid : BitVec 20) (page : DWord) (write : Bool)
  | invalDone (f : Nat) (itag : BitVec 5)
  /-- A BISnpInv for a window line, and window data with its poison mark (R350, R351). -/
  | biSnp (line : Nat)
  | windowData (line : Nat) (bytes : List Byte) (poison : Bool)
  /-- A message to accelerator a on its path context with PSN and LUP, by port p, and a delivery acknowledgement to it (R366). -/
  | attach (a : Nat) (p : Nat) (psn lup : Word) (m : AMsg)
  | attachAck (a : Nat) (psn : Word)
  /-- A background copy of rank r's protected units to the tier of its buddy node, for a step (R336). -/
  | ckptCopy (node : Nat) (obj : DWord) (step : DWord) (bytes : List Byte)
  /-- A frame sent on the management port: its payload (R450); a PLCA beacon for a number of opportunities (R448). -/
  | mgmt (bytes : List Byte)
  | beacon (opportunities : Nat)
  /-- An H2D snoop answered RspIHitI (R345). -/
  | rspIHitI (addr : DWord)
  deriving DecidableEq, Repr

/-- The state of the node. -/
structure State where
  /-- Commands that wait, first in first out. -/
  pending : List Instr
  /-- What left the node, oldest first. -/
  out : List Out
  /-- Free values drawn so far (log entry 2). -/
  freeIdx : Nat
  /-- GLOBAL_TIME in ns (R410). -/
  time : Nat
  /-- The BAR0 registers by address, and the staged values of RWS fields (R408, R412). -/
  regs : Tab Word
  staged : Tab (Option Word)
  /-- The 64-bit event counters by BAR0 address (R416, R422). -/
  ev : Tab DWord
  /-- The 32,768 row counters: COUNT in bits 62 to 0, ERR in bit 63 (R107). -/
  rowCtr : Tab DWord
  /-- Pooled memory (R287). -/
  pool : Tab Byte
  funcs : Tab Func
  queues : Tab Queue
  runs : List Run
  nextRid : Nat
  /-- Stamps for the order of waiting queues (R112). -/
  stamp : Nat
  /-- In-flight transactions (R111). -/
  txns : List Txn
  /-- Per sequencer: functions in turn, and per function its queues in turn (R379); deficits of functions. -/
  fring : Tab (List Nat)
  qring : Tab (List Nat)
  fdef : Tab Nat
  keys : Tab KeyEnt
  /-- Freed indices in the order they were freed; indices never used follow in ascending order (R123). -/
  freedKeys : List Nat
  paths : Tab Path
  /-- Packets that wait for a route, packets held until a row table changes, and packets delivered here (R19, R231, R236). -/
  routeQ : List InPkt
  heldEsc : List InPkt
  localIn : List InPkt
  ports : Tab Port
  /-- Messages that wait for a credit of an attach port: accelerator, port, PSN, message. -/
  attWait : List (Nat × Nat × Word × AMsg)
  /-- Links known to be down in this node's rows: dimension and the two coordinates, lower first (R234). -/
  downLinks : List (Nat × Nat × Nat)
  /-- The last FSEQ sent, by KIND, and the last seen, by KIND × 2^20 + SRC (R274). -/
  fseqOut : Tab Word
  fseqSeen : Tab Word
  /-- The generator of Valiant draws (R233). -/
  lfsr : Word
  /-- Messages that have raised a fault: source, initiator queue, INSTID (R135). -/
  faulted : List (Nat × Nat × Nat)
  /-- Accesses accepted here and not finished (R132, R145). -/
  admitted : List Admit
  /-- Accepted requests that wait for an accelerator's answer (R139). -/
  inService : List Packet
  /-- Accepted atomics that wait for a snoop or a unit save (R319, R350). -/
  deferred : List Packet
  /-- The context cache: connection halves by peer and queue, and registrations by INDEX, most recent first (R146). -/
  ctxHalves : List (Nat × Nat)
  ctxKeys : List Nat
  comms : Tab (Option Comm)
  /-- Nodes that the dead-node notice has declared lost (R302). -/
  lost : List Nat
  /-- Placement requests that wait here: the request and the writes it waits for (R143). -/
  placeReqs : List (Packet × List Nat)
  /-- Request packets parked for a context fetch (R146). -/
  parkedReqs : List Packet
  xlates : List Xlate
  parks : List Park
  hreads : List HRead
  nextTag : Nat
  /-- Invalidations that wait for reads: function, ITag, read tags (R356). -/
  invals : List (Nat × BitVec 5 × List Nat)
  /-- Marked window lines and what waits for their snoops (R350). -/
  winDir : List Nat
  winWaits : List WinWait
  /-- Lines of the store window written or read since it was enabled (R294). -/
  winStore : List (Nat × List Byte)
  /-- Lines of the store window whose cells have failed and that read as poison (R280). -/
  winPoison : List Nat
  accels : Tab Accel
  /-- LRD and LATOM messages that wait for a lost line, a snoop or a unit save: accelerator and message (R291, R319, R350). -/
  latoms : List (Nat × Instr)
  /-- Pool writes that wait for a unit's save (R319), and the journals. -/
  unitWaits : List UnitWait
  journals : List Journal
  /-- Lines of pooled memory that are lost and wait to be rebuilt from parity, by their offset, and the reads that wait for them (R291). -/
  lostLines : List Nat
  poolWaits : List PoolWait
  /-- The cells of the central store (R277, R278). -/
  store : Store
  /-- Collectives in progress, reduction slots, transfers kept and transfers in the store (R149 to R178). -/
  colls : List Coll
  slots : Tab (Option RSlot)
  xfers : List Xfer
  arrivals : List Arrival
  /-- COLLECTIVE_FOREIGN raised, by handle and CSEQ (R150); chunk losses noted, by handle, CSEQ and chunk (R176). -/
  foreign : List (Nat × Nat)
  losses : List (Nat × Nat × Nat)
  /-- Digests that other members have told for collectives that are not over here: handle, CSEQ, PDIG (R73). -/
  digests : List (Nat × Word × Word)
  /-- Digests of rank maps told by other members (R85), by handle, CSEQ and rank. -/
  mapDigs : List (Nat × Word × Nat × DWord)
  /-- The retention tickets (R283). -/
  rticks : List RTicket
  /-- The 64 program slots: their images, empty where none is loaded (R195). -/
  progs : Tab (List Byte)
  jobs : Tab Job
  claims : List Claim
  /-- Claims of others that wait in this node's view are in the maps; frog requests forwarded, by job and number (R321). -/
  frogSeen : List (Nat × Nat)
  /-- Functions whose registrations of the rank record are to be re-created after a reset (R323). -/
  rekey : List Nat
  /-- Darning reads that wait for a frog or for units, and units that have come in: lost rank's communicator and rank, offset, bytes (R326). -/
  darnWait : List Packet
  darnReads : List DarnRead
  darnIn : List (ReqF × Nat × Nat × List Byte)
  /-- Objects of the checkpoint tier (R334). -/
  tier : List TObj
  restores : List Restore
  /-- The governor's RATE in B/s and CREDIT in bytes, and the time of the first cast-on (R337). -/
  govRate : Nat
  govCredit : Nat
  firstCastOn : Option Nat
  /-- TAG key slots, and what the monitors still wait for (R386 to R394). -/
  kslots : Tab KSlot
  mons : List MonItem
  /-- KEYSLOT_CMD commands that wait for TAGs: function, OP, and the runs that they wait for (R395). -/
  keyCmds : List (Nat × Nat × List Nat)
  /-- Slots that a COMMIT took from a grant: whether a key slot, its global number, and the runs that started with it (R376). -/
  slotWaits : List (Bool × Nat × List Nat)
  /-- MR0 to MR7 (R403). -/
  mrs : Tab (List Byte)
  sec : Sec
  mgt : Mgt
  pwr : Pwr
  /-- The counter freeze, and the holding copies of the functions' snapshots by counter address (R418, R419). -/
  frozen : Option Frozen
  snaps : Tab (Tab DWord)
  /-- Window accesses held until POOL_READY (R443). -/
  winHeld : List Instr
  /-- Media bytes written since manufacture, and nanoseconds before the last cold reset (R337). -/
  mediaTotal : Nat
  epoch : Nat
  deriving DecidableEq, Repr

/-- Why the model stops. No meaning of this model stops: every row of the table has an effect (NOTES.md, Stops). -/
inductive Fault where
  /-- Raised by nothing; safe. -/
  | none
  deriving DecidableEq, Repr

/-- Why a command is refused. -/
inductive Refusal where
  /-- A command without a meaning yet, by its mnemonic; raised by Dispatch alone; safe. -/
  | notModelled (mnemonic : String)
  deriving DecidableEq, Repr

/-- The node right after the release of reset, before R443 step 2: every table empty, every register at its reset value. -/
def State.reset : State where
  pending := []
  out := []
  freeIdx := 0
  time := 0
  regs := []
  staged := []
  ev := []
  rowCtr := []
  pool := []
  funcs := []
  queues := []
  runs := []
  nextRid := 0
  stamp := 0
  txns := []
  fring := []
  qring := []
  fdef := []
  keys := []
  freedKeys := []
  paths := []
  routeQ := []
  heldEsc := []
  localIn := []
  ports := []
  attWait := []
  downLinks := []
  fseqOut := []
  fseqSeen := []
  lfsr := 0
  faulted := []
  admitted := []
  inService := []
  deferred := []
  ctxHalves := []
  ctxKeys := []
  comms := []
  lost := []
  placeReqs := []
  parkedReqs := []
  xlates := []
  parks := []
  hreads := []
  nextTag := 0
  invals := []
  winDir := []
  winWaits := []
  winStore := []
  winPoison := []
  accels := []
  latoms := []
  unitWaits := []
  journals := []
  lostLines := []
  poolWaits := []
  store := {}
  colls := []
  slots := []
  xfers := []
  arrivals := []
  foreign := []
  losses := []
  digests := []
  mapDigs := []
  rticks := []
  progs := []
  jobs := []
  claims := []
  frogSeen := []
  rekey := []
  darnWait := []
  darnReads := []
  darnIn := []
  tier := []
  restores := []
  govRate := 0
  govCredit := 0
  firstCastOn := none
  kslots := []
  mons := []
  keyCmds := []
  slotWaits := []
  mrs := []
  sec := {
    svn := 0, revoke := 0, debugLock := false, flash := [], bootB := false, boots := 0, attSeed := [], attCert := [], udsLocked := false }
  mgt := { key := none, ctr := 0, buf := [], open_ := [], tx := [], wire := none, plca := regReset 0x408 }
  pwr := { state := .active, present := true, offDue := false, latched := false, straps := 0x3FF, nandPaused := false, tap := 0 }
  frozen := none
  snaps := []
  winHeld := []
  mediaTotal := 0
  epoch := 0

end Sys2Proof.Machine
end

