-- ==== Sys2Proof/Machine/Ops.lean ====
section
/-! DEFINITION. The named operations over registers, counters, pooled memory, queues and the node's outputs, and the raising of faults. -/

namespace Sys2Proof.Machine

/-! ## Registers (R5, R408 to R411) -/

/-- Bits lo to lo + w - 1 of a word, set to v. -/
def insertBits (x : Word) (lo w v : Nat) : Word :=
  (x &&& ~~~ bitMask lo w) ||| BitVec.ofNat 32 (v % 2 ^ w * 2 ^ lo)

/-- Bits lo to lo + w - 1 of a word. -/
def extractBits (x : Word) (lo w : Nat) : Nat := x.toNat / 2 ^ lo % 2 ^ w

def State.reg (s : State) (a : Nat) : Word := Tab.get regReset s.regs a
def State.setReg (s : State) (a : Nat) (v : Word) : State := { s with regs := Tab.put regReset s.regs a v }

/-- The field of width w at bit lo of the register at address a. -/
def State.fld (s : State) (a lo w : Nat) : Nat := extractBits (s.reg a) lo w
def State.setFld (s : State) (a lo w v : Nat) : State := s.setReg a (insertBits (s.reg a) lo w v)
def State.bit (s : State) (a lo : Nat) : Bool := s.fld a lo 1 == 1

/-- A 64-bit register as its two words. -/
def State.reg64 (s : State) (a : Nat) : DWord := (s.reg (a + 4)) ++ (s.reg a)
def State.setReg64 (s : State) (a : Nat) (v : DWord) : State :=
  (s.setReg a (v.extractLsb' 0 32)).setReg (a + 4) (v.extractLsb' 32 32)

/-- The address of offset off in the page of function f (R408). -/
def page (f off : Nat) : Nat := 0x400000 + 0x4000 * f + off

/-- SEQ of the status register at a advances at an event (R411). -/
def State.bumpSeq (s : State) (a : Nat) : State := s.setFld a 0 8 (s.fld a 0 8 + 1)

/-- A command's RESULT is set and its SEQ advances (R94, R125 and their like). -/
def State.setResult (s : State) (a v : Nat) : State := (s.setFld a 8 4 v).bumpSeq a

/-! ## Counters (R416) -/

def State.counter (s : State) (a : Nat) : DWord := Tab.get (fun _ => 0) s.ev a
/-- Adds n to the 64-bit event counter at address a, modulo 2^64. -/
def State.count (s : State) (a : Nat) (n : Nat := 1) : State :=
  { s with ev := Tab.put (fun _ => 0) s.ev a (s.counter a + BitVec.ofNat 64 n) }

/-- Bucket of a duration in ns (R421). -/
def histBucket (v : Nat) : Nat := if v < 2 then 0 else min 31 (Nat.log2 v)

/-! ## Tables of State -/

def State.func (s : State) (f : Nat) : Func := Tab.get (fun _ => {}) s.funcs f
def State.setFunc (s : State) (f : Nat) (x : Func) : State := { s with funcs := Tab.put (fun _ => {}) s.funcs f x }
def State.queue (s : State) (g : Nat) : Queue := Tab.get (fun _ => {}) s.queues g
def State.setQueue (s : State) (g : Nat) (q : Queue) : State := { s with queues := Tab.put (fun _ => {}) s.queues g q }
def State.modQueue (s : State) (g : Nat) (h : Queue → Queue) : State := s.setQueue g (h (s.queue g))
def State.key (s : State) (i : Nat) : KeyEnt := Tab.get (fun _ => {}) s.keys i
def State.setKey (s : State) (i : Nat) (k : KeyEnt) : State := { s with keys := Tab.put (fun _ => {}) s.keys i k }
def State.path (s : State) (n : Nat) : Path := Tab.get (fun _ => {}) s.paths n
def State.setPath (s : State) (n : Nat) (p : Path) : State := { s with paths := Tab.put (fun _ => {}) s.paths n p }
def State.modPath (s : State) (n : Nat) (h : Path → Path) : State := s.setPath n (h (s.path n))
def State.accel (s : State) (a : Nat) : Accel := Tab.get (fun _ => {}) s.accels a
def State.setAccel (s : State) (a : Nat) (x : Accel) : State := { s with accels := Tab.put (fun _ => {}) s.accels a x }

/-- Adds an output. -/
def State.emit (s : State) (o : Out) : State := { s with out := s.out ++ [o] }

/-- A run by its number, and its replacement. -/
def State.run? (s : State) (rid : Nat) : Option Run := s.runs.find? (·.rid == rid)
def State.setRun (s : State) (r : Run) : State := { s with runs := s.runs.map (fun x => if x.rid == r.rid then r else x) }

/-! ## Grants (R373, R374) -/

/-- Field of FUNC_GRANT_f. -/
def State.grant (s : State) (f off lo w : Nat) : Nat := s.fld (0x1B0000 + 0x40 * f + off) lo w
def State.qbase (s : State) (f : Nat) : Nat := s.grant f 0 0 14
def State.qcount (s : State) (f : Nat) : Nat := s.grant f 0 16 15
def State.cbase (s : State) (f : Nat) : Nat := s.grant f 4 0 15
def State.ccount (s : State) (f : Nat) : Nat := s.grant f 4 16 16
def State.poolBase (s : State) (f : Nat) : Nat := s.grant f 8 0 12 * 2 ^ 28
def State.poolLen (s : State) (f : Nat) : Nat := s.grant f 8 16 12 * 2 ^ 28
def State.ttagOf (s : State) (f : Nat) : BitVec 16 := BitVec.ofNat 16 (s.grant f 0x2C 0 16)

/-- Global number of queue q, or counter c, of function f, within its grant (R91, R107, R374). -/
def State.globalQ (s : State) (f q : Nat) : Option Nat := if q < s.qcount f then some (s.qbase f + q) else none
def State.globalC (s : State) (f c : Nat) : Option Nat := if c < s.ccount f then some (s.cbase f + c) else none

/-- The function whose grant holds global queue g: the lowest number among them. -/
def State.ownerOf (s : State) (g : Nat) : Nat :=
  ((List.range 256).find? (fun f => decide (s.qbase f ≤ g) && decide (g < s.qbase f + s.qcount f))).getD 0
/-- The number of global queue g as its function sees it. -/
def State.relQ (s : State) (g : Nat) : Nat := g - s.qbase (s.ownerOf g)

/-- Function f is enabled: the physical function, or an enabled virtual function (R373, R430). -/
def State.enabled (s : State) (f : Nat) : Bool := f == 0 || (s.func f).vfEnabled
/-- The function is being reset (R441). -/
def State.resetting (s : State) (f : Nat) : Bool := s.bit (page f 0x1A00) 8
/-- The node has bound off (R300, FAIL_NODE_STATUS.BOUND_OFF). -/
def State.boundOff (s : State) : Bool := s.bit 0x170004 16
/-- The host link is up (R371 RATE). -/
def State.hostUp (s : State) : Bool := s.fld 0x190000 8 3 != 0
/-- Host memory of function f can be reached: the link is up and Bus Master Enable is set (R360). -/
def State.hostReach (s : State) (f : Nat) : Bool := s.hostUp && (s.func f).busMaster
/-- Reads and writes of the function use translated addresses (R345, R348). -/
def State.usesAts (s : State) (f : Nat) : Bool := (s.func f).ats && s.bit 0x190000 16
/-- Accelerator a is present (R362), and its owner (R363). -/
def State.accPresent (s : State) (a : Nat) : Bool := s.bit (0x1A0000 + 0x10 * a) 8
def State.accOwner (s : State) (a : Nat) : Nat := s.fld (0x1A0000 + 0x10 * a) 0 8
/-- This node's id (R225), and the number of the dimensions in use. -/
def State.self (s : State) : Nat := s.fld 0x110004 0 20

/-! ## Row counters (R107, R108) -/

def State.rowc (s : State) (c : Nat) : DWord := Tab.get (fun _ => 0) s.rowCtr c
def State.setRowc (s : State) (c : Nat) (v : DWord) : State := { s with rowCtr := Tab.put (fun _ => 0) s.rowCtr c v }
/-- COUNT := (COUNT + n) mod 2^63, ERR kept. -/
def rowAdd (v n : DWord) : DWord := (v &&& (1#64 <<< 63)) ||| ((v + n) &&& ~~~ (1#64 <<< 63))
/-- Sets or clears the ERR mark (R109). -/
def rowMark (v : DWord) (setErr clrErr : Bool) : DWord :=
  if setErr then v ||| (1#64 <<< 63) else if clrErr then v &&& ~~~ (1#64 <<< 63) else v
/-- COUNT and ERR of a counter word. -/
def rowCount (v : DWord) : Nat := v.toNat % 2 ^ 63
def rowErr (v : DWord) : Bool := v.getLsbD 63

/-! ## Pooled memory (R138, R287) -/

/-- One byte of pooled memory. -/
def State.pbyte (s : State) (o : Nat) : Byte := Tab.get (fun _ => 0) s.pool o
/-- Reads n bytes at offset o. -/
def State.pread (s : State) (o n : Nat) : List Byte := Tab.getAll (fun _ => 0) s.pool o n
/-- Writes bytes at offset o. -/
def State.pwrite (s : State) (o : Nat) (bs : List Byte) : State := { s with pool := Tab.putAll (fun _ => 0) s.pool o bs }

/-! ## Bytes and numbers (R3: little-endian) -/

/-- n bytes of a number, least significant first. -/
def leBytes : Nat → Nat → List Byte
  | 0, _ => []
  | n + 1, v => BitVec.ofNat 8 v :: leBytes n (v / 256)
/-- The number that bytes spell, least significant first. -/
def leNat : List Byte → Nat
  | [] => 0
  | b :: bs => b.toNat + 256 * leNat bs
/-- Field of w bits at bit position lo of an entry. -/
def entBits (e : Entry) (lo w : Nat) : Nat := e.toNat / 2 ^ lo % 2 ^ w
/-- The lap value of count p on a ring of sz positions (R98). -/
def lap (p : Word) (sz : Nat) : Bool := p.toNat / sz % 2 == 0

/-! ## Free values (log entry 2) -/

/-- Draws n free bytes. -/
def State.drawBytes (s : State) (n : Nat) : List Byte × State :=
  ((List.range n).map (fun i => Config.freeByte (s.freeIdx + i)), { s with freeIdx := s.freeIdx + n })

/-! ## Port engines: status, credits and control symbols (R255 to R258) -/

def State.port (s : State) (p : Nat) : Port := Tab.get (fun _ => {}) s.ports p
def State.setPort (s : State) (p : Nat) (x : Port) : State := { s with ports := Tab.put (fun _ => {}) s.ports p x }
def State.modPort (s : State) (p : Nat) (h : Port → Port) : State := s.setPort p (h (s.port p))

/-- Address of a register of PORT_LINK of port p (R275), and of a port counter (R276). -/
def plink (p off : Nat) : Nat := 0x140000 + 0x40 * p + off
def pctr (p off : Nat) : Nat := 0x210000 + 0x100 * p + off

/-- STATE of a port, and its values (R264). -/
def State.pstate (s : State) (p : Nat) : Nat := s.fld (plink p 8) 8 3
def psDown : Nat := 0
def psDetect : Nat := 1
def psEqualise : Nat := 2
def psLock : Nat := 3
def psIdent : Nat := 4
def psSwatch : Nat := 5
def psUp : Nat := 6
def psHeld : Nat := 7

/-- A state change of a port: SEQ advances, and transitions to DOWN and to HELD are counted (R275, R276). -/
def State.setPstate (s : State) (p st : Nat) : State :=
  let s := if s.pstate p ≠ st ∧ (st = psDown ∨ st = psHeld) then s.count (pctr p 0x50) else s
  (s.setFld (plink p 8) 8 3 st).bumpSeq (plink p 8)

/-- The port carries traffic; it is up also while a fast retrain pauses it (R265). -/
def State.portRuns (s : State) (p : Nat) : Bool := s.pstate p == psUp
def State.portUp (s : State) (p : Nat) : Bool := s.pstate p == psUp || (s.port p).fast.isSome

def pairKey (cls : BitVec 3) (vc : BitVec 2) : Nat := 4 * cls.toNat + vc.toNat
def Port.pair (x : Port) (k : Nat) : Pair := Tab.get (fun _ => {}) x.pairs k
def Port.setPair (x : Port) (k : Nat) (c : Pair) : Port := { x with pairs := Tab.put (fun _ => {}) x.pairs k c }
/-- The eighteen pairs of a port (R257). -/
def pairKeys : List Nat := (List.range 6).flatMap (fun c => [4 * c, 4 * c + 1, 4 * c + 2])

/-- AVAIL of R257. -/
def Pair.avail (c : Pair) : Nat := c.limit.toNat - (c.used - c.ret).toNat

/-- Slots of a packet with n bytes of payload (R253). -/
def slotsOf (n : Nat) : Nat := 1 + (n + 63) / 64

/-- One byte of the CRC-8 of R255. -/
def crc8Byte (r b : Byte) : Byte :=
  (List.range 8).foldl (fun r _ => if r.getLsbD 7 then (r <<< 1) ^^^ 0x07 else r <<< 1) (r ^^^ b)
def crc8 (bs : List Byte) : Byte := bs.foldl crc8Byte 0

/-- A control symbol: TYPE, its fields from byte 1 on, zeros, and the CRC-8 (R255). -/
def ctrlSymbol (type : Byte) (fields : List Byte) : List Byte :=
  let b := (type :: fields ++ List.replicate 14 0).take 15
  b ++ [crc8 b]

/-- An entry of a CREDIT symbol (R256). -/
def creditEntry (k : Nat) (freed : Word) : List Byte := BitVec.ofNat 8 (k / 4 + 8 * (k % 4) + 128) :: leBytes 4 freed.toNat

/-- Sends CREDIT symbols with the pairs given, two in each, and remembers what was reported (R256, R258). -/
def State.reportPairs (s : State) (p : Nat) : List Nat → State
  | [] => s
  | [k] =>
    let x := s.port p
    (s.setPort p (x.setPair k { x.pair k with reported := (x.pair k).freed })).emit (.symbol p (ctrlSymbol 0x01 (creditEntry k (x.pair k).freed)))
  | k :: l :: rest =>
    let x := s.port p
    let y := x.setPair k { x.pair k with reported := (x.pair k).freed }
    let y := y.setPair l { y.pair l with reported := (y.pair l).freed }
    ((s.setPort p y).emit (.symbol p (ctrlSymbol 0x01 (creditEntry k (x.pair k).freed ++ creditEntry l (x.pair l).freed)))).reportPairs p rest

/-- The cells of n counted slots are freed: FREED advances, and is reported at 16 beyond the last report (R29, R258). -/
def State.freeSlots (s : State) (p k n : Nat) : State :=
  let x := s.port p
  let c := { x.pair k with freed := (x.pair k).freed + BitVec.ofNat 32 n }
  let s := s.setPort p (x.setPair k c)
  if (c.freed - c.reported).toNat ≥ 16 && s.portRuns p then s.reportPairs p [k] else s

/-- The cells of a packet that came in on a port are freed, and its slots are returned to the sender where the counts that hold them still stand
(R19, R30, R258, R262). -/
def State.freePkt (s : State) (x : InPkt) : State :=
  match x.port with
  | some p => if x.gen = (s.port p).gen then s.freeSlots p (pairKey x.pkt.hdr.cls x.vcIn) (slotsOf x.pkt.payload.length) else s
  | none => s

/-! ## Messages to accelerators (R364 to R366) -/

/-- Slots that the messages waiting for a credit of port p take (R366: bytes queued). -/
def State.attQueued (s : State) (p : Nat) : Nat := ((s.attWait.filter (fun w => w.2.1 == p)).map (fun w => slotsOf w.2.2.2.payload.length)).sum

/-- Credit pair of a message: RSP for the node's answers, REQ for its requests, both on A1 (R364, R365). -/
def AMsg.key (m : AMsg) : Nat := if m.akind.toNat ≥ 5 then pairKey 1 1 else pairKey 5 1

/-- The lowest unacknowledged PSN toward an accelerator, or the next one (R230, R366). -/
def Accel.lup (x : Accel) : Word := x.retained.foldl (fun m r => if (m - r.1).toNat < 2 ^ 31 then r.1 else m) x.nextPsn

/-- Places a message on the wire of a port, if the port runs and its pair has the credit; none otherwise (R257, R366). -/
def State.attachWire (s : State) (a p : Nat) (psn : Word) (m : AMsg) : Option State :=
  let x := s.port p
  let c := x.pair m.key
  let n := slotsOf m.payload.length
  if s.portRuns p && decide (n ≤ c.avail) then
    some ((s.setPort p (x.setPair m.key { c with used := c.used + BitVec.ofNat 32 n })).emit (.attach a p psn (s.accel a).lup m))
  else none

/-- Transmits a message on the up port of the group with the fewest bytes queued; without a port it stays retained (R366). -/
def State.attachXmit (s : State) (a : Nat) (psn : Word) (m : AMsg) : State :=
  let ports := ((s.accel a).links.map (·.1)).filter s.portUp
  match ports.foldl (fun b p => match b with | none => some p | some q => if s.attQueued p < s.attQueued q then some p else b) none with
  | none => s
  | some p =>
    if s.attWait.any (fun w => w.2.1 == p) then { s with attWait := s.attWait ++ [(a, p, psn, m)] }
    else (s.attachWire a p psn m).getD { s with attWait := s.attWait ++ [(a, p, psn, m)] }

/-- Sends message m to accelerator a: with the next PSN of its path context, retained, or after the window of R238 opens (R366). -/
def State.attachSend (s : State) (a : Nat) (m : AMsg) : State :=
  let x := s.accel a
  if x.queued.isEmpty && decide (x.retained.length < 1024) then
    (s.setAccel a { x with nextPsn := x.nextPsn + 1, retained := x.retained ++ [(x.nextPsn, 1, m)] }).attachXmit a x.nextPsn m
  else s.setAccel a { x with queued := x.queued ++ [m] }

/-- A message with the given kind and nothing else. -/
def amsg (akind : BitVec 8) : AMsg :=
  { akind, tag := 0, status := 0, reason := 0, addr := 0, arg0 := 0, arg1 := 0, arg2 := 0, payload := [] }

/-- Splits a write of bytes at an accelerator offset into AWR messages of at most 4,096 B (R365). -/
def awrPieces : Nat → Nat → List Byte → List (Nat × List Byte)
  | 0, _, _ => []
  | _, _, [] => []
  | fuel + 1, off, bs =>
    let n := 4096 - off % 4096
    (off, bs.take n) :: awrPieces fuel (off + n) (bs.drop n)

/-- Sends one AWR whose PLACE_RSP serves a ticket. -/
def State.awr (s : State) (a off : Nat) (bs : List Byte) (t : Ticket) : State :=
  let x := s.accel a
  let op : AOp := { tag := x.nextTag, kind := .awr, addr := BitVec.ofNat 64 off, len := bs.length, off := 0, got := 0, data := [], ticket := t }
  (s.setAccel a { x with nextTag := x.nextTag + 1, ops := x.ops ++ [op] }).attachSend a
    { amsg 0x01 with tag := x.nextTag, addr := BitVec.ofNat 64 off, payload := bs }

/-- Sends one ARD of n bytes, or queues it while MAXRD requests are outstanding (R362). -/
def State.ard (s : State) (a off n boff : Nat) (t : Ticket) : State :=
  let x := s.accel a
  let op : AOp := { tag := x.nextTag, kind := .ard, addr := BitVec.ofNat 64 off, len := n, off := boff, got := 0, data := List.replicate n 0, ticket := t }
  let m := { amsg 0x02 with tag := x.nextTag, addr := BitVec.ofNat 64 off, arg2 := BitVec.ofNat 32 n }
  if (x.ops.filter (·.kind == .ard)).length < x.maxrd then
    (s.setAccel a { x with nextTag := x.nextTag + 1, ops := x.ops ++ [op] }).attachSend a m
  else s.setAccel a { x with nextTag := x.nextTag + 1, waiting := x.waiting ++ [(op, m)] }

/-! ## Local keys (R130) -/

/-- The range of a registration and its flags (R124). -/
def KeyEnt.base (k : KeyEnt) : Nat := (k.desc.extractLsb' 0 64).toNat
def KeyEnt.len (k : KeyEnt) : Nat := (k.desc.extractLsb' 64 64).toNat
def KeyEnt.space (k : KeyEnt) : Nat := (k.desc.extractLsb' 128 2).toNat
def KeyEnt.right (k : KeyEnt) (i : Nat) : Bool := k.desc.getLsbD (128 + i)
def KeyEnt.ttag (k : KeyEnt) : BitVec 16 := k.desc.extractLsb' 144 16
def KeyEnt.comm (k : KeyEnt) : Nat := (k.desc.extractLsb' 160 24).toNat
def KeyEnt.rank (k : KeyEnt) : Nat := (k.desc.extractLsb' 192 20).toNat
/-- INDEX and GEN of a key (R123). -/
def keyIndex (k : Word) : Nat := k.toNat / 4096
def keyGen (k : Word) : BitVec 12 := k.extractLsb' 0 12

/-- Space code of a registration for a local space (R124 SPACE). -/
def Space.code : Space → Nat
  | .hostva => 0
  | .accel => 1
  | .pool => 2

/-- The local key check of R130, the accelerator's owner included (R363). -/
def State.localKeyOk (s : State) (f : Nat) (o : Opnd) : Bool :=
  let k := s.key (keyIndex o.key)
  k.state == .valid && k.gen == keyGen o.key && k.owner == f && k.right 6 && k.space == o.space.code
    && decide (k.base ≤ o.addr.toNat) && decide (o.addr.toNat + o.len ≤ k.base + k.len)
    && (o.space != .accel || (s.accPresent (o.addr.toNat / 2 ^ 38 % 4) && s.accOwner (o.addr.toNat / 2 ^ 38 % 4) == f))

/-! ## Host memory (R348, R353, R358) -/

/-- The cached translation of an address, with write permission where it is needed. -/
def State.xlate? (s : State) (f : Nat) (pasid : BitVec 20) (va : DWord) (write : Bool) : Option Xlate :=
  s.xlates.find? (fun x => x.f == f && x.pasid == pasid && va.toNat / 2 ^ x.log2 == x.va.toNat / 2 ^ x.log2 && (!write || x.writable))

/-- The translated address of va under a cached translation. -/
def Xlate.apply (x : Xlate) (va : DWord) : DWord :=
  BitVec.ofNat 64 (x.pa.toNat / 2 ^ x.log2 * 2 ^ x.log2 + va.toNat % 2 ^ x.log2)

/-- A use of a translation makes it the most recent and is counted (R353, XLATE_HITS). -/
def State.touchXlate (s : State) (x : Xlate) : State :=
  ({ s with xlates := x :: s.xlates.filter (· != x) }).count 0x240010

/-- Dirty logging of the page of a host write (R358): whether the entry found the ring full. -/
def State.dlog (s : State) (f : Nat) (pa : DWord) : Bool × State :=
  let b := 0x191000 + 0x20 * f
  let pg := pa.toNat / 4096
  let x := s.func f
  if !s.bit (b + 8) 4 || x.dlogFilter.contains pg then (false, s)
  else
    let size := 2 ^ (s.fld (b + 8) 0 4 + 9)
    let pi := s.reg (b + 0xC)
    if (pi - s.reg (b + 0x10)).toNat ≥ size then (true, (s.setFld (b + 0x14) 8 1 1).bumpSeq (b + 0x14))
    else
      let entry := BitVec.ofNat 64 (pg * 4096) ||| (if lap pi size then 1 else 0)
      let at_ := s.reg64 b + BitVec.ofNat 64 (8 * (pi.toNat % size))
      (false, (((s.emit (.hostWrite 0 0 false at_ (leBytes 8 entry.toNat))).setReg (b + 0xC) (pi + 1)).count 0x240058).setFunc f
        { x with dlogFilter := (pg :: x.dlogFilter).take 4096 })

/-- A posted write of at most one page to host memory, logged first; the first result says that the log overflowed. -/
def State.postWrite (s : State) (f : Nat) (pasid : BitVec 20) (va : DWord) (bs : List Byte) : Bool × State :=
  if s.usesAts f then
    match s.xlate? f pasid va true with
    | some x =>
      let r := (s.touchXlate x).dlog f (x.apply va)
      (r.1, r.2.emit (.hostWrite f pasid true (x.apply va) bs))
    | none => (false, s)
  else
    let r := s.dlog f va
    (r.1, r.2.emit (.hostWrite f pasid false va bs))

/-- A write, or a read, of host memory can be issued now: the host is reached and a translation is cached where one is used. -/
def State.canUse (s : State) (f : Nat) (pasid : BitVec 20) (va : DWord) (write : Bool) : Bool :=
  s.hostReach f && (!s.usesAts f || (s.xlate? f pasid va write).isSome)
def State.canPost (s : State) (f : Nat) (pasid : BitVec 20) (va : DWord) : Bool := s.canUse f pasid va true

/-! ## Translation streams that wait (R354) -/

/-- The pages that a stream's Translation Request covers: the missed one and up to 15 further that the stream will touch (R354). -/
def Park.pages (p : Park) : Nat := min 16 ((p.va.toNat % 4096 + max 1 p.len + 4095) / 4096)

/-- Sends the Translation Request of a waiting stream where the limits allow it: 64 for the node, FUNC_MAX for the function. -/
def State.admitPark (s : State) (p : Park) : Park × State :=
  let busy := s.parks.filter (·.st == .translating)
  if p.st == .waiting && s.usesAts p.f && s.hostReach p.f && decide (busy.length < 64)
      && decide ((busy.filter (·.f == p.f)).length < s.fld 0x190004 16 7) then
    ({ p with st := .translating }, s.emit (.xlateReq p.f p.pasid (BitVec.ofNat 64 (p.va.toNat / 4096 * 4096)) p.pages))
  else (p, s)

/-- A stream parks: the miss is counted and its request sent where it can be (R354, R355). -/
def State.park (s : State) (p : Park) : State :=
  let r := (if s.usesAts p.f then s.count 0x240018 else s).admitPark p
  { r.2 with parks := r.2.parks ++ [r.1] }

/-! ## Fault queues (R425 to R430) -/

/-- A fault's code and class (R429). -/
structure FCode where
  code : Nat
  cls : Nat
  deriving DecidableEq, Repr

/-- The 64 B fault record of R428, with PHASE 0. -/
def faultRecord (c : FCode) (fseq : Word) (time : Nat) (queue : Nat) (eseq : Word) (a b x d e : Nat) : List Byte :=
  leBytes 2 (c.code + c.cls * 4096) ++ [0, 0] ++ leBytes 4 fseq.toNat ++ leBytes 8 time
    ++ leBytes 2 queue ++ [0, 0] ++ leBytes 4 eseq.toNat ++ leBytes 8 a ++ leBytes 8 b ++ leBytes 8 x ++ leBytes 8 d ++ leBytes 8 e

/-- A fault of class cls of function f is counted and not written (R427). -/
def State.faultLost (s : State) (f cls : Nat) : State :=
  let st := page f 0x191C
  ((((s.count (page f (0x2080 + 8 * cls))).count 0x200038).setFld st 8 1 1).setFld st (10 + cls) 1 1).bumpSeq st

/-- One MSI-X message after a record, unless one was sent since CI was last written (R426). -/
def State.faultIrq (s : State) (f : Nat) : State :=
  if s.bit (page f 0x190C) 18 && !(s.func f).irqSent then
    (s.setFunc f { s.func f with irqSent := true }).emit (.msix f (s.fld (page f 0x190C) 7 11))
  else s

/-! ### Record rings (R383 to R385, R425 to R427) -/

/-- Register o of a record ring of function f: BASE 0, KEY 8, CTL 0xC, PASID 0x10, PI 0x14, CI 0x18, STATUS 0x1C; both rings lay them out alike. -/
def RecRing.reg (k : RecRing) (f o : Nat) : Nat := page f ((match k with | .fault => 0x1900 | .sample => 0x1080) + o)

/-- Records that the ring holds. -/
def State.recSize (s : State) (k : RecRing) (f : Nat) : Nat := 2 ^ (s.fld (k.reg f 0xC) 3 4 + (match k with | .fault => 6 | .sample => 8))

def State.recs (s : State) (k : RecRing) (f : Nat) : List (Nat × List Byte) := match k with | .fault => (s.func f).faultRecs | .sample => (s.func f).sampleRecs

def State.setRecs (s : State) (k : RecRing) (f : Nat) (l : List (Nat × List Byte)) : State :=
  s.setFunc f (match k with | .fault => { s.func f with faultRecs := l } | .sample => { s.func f with sampleRecs := l })

/-- PI as it will stand when the records raised so far are written. -/
def State.recNext (s : State) (k : RecRing) (f : Nat) : Word := s.reg (k.reg f 0x14) + BitVec.ofNat 32 (s.recs k f).length

/-- The oldest record has been written: PI advances (R426). -/
def State.recWritten (s : State) (k : RecRing) (f : Nat) : State :=
  if (s.recs k f).isEmpty then s
  else
    let s := (s.setRecs k f ((s.recs k f).drop 1)).setReg (k.reg f 0x14) (s.reg (k.reg f 0x14) + 1)
    match k with | .fault => s.faultIrq f | .sample => s

/-- The write of the oldest record has failed: RING_FAULT is set, and PI stays (R385, R427). -/
def State.recFailed (s : State) (k : RecRing) (f : Nat) : State :=
  match s.recs k f with
  | [] => s
  | (cls, _) :: t =>
    let s := (s.setRecs k f t).setFld (k.reg f 0x1C) 9 1 1
    match k with | .fault => s.faultLost f cls | .sample => s.bumpSeq (k.reg f 0x1C)

/-- A record with PHASE. -/
def withPhase (bs : List Byte) (ph : Bool) : List Byte := bs.set 1 (bs.getD 1 0 ||| (if ph then 0x80 else 0))

/-- Tries to write the oldest record at position PI: written, failed, or to be answered later. -/
def State.recTry (s : State) (k : RecRing) (f : Nat) (bs : List Byte) : Option Bool × State :=
  let pi := s.reg (k.reg f 0x14)
  let size := s.recSize k f
  let bs := withPhase bs (lap pi size)
  let va := s.reg64 (k.reg f 0) + BitVec.ofNat 64 (bs.length * (pi.toNat % size))
  let pasid := BitVec.ofNat 20 (s.fld (k.reg f 0x10) 0 20)
  match s.fld (k.reg f 0xC) 1 2 with
  | 0 =>
    if s.canPost f pasid va then (some true, (s.postWrite f pasid va bs).2)
    else if s.hostUp then
      (none, s.park { f, pasid, va, len := bs.length, write := true, data := bs, off := 0, ticket := .ringRec k f, st := .waiting })
    else (some false, s)
  | 1 =>
    if s.localKeyOk f { space := .accel, addr := va, len := bs.length, key := s.reg (k.reg f 8) } then
      (none, s.awr (va.toNat / 2 ^ 38 % 4) (va.toNat % 2 ^ 38) bs (.ringRec k f))
    else (some false, s)
  | _ => if s.hostReach f then (some true, s.emit (.hostWrite f 0 false va bs)) else (if s.hostUp then none else some false, s)

/-- Writes waiting records in order, as far as they go. -/
def State.recPump (k : RecRing) (f : Nat) : Nat → State → State
  | 0, s => s
  | n + 1, s =>
    match s.recs k f with
    | [] => s
    | (_, bs) :: _ =>
      match s.recTry k f bs with
      | (some true, s) => recPump k f n (s.recWritten k f)
      | (some false, s) => recPump k f n (s.recFailed k f)
      | (none, s) => s

/-- A record is raised: it is written at once, or after those before it. -/
def State.recPush (s : State) (k : RecRing) (f cls : Nat) (bs : List Byte) : State :=
  let l := s.recs k f
  let s := s.setRecs k f (l ++ [(cls, bs)])
  if l.isEmpty then s.recPump k f 1 else s

/-- The records of a ring that wait are not written any more; faults among them are counted (R33). -/
def State.dropRecs (s : State) (k : RecRing) (f : Nat) : State :=
  let l := s.recs k f
  let s : State := { s.setRecs k f [] with parks := s.parks.filter (fun p => p.ticket != .ringRec k f) }
  match k with
  | .fault => l.foldl (fun s x => s.faultLost f x.1) s
  | .sample => s

/-- Raises a fault to function f (R425 to R430): redirected to the physical function where f is a virtual function that is not enabled. -/
def State.raise (s : State) (f : Nat) (c : FCode) (queue : Nat) (eseq : Word) (a b x : Nat) (d : Nat := 0) : State :=
  let f' := if s.enabled f then f else 0
  let e := if s.enabled f then 0 else f + 256
  let s := s.count 0x200030
  let fseq := (s.func f').fseq + 1
  let s := s.setFunc f' { s.func f' with fseq }
  if s.bit (page f' 0x190C) 0 && decide ((s.recNext .fault f' - s.reg (page f' 0x1918)).toNat < s.recSize .fault f') then
    s.recPush .fault f' c.cls (faultRecord c fseq s.time queue eseq a b x d e)
  else s.faultLost f' c.cls

/-- QUEUE of a fault that concerns none (R428). -/
def noQueue : Nat := 0xFFFF

def staleEntry : FCode := ⟨0x001, 0⟩
def doorbellInvalid : FCode := ⟨0x002, 0⟩
def ringFault : FCode := ⟨0x003, 0⟩
def cringStall : FCode := ⟨0x004, 0⟩
def remoteAccessDenied : FCode := ⟨0x010, 1⟩
def remoteKeyRevoked : FCode := ⟨0x011, 1⟩
def collectiveForeign : FCode := ⟨0x012, 1⟩
def portMiswired : FCode := ⟨0x020, 2⟩
def portTrainFail : FCode := ⟨0x021, 2⟩
def portSwatchFail : FCode := ⟨0x022, 2⟩
def portDegraded : FCode := ⟨0x023, 2⟩
def creditAudit : FCode := ⟨0x024, 2⟩
def escapeBroken : FCode := ⟨0x025, 2⟩
def retryLong : FCode := ⟨0x026, 2⟩
def jobFrogged : FCode := ⟨0x030, 3⟩
def jobNeedsRestore : FCode := ⟨0x031, 3⟩
def rankAbandonedF : FCode := ⟨0x032, 3⟩
def rankRecordFull : FCode := ⟨0x033, 3⟩
def parityNone : FCode := ⟨0x034, 3⟩
def darnKeyConflict : FCode := ⟨0x035, 3⟩
def nvCapacityReduced : FCode := ⟨0x040, 4⟩
def nvVersionLost : FCode := ⟨0x041, 4⟩
def ckptCopyFailed : FCode := ⟨0x042, 4⟩
def dirtyLogOverflow : FCode := ⟨0x050, 5⟩
def accelPoison : FCode := ⟨0x051, 5⟩
def accelLostF : FCode := ⟨0x052, 5⟩
def checkMonitorMismatch : FCode := ⟨0x060, 6⟩
def checkMonitorAlive : FCode := ⟨0x061, 6⟩
def keySlotLost : FCode := ⟨0x062, 6⟩
def keyedCheckDisagree : FCode := ⟨0x063, 6⟩
def accountingCorrected : FCode := ⟨0x070, 7⟩
def nodeBoundOff : FCode := ⟨0x071, 7⟩

/-- A posted write of at most one page, its page logged (R358). -/
def State.hostPost (s : State) (f : Nat) (pasid : BitVec 20) (va : DWord) (bs : List Byte) : State :=
  let r := s.postWrite f pasid va bs
  if r.1 then r.2.raise 0 dirtyLogOverflow noQueue 0 f 0 0 else r.2

end Sys2Proof.Machine
end

