-- ==== Sys2Proof/Machine/Phy.lean ====
section
/-! DEFINITION. The codeword on the wire: lanes and PAM4 levels, the scrambler, RS(544,514), and the slot types of its header (R247, R249 to R253). -/

namespace Sys2Proof.Machine

/-! ## GF(2^10) (R249; log entry 54: the field and the generator are those of IEEE 802.3) -/

/-- The product with α, a root of x^10 + x^3 + 1. -/
def gfDouble (a : Nat) : Nat := if a < 512 then 2 * a else (2 * a) ^^^ 0x409

/-- The product, from the bits of the second factor, the highest first. -/
def gfMul (a b : Nat) : Nat :=
  if a = 0 ∨ b = 0 then 0
  else (List.range 10).foldr (fun i p => gfDouble p ^^^ (if b.testBit i then a else 0)) 0

/-- α^k, and the inverse of a non-zero element, which is its power 2^10 - 2. -/
def gfExp (k : Nat) : Nat := (List.range (k % 1023)).foldl (fun a _ => gfDouble a) 1
def gfInv (a : Nat) : Nat := ((List.range 9).foldl (fun (p : Nat × Nat) _ => let q := gfMul p.1 p.1; (q, gfMul p.2 q)) (a, 1)).2

/-- A polynomial's coefficients stand from the constant term on; its value at x. -/
def gfEval (cs : List Nat) (x : Nat) : Nat := cs.foldr (fun c v => gfMul v x ^^^ c) 0

/-- Coefficient by coefficient sum of two polynomials. -/
def gfAdd : List Nat → List Nat → List Nat
  | [], b => b
  | a, [] => a
  | a :: as, b :: bs => (a ^^^ b) :: gfAdd as bs

/-! ## RS(544,514) (R249, R251) -/

/-- The generator: the product of x - α^j for j from 0 to 29, without its leading 1. -/
def rsGenerator : List Nat :=
  ((List.range 30).foldl (fun g j => gfAdd (0 :: g) (g.map (fun c => gfMul c (gfExp j)))) [1]).take 30

/-- The 30 parity symbols that follow a message, whose first symbol is the highest coefficient. -/
def rsParity (msg : List Nat) : List Nat :=
  (msg.foldl (fun r m =>
    let f := m ^^^ r.getLastD 0
    gfAdd (0 :: r.dropLast) (rsGenerator.map (gfMul f))) (List.replicate 30 0)).reverse

/-- The 30 syndromes of a received word, and one step of the search for the error locator by Berlekamp and Massey. -/
def rsSyndromes (w : List Nat) : List Nat :=
  (List.range 30).map (fun j => let x := gfExp j; w.foldl (fun v c => gfMul v x ^^^ c) 0)

structure Locator where
  c : List Nat
  b : List Nat
  len : Nat
  gap : Nat
  d : Nat

def rsLocate (syn : List Nat) : Locator :=
  (List.range 30).foldl (fun l n =>
    let d := (List.range (l.len + 1)).foldl (fun v i => v ^^^ gfMul (l.c.getD i 0) (syn.getD (n - i) 0)) 0
    let c := gfAdd l.c (List.replicate l.gap 0 ++ l.b.map (gfMul (gfMul d (gfInv l.d))))
    if d = 0 then { l with gap := l.gap + 1 }
    else if 2 * l.len ≤ n then { c, b := l.c, len := n + 1 - l.len, gap := 1, d }
    else { l with c, gap := l.gap + 1 }) { c := [1], b := [1], len := 0, gap := 1, d := 1 }

/-- The quotient by α. -/
def gfHalve (a : Nat) : Nat := if a % 2 = 0 then a / 2 else (a ^^^ 0x409) / 2

/-- The degrees from p on, n of them, at which the locator vanishes on the inverse y of x = α^p: each with x and y. -/
def rsRoots (c : List Nat) : Nat → Nat → Nat → Nat → List (Nat × Nat × Nat)
  | 0, _, _, _ => []
  | n + 1, p, x, y => (if gfEval c y = 0 then [(p, x, y)] else []) ++ rsRoots c n (p + 1) (gfDouble x) (gfHalve y)

/-- The errors of a word, as degree and value (Forney), where at most 15 symbols are wrong; none where the decoder cannot correct it (R251). -/
def rsErrors (syn : List Nat) : Option (List (Nat × Nat)) :=
  let l := rsLocate syn
  if 15 < l.len then none
  else
    let omega := (List.range 30).map (fun k => (List.range (k + 1)).foldl (fun v i => v ^^^ gfMul (l.c.getD i 0) (syn.getD (k - i) 0)) 0)
    let deriv := (List.range l.c.length).map (fun i => if i % 2 = 0 then l.c.getD (i + 1) 0 else 0)
    let found := rsRoots l.c 544 0 1 1
    if found.length = l.len then some (found.map (fun r => (r.1, gfMul r.2.1 (gfMul (gfEval omega r.2.2) (gfInv (gfEval deriv r.2.2)))))) else none

/-- Decodes 544 symbols: the number of symbols corrected and the 514 message symbols. -/
def rsDecode (w : List Nat) : Option (Nat × List Nat) :=
  let syn := rsSyndromes w
  if syn.all (· == 0) then some (0, w.take 514)
  else (rsErrors syn).map (fun es =>
    (es.length, (es.foldl (fun v e => v.set (543 - e.1) (v.getD (543 - e.1) 0 ^^^ e.2)) w).take 514))

/-! ## Bits, symbols and the scrambler (R250) -/

/-- The number whose base 2^k digits are given, lowest first, and n digits of a number: the first bit on the wire is bit 0. -/
def joinDigits (k : Nat) (ds : List Nat) : Nat := ds.foldr (fun d v => d % 2 ^ k + 2 ^ k * v) 0
def splitDigits (k n v : Nat) : List Nat := (List.range n).map (fun i => v >>> (k * i) % 2 ^ k)

/-- Bits of a message, and the last 58 bits that went through the scrambler, the latest highest. -/
def msgBits : Nat := 5140

/-- Descrambles a message after the 58 bits that came before it: x^58 + x^39 + 1. -/
def descramble (before r : Nat) : Nat × Nat :=
  let x := before + r <<< 58
  ((x ^^^ (x >>> 19) ^^^ (x >>> 58)) % 2 ^ msgBits, x >>> msgBits)

/-- Scrambles a message, 39 bits at a time, since no bit depends on one of the 38 before it. -/
def scramble (before m : Nat) : Nat × Nat :=
  let r := (List.range 132).foldl (fun (p : Nat × Nat) i =>
    let w := if i = 131 then 31 else 39
    let o := ((m >>> (39 * i)) ^^^ p.1 ^^^ (p.1 >>> 19)) % 2 ^ w
    ((p.1 + o <<< 58) >>> w, p.2 + o <<< (39 * i))) (before, 0)
  (r.2, r.1)

/-! ## Lanes and PAM4 levels (R247, R250) -/

/-- The level of a bit pair, Gray-coded, and back; an inverted pair of wires turns levels over. -/
def pamLevel (b : Nat) : Nat := if b = 3 then 2 else if b = 2 then 3 else b
def pamBits (inverted : Bool) (level : Nat) : Nat := pamLevel (if inverted then 3 - level else level)

/-- The levels that each of n lanes carries of a codeword's symbols: symbol s on lane s mod n, as 5 levels, the lowest bits first. -/
def toLanes (n : Nat) (w : List Nat) : List (List Nat) :=
  (List.range n).map (fun l => ((List.range ((w.length + n - 1 - l) / n)).flatMap (fun i => (splitDigits 2 5 (w.getD (i * n + l) 0)).map pamLevel)))

/-- The symbols in a lane's levels, n of them. -/
def laneSymbols (inverted : Bool) : Nat → List Nat → List Nat
  | 0, _ => []
  | n + 1, levels => joinDigits 2 ((List.range 5).map (fun k => pamBits inverted (levels.getD k 0))) :: laneSymbols inverted n (levels.drop 5)

/-- The symbols that lanes carry, in ascending logical order, with the lanes whose wires are inverted. -/
def fromLanes (lanes : List (Bool × List Nat)) : List Nat :=
  let n := lanes.length
  let symbols := lanes.map (fun l => laneSymbols l.1 (543 / n + 1) l.2)
  (List.range 544).map (fun s => (symbols.getD (s % n) []).getD (s / n) 0)

/-! ## The header and the slots (R249, R253) -/

/-- The type of a slot. -/
def slotType : Slot → Nat
  | .idle => 0
  | .head _ => 1
  | .body _ => 2
  | .ctrl _ => 3

def slotBytes : Slot → List Byte
  | .idle => []
  | .head b => b
  | .body b => b
  | .ctrl b => b

/-- The 5,140 bits of a message with ten slots. -/
def messageOf (slots : List Slot) : Nat :=
  joinDigits 2 (slots.map slotType) + joinDigits 512 (slots.map (fun x => leNat (slotBytes x))) <<< 20

/-- The ten slots of a message, by the types in its header. -/
def slotsOfMessage (m : Nat) : List Slot :=
  (List.range 10).map (fun i =>
    let bytes := leBytes 64 (m >>> (20 + 512 * i) % 2 ^ 512)
    match m >>> (2 * i) % 4 with
    | 0 => .idle
    | 1 => .head bytes
    | 2 => .body bytes
    | _ => .ctrl bytes)

/-- The 544 symbols of a codeword with ten slots, after the bits scrambled before it. -/
def codewordOf (before : Nat) (slots : List Slot) : List Nat × Nat :=
  let s := scramble before (messageOf slots)
  let msg := splitDigits 10 514 s.1
  (msg ++ rsParity msg, s.2)

/-- What a receiver makes of 544 symbols: the number of corrected symbols with the slots, or nothing where they cannot be corrected (R251, R252);
and the bits that the next message is descrambled with. -/
def receive (before : Nat) (w : List Nat) : Option (Nat × List Slot) × Nat :=
  match rsDecode w with
  | some (n, msg) => let d := descramble before (joinDigits 10 msg); (some (n, slotsOfMessage d.1), d.2)
  | none => (none, (descramble before (joinDigits 10 (w.take 514))).2)

/-! ## The slots that a port sends (R253 to R256) -/

/-- The slots of a packet: its header, and its payload in slots of 64 B, the last filled with zeros. -/
def packetSlots (head : List Byte) (payload : List Byte) : List Slot :=
  .head head :: (List.range ((payload.length + 63) / 64)).map (fun i =>
    let b := (payload.drop (64 * i)).take 64
    .body (b ++ List.replicate (64 - b.length) 0))

/-- The place of a symbol in its CTRL slot, by TYPE (R256): ABORT, BIND_OFF, KEEPALIVE, AUDIT, CREDIT; training symbols come with none of these. -/
def symbolRank (b : List Byte) : Nat := match (b.getD 0 0).toNat with
  | 0x05 => 0
  | 0x04 => 1
  | 0x02 => 2
  | 0x03 => 3
  | 0x01 => 4
  | _ => 5

/-- CTRL slots for symbols that wait, four in each in the order of R256, filled with NULL. -/
def ctrlSlots (symbols : List (List Byte)) : List Slot :=
  let l := (List.range 6).flatMap (fun k => symbols.filter (fun b => symbolRank b == k))
  (List.range ((l.length + 3) / 4)).map (fun i =>
    .ctrl ((List.range 4).flatMap (fun k => l.getD (4 * i + k) (ctrlSymbol 0x00 []))))

/-- Slots in codewords of ten, the last filled with IDLE. -/
def codewordsOf : Nat → Nat → List Slot → List (List Nat)
  | 0, _, _ => []
  | _, _, [] => []
  | fuel + 1, before, slots =>
    let c := codewordOf before ((slots.take 10 ++ List.replicate 10 Slot.idle).take 10)
    c.1 :: codewordsOf fuel c.2 (slots.drop 10)

end Sys2Proof.Machine
end

