-- ==== Sys2Proof/Machine/Crc.lean ====
section
/-! DEFINITION. The cyclic check values CRC-32C and CRC-64 (R82). -/

namespace Sys2Proof.Machine

/-- One bit of a reflected CRC: a shift right, with the polynomial where a 1 leaves. -/
def crcBit {n : Nat} (poly r : BitVec n) : BitVec n := if r.getLsbD 0 then (r >>> 1) ^^^ poly else r >>> 1

/-- One byte of a reflected CRC. -/
def crcByte {n : Nat} (poly r : BitVec n) (b : Byte) : BitVec n :=
  let r := r ^^^ b.setWidth n
  crcBit poly (crcBit poly (crcBit poly (crcBit poly (crcBit poly (crcBit poly (crcBit poly (crcBit poly r)))))))

/-- The running value of a reflected CRC over bytes. -/
def crcRun {n : Nat} (poly init : BitVec n) (bs : List Byte) : BitVec n := bs.foldl (crcByte poly) init

/-- The Castagnoli polynomial and ECMA-182, reflected (R82). -/
def polyC : BitVec 32 := 0x82F63B78
def poly64 : BitVec 64 := 0xC96C5795D7870F42

/-- CRC-32C and CRC-64 with their standard initial value and final XOR (R82). -/
def crc32c (bs : List Byte) : BitVec 32 := crcRun polyC 0xFFFFFFFF bs ^^^ 0xFFFFFFFF
def crc64 (bs : List Byte) : BitVec 64 := crcRun poly64 0xFFFFFFFFFFFFFFFF bs ^^^ 0xFFFFFFFFFFFFFFFF

end Sys2Proof.Machine
end

