-- ==== Sys2Proof/Machine/Flags.lean ====
section
/-! DEFINITION. Completion statuses, their precedence, the flags and the completion record (R86 to R89). -/

namespace Sys2Proof.Machine

/-! ## Statuses (R87) and DETAIL codes (R89) -/

def stOk : BitVec 8 := 0x00
def stMalformed : BitVec 8 := 0x01
def stAccessLocal : BitVec 8 := 0x02
def stAccessRemote : BitVec 8 := 0x03
def stKeyRevoked : BitVec 8 := 0x04
def stTranslation : BitVec 8 := 0x05
def stTargetLost : BitVec 8 := 0x06
def stRetry : BitVec 8 := 0x07
def stDropped : BitVec 8 := 0x08
def stResultLost : BitVec 8 := 0x09
def stFrogged : BitVec 8 := 0x0A
def stMismatch : BitVec 8 := 0x0B
def stFuncReset : BitVec 8 := 0x0C
def stHostLost : BitVec 8 := 0x0D
def stFormat : BitVec 8 := 0x0E
def stArith : BitVec 8 := 0x0F

/-- The statuses in the order of R88, the first taking precedence. -/
def statusOrder : List (BitVec 8) :=
  [stFuncReset, stHostLost, stMalformed, stFormat, stAccessLocal, stTranslation, stFrogged, stKeyRevoked, stAccessRemote,
   stTargetLost, stRetry, stResultLost, stMismatch, stDropped, stArith, stOk]

/-- The status of higher precedence of two (R88). -/
def worst (a b : BitVec 8) : BitVec 8 :=
  if statusOrder.findIdx (· == a) ≤ statusOrder.findIdx (· == b) then a else b

/-- An error status: not marked success in R87. -/
def isError (st : BitVec 8) : Bool := !(st == stOk || st == stDropped || st == stArith)

/-- The flags of byte 12 of a record (R86). -/
def flSwapped : BitVec 4 := 1
def flErrSeen : BitVec 4 := 2
def flDrops : BitVec 4 := 4
def flArith : BitVec 4 := 8

/-- DETAIL of several reasons: the lowest code among them, none for no reason (R89). -/
def lowestDetail (ds : List Nat) : Option Nat := ds.min?

/-- The reasons that hold, from a list of tests. -/
def reasons (ts : List (Bool × Nat)) : List Nat := (ts.filter (·.1)).map (·.2)

/-! ## Header fields (R41) -/

def entOpcode (e : Entry) : BitVec 8 := e.extractLsb' 0 8
def entOwn (e : Entry) : Bool := e.getLsbD 8
def entExt (e : Entry) : Bool := e.getLsbD 9
def entOrder (e : Entry) : Nat := entBits e 10 2
def entSol (e : Entry) : Bool := e.getLsbD 12
def entCntSel (e : Entry) : Nat := entBits e 13 4
/-- Bits lo to lo + w - 1 of OPX. -/
def entOpx (e : Entry) (lo w : Nat) : Nat := entBits e (17 + lo) w
def entW1 (e : Entry) : Word := e.extractLsb' 32 32
def entQ1 (e : Entry) : DWord := e.extractLsb' 64 64
/-- The n bytes of an entry from byte k on, as a number. -/
def entBytes (e : Entry) (k n : Nat) : Nat := entBits e (8 * k) (8 * n)
def ent64 (e : Entry) (k : Nat) : DWord := e.extractLsb' (8 * k) 64
def ent32 (e : Entry) (k : Nat) : Word := e.extractLsb' (8 * k) 32

/-- The 32 B completion record (R86). -/
def recordBytes (queue : Nat) (phase : Bool) (r : CRec) : List Byte :=
  leBytes 2 (queue + (if phase then 32768 else 0)) ++ [r.status, r.opcode] ++ leBytes 4 r.eseq.toNat ++ leBytes 4 r.iter.toNat
    ++ [BitVec.ofNat 8 r.flags.toNat, r.detail, 0, 0] ++ leBytes 8 r.result.toNat ++ leBytes 8 r.info.toNat

/-! ## Queue descriptor fields (R93) -/

def qRingBase (d : Entry) : DWord := ent64 d 0
def qCringBase (d : Entry) : DWord := ent64 d 8
def qRingKey (d : Entry) : Word := ent32 d 16
def qComm (d : Entry) : BitVec 24 := d.extractLsb' 160 24
def qCommValid (d : Entry) : Bool := d.getLsbD 191
def qRingLog2 (d : Entry) : Nat := entBytes d 24 1
def qCringLog2 (d : Entry) : Nat := entBytes d 25 1
def qRingSp (d : Entry) : Nat := entBits d 208 2
def qCringSp (d : Entry) : Nat := entBits d 210 2
def qPasid (d : Entry) : BitVec 20 := d.extractLsb' 224 20
def qVector (d : Entry) : Nat := entBits d 244 11
/-- Counter table entry n, 1 to 15: the function-relative counter where VALID is 1. -/
def qCtab (d : Entry) (n : Nat) : Option Nat :=
  if n = 0 then none
  else if d.getLsbD (8 * (30 + 2 * n) + 15) then some (entBits d (8 * (30 + 2 * n)) 15) else none
def qRingSize (d : Entry) : Nat := 2 ^ qRingLog2 d
def qCringSize (d : Entry) : Nat := 2 ^ qCringLog2 d

end Sys2Proof.Machine
end

