-- ==== Sys2Proof/Machine/Operands.lean ====
section
/-! DEFINITION. Operand forms: local operands and their data paths (R48, R144, R348 to R355), remote addresses (R49, R117). -/

namespace Sys2Proof.Machine

/-! ## Local operands (R48, R130) -/

/-- The space that a 2-bit local-space field names. -/
def spaceOf (c : Nat) : Option Space :=
  match c with
  | 0 => some .hostva
  | 1 => some .accel
  | 2 => some .pool
  | _ => none

/-- The end of a space: 768 GiB for POOL, the accelerator's own 256 GiB for ACCEL, 2^64 for HOSTVA (R48). -/
def spaceEnd (sp : Space) (addr : DWord) : Nat :=
  match sp with
  | .pool => 0xC000000000
  | .accel => (addr.toNat / 2 ^ 38 + 1) * 2 ^ 38
  | .hostva => 2 ^ 64

/-- The decode reasons of a local operand (R48): a reserved space, a key or address bits that must be 0, a HOSTVA range past 2^64. -/
def localReasons (c : Nat) (addr : DWord) (key : Word) (len : Nat) : List Nat :=
  reasons [(c == 3, 3), (c == 0 && key != 0, 2), ((c == 1 || c == 2) && addr.toNat / 2 ^ 40 != 0, 2),
    (c == 0 && decide (addr.toNat + len > 2 ^ 64), 4)]

/-- A range that passes the end of its space, or whose length reaches 2^40 (R77). -/
def sizedReasons (c : Nat) (addr : DWord) (len : Nat) : List Nat :=
  match spaceOf c with
  | some sp => reasons [(decide (addr.toNat + len > spaceEnd sp addr) || decide (len ≥ 2 ^ 40), 4)]
  | none => []

/-- The operand that decoded fields name; a reserved space has been rejected before. -/
def opnd (c : Nat) (addr : DWord) (key : Word) (len : Nat) : Opnd :=
  { space := (spaceOf c).getD .pool, addr, len, key }

/-- The INDEX that an operand's local key check looks up; none where no check is made (R130). -/
def Opnd.keyed (o : Opnd) : Option Nat := if o.space != .hostva && decide (o.len > 0) then some (keyIndex o.key) else none

/-- The first operand of positive length whose local key check fails (R130). -/
def State.localFail (s : State) (f : Nat) (os : List Opnd) : Option Opnd :=
  os.find? (fun o => o.space != .hostva && decide (o.len > 0) && !s.localKeyOk f o)

/-- Two ranges of one space overlap; a range of length 0 overlaps nothing (R55). -/
def overlaps (a b : Opnd) : Bool :=
  a.space == b.space && decide (a.len > 0) && decide (b.len > 0)
    && decide (a.addr.toNat < b.addr.toNat + b.len) && decide (b.addr.toNat < a.addr.toNat + a.len)

/-! ## Reads of local operands -/

/-- Reads host memory page by page; the first page without a usable translation parks the rest of the stream (R348, R354). -/
def State.hostRead : Nat → State → Nat → BitVec 20 → DWord → Nat → Nat → Ticket → State
  | 0, s, _, _, _, _, _, _ => s
  | fuel + 1, s, f, pasid, va, len, off, t =>
    if len = 0 then s
    else
      let n := min len (4096 - va.toNat % 4096)
      let go := fun (s : State) (tr : Bool) (a : DWord) =>
        (({ s with hreads := s.hreads ++ [{ tag := s.nextTag, f, pasid, va, len := n, off, ticket := t }],
                   nextTag := (s.nextTag + 1) % 2 ^ 14 } : State).emit (.hostRead s.nextTag f pasid tr a n)).hostRead fuel
          f pasid (va + BitVec.ofNat 64 n) (len - n) (off + n) t
      let wait := fun (s : State) => s.park { f, pasid, va, len, write := false, data := [], off, ticket := t, st := .waiting }
      if s.hostReach f && decide (s.hreads.length < 1024) then
        if s.usesAts f then
          match s.xlate? f pasid va false with
          | some x => go (s.touchXlate x) true (x.apply va)
          | none => wait s
        else go s false va
      else wait s

/-- Sends the ARD requests of a range, each within one 4,096 B piece (R365). -/
def State.ardAll : Nat → State → Nat → Nat → Nat → Nat → Ticket → State
  | 0, s, _, _, _, _, _ => s
  | fuel + 1, s, a, off, len, boff, t =>
    if len = 0 then s
    else
      let n := min len (4096 - off % 4096)
      (s.ard a off n boff t).ardAll fuel a (off + n) (len - n) (boff + n) t

/-- A range of pooled memory touches a line that is lost and not yet rebuilt (R291). -/
def State.lineLost (s : State) (off len : Nat) : Bool := s.lostLines.any (fun l => decide (l < off + len) && decide (off < l + 64))

/-- A read of pooled memory that waits for a lost line (R291). -/
def State.poolWait (s : State) (off len boff : Nat) (t : Ticket) : State :=
  { s with poolWaits := s.poolWaits ++ [{ off, len, boff, ticket := t }] }

/-- Starts the read of a local operand: its bytes where they are at hand, and how many are still to come to the ticket. -/
def State.readOpnd (s : State) (f : Nat) (pasid : BitVec 20) (o : Opnd) (t : Ticket) : List Byte × Nat × State :=
  match o.space with
  | .pool =>
    if s.lineLost o.addr.toNat o.len then (List.replicate o.len 0, o.len, s.poolWait o.addr.toNat o.len 0 t)
    else (s.pread o.addr.toNat o.len, 0, s)
  | .accel => (List.replicate o.len 0, o.len, s.ardAll (o.len / 4096 + 2) (o.addr.toNat / 2 ^ 38 % 4) (o.addr.toNat % 2 ^ 38) o.len 0 t)
  | .hostva => (List.replicate o.len 0, o.len, s.hostRead (o.len / 4096 + 2) f pasid o.addr o.len 0 t)

/-! ## Writes to local memory (R45, R144) -/

/-- Writes host memory page by page, as posted writes; the rest parks at the first page that cannot be written.
The first result is the number of tickets still to come. -/
def State.hostWriteAll : Nat → State → Nat → BitVec 20 → DWord → List Byte → Ticket → Nat × State
  | 0, s, _, _, _, _, _ => (0, s)
  | fuel + 1, s, f, pasid, va, bs, t =>
    if bs.isEmpty then (0, s)
    else if s.canPost f pasid va then
      let n := 4096 - va.toNat % 4096
      (s.hostPost f pasid va (bs.take n)).hostWriteAll fuel f pasid (va + BitVec.ofNat 64 n) (bs.drop n) t
    else (1, s.park { f, pasid, va, len := bs.length, write := true, data := bs, off := 0, ticket := t, st := .waiting })

/-- Translates a range of host memory that is to be written, or read, page by page, without an access: parks at the first page without a translation.
The result counts the tickets still to come. -/
def State.xlateAll : Nat → State → Nat → BitVec 20 → DWord → Nat → Bool → Ticket → Nat × State
  | 0, s, _, _, _, _, _, _ => (0, s)
  | fuel + 1, s, f, pasid, va, len, write, t =>
    if len = 0 then (0, s)
    else if s.canUse f pasid va write then
      let n := min len (4096 - va.toNat % 4096)
      s.xlateAll fuel f pasid (va + BitVec.ofNat 64 n) (len - n) write t
    else (1, s.park { f, pasid, va, len, write, data := [], off := 0, ticket := t, st := .waiting, probe := true })

/-- Whether STORE_WINDOW maps onto pooled memory, and the offset it starts at (R294). -/
def State.winPool (s : State) : Option Nat :=
  if s.fld 0x150050 0 2 = 1 then some (s.fld 0x150050 2 12 * 2 ^ 28) else none

/-- The marked window lines that a pooled-memory range touches (R350). -/
def State.markedLines (s : State) (off len : Nat) : List Nat :=
  match s.winPool with
  | none => []
  | some w => s.winDir.filter (fun l => decide (w + 64 * l < off + len) && decide (off < w + 64 * l + 64))

/-- The units of a journal's protected and parity ranges that a byte range touches (R313). -/
def Journal.touched (j : Journal) (off len : Nat) : List Nat :=
  let lo := off - j.base
  let top := min (off + len) (j.base + (j.n + j.np) * 65536)
  if len = 0 ∨ top ≤ j.base ∨ top ≤ off then []
  else (List.range ((top - j.base + 65535) / 65536 - lo / 65536)).map (· + lo / 65536)

/-- The units of the journals that a range touches and that must be saved before it is written, as communicator and unit (R319): after the first
commit, with JMODE 0, the protected and parity units not saved since the last commit. -/
def State.unsavedUnits (s : State) (off len : Nat) : List (Nat × Nat) :=
  s.journals.flatMap (fun j =>
    if j.jmode || !j.committed || j.st == .restoring then []
    else ((j.touched off len).filter (fun u => !j.saved.contains u)).map (fun u => (j.comm, u)))

/-- A range lies in the commit area of a journal that is being restored: writes wait (R322). -/
def State.restoringAt (s : State) (off len : Nat) : Bool :=
  s.journals.any (fun j => j.st == .restoring && !(j.touched off len).isEmpty)

/-- A write of a range of pooled memory waits: for the save of a unit, for the end of a restore, or for a lost line (R291, R319, R322). -/
def State.writeWaits (s : State) (off len : Nat) : Bool :=
  !(s.unsavedUnits off len).isEmpty || s.restoringAt off len || s.lineLost off len

/-- Writes pooled memory: at once, or after the snoops of marked window lines (R350) and the saves of unsaved units (R319).
The first result says that the bytes are placed. -/
def State.poolWrite (s : State) (off : Nat) (bs : List Byte) (t : Ticket) : Bool × State :=
  let marked := s.markedLines off bs.length
  if !marked.isEmpty then
    let fresh := marked.filter (fun l => !(s.winWaits.any (fun w => (s.markedLines w.off w.data.length).contains l)))
    (false, { (fresh.foldl (fun s l => (s.emit (.biSnp l)).count 0x240048) s) with
      winWaits := s.winWaits ++ [{ off, data := bs, ticket := t }] })
  else if s.writeWaits off bs.length then
    (false, { s with unitWaits := s.unitWaits ++ [{ off, data := bs, ticket := t }] })
  else (true, s.pwrite off bs)

/-- A write of the node's own engines to pooled memory that nothing waits for: marked window lines are snooped first (R350). -/
def State.engineWrite (s : State) (off : Nat) (bs : List Byte) : State :=
  if (s.markedLines off bs.length).isEmpty then s.pwrite off bs else (s.poolWrite off bs .nobody).2

/-- Writes to local memory of any space; the result counts the placements that are still to come to the ticket. -/
def State.writeLocal (s : State) (f : Nat) (pasid : BitVec 20) (sp : Space) (addr : DWord) (bs : List Byte) (t : Ticket) : Nat × State :=
  if bs.isEmpty then (0, s)
  else match sp with
    | .pool => let r := s.poolWrite addr.toNat bs t; (if r.1 then 0 else 1, r.2)
    | .accel =>
      let ps := awrPieces (bs.length / 4096 + 2) (addr.toNat % 2 ^ 38) bs
      (ps.length, ps.foldl (fun s p => s.awr (addr.toNat / 2 ^ 38 % 4) p.1 p.2 t) s)
    | .hostva => s.hostWriteAll (bs.length / 4096 + 2) f pasid addr bs t

/-! ## Remote addresses (R49, R117) -/

def raForm (a : DWord) : Nat := a.toNat / 2 ^ 62
def raNode (a : DWord) : Nat := a.toNat / 2 ^ 42 % 2 ^ 20
def raSpace (a : DWord) : Nat := a.toNat / 2 ^ 40 % 4
def raOffset (a : DWord) : Nat := a.toNat % 2 ^ 40

/-- The decode reasons of a remote address with a range of len bytes; signal says that space 2 is allowed (R49, R117).
comm is the rank count of the bound communicator where it is usable, bound whether the queue has one. -/
def remoteReasons (a : DWord) (len : Nat) (signal : Bool) (bound : Bool) (ranks : Option Nat) : List Nat :=
  reasons [(raForm a == 2, 3), (raSpace a == 3, 3), (raSpace a == 2 && !signal, 0xA),
    (raForm a == 3 && raNode a != 0, 2), (raForm a == 1 && !bound, 0xA),
    (raForm a == 1 && bound && ranks == none, 9),
    (raForm a == 1 && bound && (match ranks with | some p => decide (raNode a ≥ p) | none => false), 4),
    (decide (raOffset a + len > 2 ^ 40), 4),
    (raSpace a == 1 && decide (len > 0) && raOffset a / 2 ^ 38 != (raOffset a + len - 1) / 2 ^ 38, 4)]

/-- Cuts a range at the 4,096 B boundaries of a remote address: offset and length of each packet (R136). -/
def cutRange : Nat → DWord → Nat → Nat → List (Nat × Nat)
  | 0, _, _, _ => []
  | fuel + 1, a, off, len =>
    if len = 0 then []
    else
      let n := min len (4096 - (a.toNat + off) % 4096)
      (off, n) :: cutRange fuel a (off + n) (len - n)

end Sys2Proof.Machine
end

