-- ==== Sys2Proof/Machine/Monitor.lean ====
section
/-! DEFINITION. Stream monitors: what they cover, their verdicts and alive checks (R386 to R393). -/

namespace Sys2Proof.Machine

/-- Overwrites bytes of a buffer from off on. -/
def patchBytes (buf : List Byte) (off : Nat) (bs : List Byte) : List Byte := buf.take off ++ bs ++ buf.drop (off + bs.length)

/-- The inline payload of a PUTI: 48 bytes of the entry, then the extension (R54). -/
def putiBytes (i : Fetched) : List Byte :=
  leBytes 48 (entBytes i.w 16 48) ++ (match i.x with | some x => leBytes 64 x.toNat | none => [])

/-- A register of monitor m of function f (R386). -/
def monReg (f m off : Nat) : Nat := page f (0x1400 + 0x40 * m + off)

/-- Bit of OPMASK for an opcode: PUT, PUTI, GET, COPY (R386). -/
def monOp (op : BitVec 8) : Option Nat :=
  if op == 0x10 then some 16 else if op == 0x11 then some 17 else if op == 0x12 then some 18 else if op == 0x13 then some 19 else none

/-- The bytes of an instruction on a stream, 0 SOURCE or 1 DEST (R387). -/
def coveredBytes (r : Run) (stream : Nat) : List Byte :=
  let op := entOpcode r.ins.w
  let b := (r.bufs.head?).elim [] (fun x => x.2.1)
  if op == 0x11 then (if stream = 0 then (putiBytes r.ins).take (entOpx r.ins.w 0 7) else [])
  else if op == 0x10 then (if stream = 0 then b else [])
  else if op == 0x12 then (if stream = 1 then b else [])
  else b

/-- The instruction has bytes on the stream (R387). -/
def coversBytes (i : Fetched) (stream : Nat) : Bool :=
  let op := entOpcode i.w
  if op == 0x11 then stream == 0 && entOpx i.w 0 7 != 0
  else if op == 0x10 then stream == 0 && entBytes i.w 28 4 != 0
  else if op == 0x12 then stream == 1 && entBytes i.w 28 4 != 0
  else entBytes i.w 28 4 != 0

/-- The monitors of the queue's function that cover a run as it starts take it (R387). -/
def State.monStart (s : State) (r : Run) : State :=
  match monOp (entOpcode r.ins.w) with
  | none => s
  | some b =>
    let f := s.ownerOf r.g
    let ms := (List.range 8).filter (fun m => s.bit (monReg f m 0) 0 && s.fld (monReg f m 4) 0 14 == s.relQ r.g && s.bit (monReg f m 4) b
      && coversBytes r.ins (s.fld (monReg f m 0) 3 2))
    { s with mons := s.mons ++ ms.map (fun m => { f, m, rid := r.rid, eseq := r.ins.pos, q := s.relQ r.g, ended := none, bytes := [] }) }

/-- The value of some bytes: CRC-32C or CRC-64, from a running value where one is given, final where fin is set (R389, R392). -/
def monValue (alg : Bool) (start : Option DWord) (fin : Bool) (bs : List Byte) : DWord :=
  if alg then
    let r := crcRun poly64 (start.getD 0xFFFFFFFFFFFFFFFF) bs
    if fin then r ^^^ 0xFFFFFFFFFFFFFFFF else r
  else
    let r := crcRun polyC ((start.map (fun v => v.setWidth 32)).getD 0xFFFFFFFF) bs
    (if fin then r ^^^ 0xFFFFFFFF else r).setWidth 64

/-- A failure of a monitor (R391): the sticky bit (10 MISMATCH, 11 ALIVE_FAIL), MON_LAST_ESEQ, SEQ, the fault, MSI-X, the count. -/
def State.monFail (s : State) (f m q : Nat) (eseq : Word) (bit : Nat) (computed expected : Nat) : State :=
  let st := monReg f m 0x28
  let s := (((s.setFld st bit 1 1).setReg (monReg f m 0x30) eseq).bumpSeq st).raise f (if bit = 10 then checkMonitorMismatch else checkMonitorAlive)
    q eseq m computed expected
  let s := if s.bit (monReg f m 0) 7 then s.emit (.msix f (s.fld (monReg f m 0xC) 0 11)) else s
  s.count (if bit = 10 then 0x250030 else 0x250038)

/-- The check-value verdict of PER_INSTR (R389): whether it passed. -/
def State.monVerdict (s : State) (f m q : Nat) (eseq : Word) (bs : List Byte) : Bool × State :=
  let alg := s.bit (monReg f m 0) 1
  let n := if alg then 8 else 4
  let src := s.fld (monReg f m 0) 5 2
  let s := (s.setReg (monReg f m 0x2C) (s.reg (monReg f m 0x2C) + 1)).count 0x250028
  if src = 2 ∧ bs.length < n then (false, s.monFail f m q eseq 10 0 0)
  else
    let body := if src = 2 then bs.take (bs.length - n) else bs
    let v := monValue alg none true body
    let want : DWord := if src = 2 then BitVec.ofNat 64 (leNat (bs.drop (bs.length - n))) else s.reg64 (monReg f m 0x10)
    let s := s.setReg64 (monReg f m 0x18) v
    if src = 0 ∨ v = want then (true, s) else (false, s.monFail f m q eseq 10 v.toNat want.toNat)

/-- Bytes of the alive field (R386 ALIVE_W). -/
def aliveWidth (w : Nat) : Nat := if w = 0 then 0 else 2 ^ (w - 1)

/-- The alive check of an instruction whose check value passed (R390). -/
def State.monAlive (s : State) (x : MonItem) : State :=
  let w := aliveWidth (s.fld (monReg x.f x.m 0) 8 3)
  let off := (s.reg (monReg x.f x.m 8)).toNat
  if w = 0 then s
  else
    let last := (s.reg64 (monReg x.f x.m 0x20)).toNat
    let v := leNat ((x.bytes.drop off).take w)
    let st := monReg x.f x.m 0x28
    if off + w > x.bytes.length then s.monFail x.f x.m x.q x.eseq 11 0 last
    else if s.bit st 12 && (if s.bit (monReg x.f x.m 0) 11 then v != (last + 1) % 2 ^ (8 * w) else v == last) then
      s.monFail x.f x.m x.q x.eseq 11 v last
    else (s.setReg64 (monReg x.f x.m 0x20) (BitVec.ofNat 64 v)).setFld st 12 1 1

/-- The turn of a covered instruction in ascending ESEQ: RUNNING takes its bytes, and its alive check is made (R390, R392). -/
def State.monTurn (s : State) (x : MonItem) : State :=
  if x.ended != some true then s
  else
    let s := if s.bit (monReg x.f x.m 0) 2 then
        ((s.setReg64 (monReg x.f x.m 0x18) (monValue (s.bit (monReg x.f x.m 0) 1) (some (s.reg64 (monReg x.f x.m 0x18))) false x.bytes)).setReg
          (monReg x.f x.m 0x2C) (s.reg (monReg x.f x.m 0x2C) + 1)).count 0x250028
      else s
    s.monAlive x

/-- The covered instructions of a monitor whose turn has come, oldest first. -/
def State.monDrain : Nat → State → Nat → Nat → State
  | 0, s, _, _ => s
  | n + 1, s, f, m => match s.mons.find? (fun x => x.f == f && x.m == m) with
    | none => s
    | some x => if x.ended.isNone then s else (({ s with mons := s.mons.erase x } : State).monTurn x).monDrain n f m

/-- A covered instruction completes: its verdict, or SKIPPED where its status is an error (R388, R389). -/
def State.monOver (s : State) (r : Run) (err : Bool) (x : MonItem) : State :=
  let bs := coveredBytes r (s.fld (monReg x.f x.m 0) 3 2)
  let v := if err then (false, s.setFld (monReg x.f x.m 0x28) 13 1 1)
    else if s.bit (monReg x.f x.m 0) 2 then (true, s)
    else s.monVerdict x.f x.m x.q x.eseq bs
  ({ v.2 with mons := v.2.mons.map (fun y => if y = x then { x with ended := some v.1, bytes := bs } else y) } : State).monDrain (s.mons.length + 1) x.f x.m

/-- The monitors hear of a run that completes. -/
def State.monComplete (s : State) (r : Run) (err : Bool) : State :=
  (s.mons.filter (fun x => x.rid == r.rid)).foldl (fun s x => s.monOver r err x) s

/-! ## ENABLE (R386, R393) -/

/-- ENABLE goes to 0: nothing that starts from then on is covered, and the monitor drains. -/
def State.monDisable (s : State) (f m : Nat) : State :=
  if s.bit (monReg f m 0) 0 then (s.setFld (monReg f m 0) 0 1 0).setFld (monReg f m 0x28) 8 2 2 else s

/-- DESTROY of queue q disables the monitors bound to it (R386). -/
def State.monUnbind (s : State) (f q : Nat) : State :=
  (List.range 8).foldl (fun s m => if s.fld (monReg f m 4) 0 14 == q then s.monDisable f m else s) s

/-- MON_CTL selects no reserved value, and not TRAILER with RUNNING (R386). -/
def State.monCtlOk (s : State) (f m : Nat) : Bool :=
  let a := monReg f m 0
  decide (s.fld a 3 2 < 2) && s.fld a 5 2 != 3 && decide (s.fld a 8 3 < 5) && !(s.fld a 5 2 == 2 && s.bit a 2)

/-- ENABLE is written (R386, R393). -/
def execMonEnable (f m : Nat) (on : Bool) (s : State) : Host.Outcome State Fault Refusal :=
  .next (if !on then s.monDisable f m
    else if s.monCtlOk f m then (s.setFld (monReg f m 0) 0 1 1).setFld (monReg f m 0x28) 8 2 1
    else s.count 0x250040)

/-- Every covered instruction has its verdicts: IDLE, and a RUNNING monitor with MON_EXPECT makes its compare (R392, R393). -/
def execMonDrainDone (f m : Nat) (s : State) : Host.Outcome State Fault Refusal :=
  .next (if s.fld (monReg f m 0x28) 8 2 == 2 && !s.mons.any (fun x => x.f == f && x.m == m) then
      let s := s.setFld (monReg f m 0x28) 8 2 0
      if s.bit (monReg f m 0) 2 && s.fld (monReg f m 0) 5 2 == 1 then
        let v := monValue (s.bit (monReg f m 0) 1) (some (s.reg64 (monReg f m 0x18))) true []
        let want := s.reg64 (monReg f m 0x10)
        if v = want then s
        else s.monFail f m (s.fld (monReg f m 4) 0 14) (s.reg (monReg f m 0x30)) 10 v.toNat want.toNat
      else s
    else s)

end Sys2Proof.Machine
end

