-- ==== Sys2Proof/Machine/Queue.lean ====
section
/-! DEFINITION. Starting and completing the instructions of a queue: the next instance, the conditions on its start, completion records,
their counter updates and interrupts (R42 to R47, R65, R98 to R106, R110). -/

namespace Sys2Proof.Machine

/-! ## The next instruction of a queue -/

/-- Sign extension of a 32-bit stride to 64 bits, i times (R65). -/
def strideTimes (st : Word) (i : Nat) : DWord := (st.signExtend 64) * BitVec.ofNat 64 i

/-- Qword k of entry e replaced by that of the fetched entry src, with x added (R65). -/
def patchQword (e src : Entry) (k : Nat) (x : DWord) : Entry :=
  let old : DWord := src.extractLsb' (64 * k) 64
  (e &&& ~~~ ((BitVec.ofNat 512 (2 ^ 64 - 1)) <<< (64 * k))) ||| (((old + x).setWidth 512) <<< (64 * k))

/-- A patch descriptor: body position, qword, stride (R64). -/
structure Patch where
  entry : Nat
  qword : Nat
  stride : Word
  deriving DecidableEq, Repr

/-- Descriptor n of a REPEAT: 0 to 5 in the primary entry, 6 to 13 in the extension. -/
def patchRaw (i : Fetched) (n : Nat) : DWord :=
  if n < 6 then ent64 i.w (16 + 8 * n) else match i.x with
    | some x => ent64 x (8 * (n - 6))
    | none => 0

def patchOf (d : DWord) : Patch :=
  { entry := (d.extractLsb' 0 8).toNat, qword := (d.extractLsb' 8 8).toNat, stride := d.extractLsb' 32 32 }

/-- N, NPATCH and the patches of a REPEAT (R64). -/
def repN (i : Fetched) : Nat := entOpx i.w 0 6
def repNPatch (i : Fetched) : Nat := entOpx i.w 6 4
def repPatches (i : Fetched) : List Patch := (List.range (repNPatch i)).map (fun n => patchOf (patchRaw i n))

/-- The first body position of body instruction k (extension entries counted). -/
def bodyPos (body : List Fetched) (k : Nat) : Nat :=
  ((body.take k).map (fun b => if b.x.isSome then 2 else 1)).sum

/-- Body instruction k of a REPEAT on pass i, its qwords patched (R65). -/
def repInstance (r : Rep) : Option Fetched :=
  (r.body[r.next]?).map (fun src =>
    let p0 := bodyPos r.body r.next
    (repPatches r.ins).foldl (fun b p =>
      if p.entry = p0 then { b with w := patchQword b.w src.w p.qword (strideTimes p.stride r.pass) }
      else if p.entry = p0 + 1 then { b with x := b.x.map (fun x => patchQword x (src.x.getD 0) p.qword (strideTimes p.stride r.pass)) }
      else b) src)

/-- The next instruction instance of a queue in ring order, its pass number and whether it is consumed by a malformed REPEAT. A REPEAT waits for its
body, which one with N above 32 does not have (R64, R66, R110). -/
def Queue.nextInst (q : Queue) : Option (Fetched × Nat × Bool) :=
  match q.rep with
  | some r => (repInstance r).map (fun i => (i, r.pass, false))
  | none => match q.held with
    | [] => none
    | a :: rest =>
      if !a.doomed && entOpcode a.ins.w == 0x28 && rest.isEmpty && q.collect.isSome && decide (repN a.ins ≤ 32) then none else some (a.ins, 0, a.doomed)

/-- Takes the next instance off the queue, and with it the outcome of its hold: a body instance ends its REPEAT's starts after the last of the last pass (R65). -/
def Queue.popInst (q : Queue) : Queue :=
  let q : Queue := { q with holdFailed := [] }
  match q.rep with
  | some r =>
    if r.next + 1 < r.body.length then { q with rep := some { r with next := r.next + 1 } }
    else if r.pass + 1 < (entW1 r.ins.w).toNat then { q with rep := some { r with next := 0, pass := r.pass + 1 } }
    else { q with rep := none }
  | none => { q with held := q.held.drop 1 }

/-! ## Conditions on a start (R44, R60, R63, R105, R106, R115, R359) -/

/-- The incomplete instructions of a queue that an ORDER or FENCE waits for: all but the REPEAT whose body is running (R44). -/
def State.earlier (s : State) (g : Nat) : List Run :=
  let q := s.queue g
  s.runs.filter (fun r => r.g == g && (match q.rep with | some p => r.rid != p.rid | none => true))

/-- Function f's queues may fetch and start: it is not being reset, not paused, and the node has not bound off. -/
def State.funcRuns (s : State) (f : Nat) : Bool :=
  !s.resetting f && !s.boundOff && !s.bit (0x191000 + 0x20 * f + 8) 5

/-- The costs of a grant fit into the queue's and the function's buckets (R381). -/
def State.bucketsAllow (s : State) (g : Nat) (cost : Nat) : Bool :=
  let f := s.ownerOf g
  (!s.bit (0x1B0000 + 0x40 * f + 0x30) 8 || decide (cost ≤ (s.func f).tokens)) && ((s.queue g).rate == 0 || decide (cost ≤ (s.queue g).tokens))

/-- The queue may start its next instruction, its ORDER left aside: it exists, holds no record, has fewer than 1,024 started instructions,
no WAIT or FENCE holds it, and its buckets hold 64 B, the least that its first grant costs (R44, R105, R106, R378, R381). -/
def State.mayStart (s : State) (g : Nat) : Bool :=
  let q := s.queue g
  let mine := s.runs.filter (fun r => r.g == g)
  q.created && q.heldRecs.isEmpty && decide (mine.length < 1024) && s.funcRuns (s.ownerOf g)
    && !(mine.any (fun r => r.phase == .counter || entOpcode r.ins.w == 0x23)) && s.bucketsAllow g 64

/-- The condition of ORDER on the next entry: of AFTER_PLACED, every earlier write is known to be placed, or the request to its node has failed (R44). -/
def State.orderMet (s : State) (g : Nat) (e : Entry) : Bool :=
  match entOrder e with
  | 1 => (s.earlier g).isEmpty
  | 2 => (s.earlier g).isEmpty && (s.queue g).unplaced.all (fun u => u.2.2.2 || (s.queue g).holdFailed.contains u.1)
  | _ => true

/-! ## Runs -/

/-- The vector of SOL: MSI-X of the queue, kept from the start (R46, R96). -/
def solOf (d : Entry) (e : Entry) : Option Nat := if entSol e then some (qVector d) else none

/-- The global counter that CNT_SEL names: none where it is 0 or names an entry with VALID 0 (R45). -/
def State.ctrOf (s : State) (g : Nat) (e : Entry) : Option Nat :=
  (qCtab (s.queue g).desc (entCntSel e)).map (fun c => s.cbase (s.ownerOf g) + c)

/-- A fresh run of an instance. -/
def State.newRun (s : State) (g : Nat) (i : Fetched) (iter : Nat) : Run where
  rid := s.nextRid
  g := g
  ins := i
  iter := BitVec.ofNat 32 iter
  parent := (s.queue g).rep.map (·.rid)
  comm := if qCommValid (s.queue g).desc then some (qComm (s.queue g).desc) else none
  ctr := s.ctrOf g i.w
  sol := solOf (s.queue g).desc i.w
  startT := s.time
  phase := .sending
  bufs := []
  unsent := []
  outstanding := 0
  writes := 0
  acked := 0
  fails := []
  status := stOk
  detail := 0
  result := 0
  info := 0
  flags := 0
  reached := []
  covers := []
  covErr := none
  asks := []
  askFails := []

/-- Adds a run and counts it as started. -/
def State.addRun (s : State) (r : Run) : State := { s with runs := s.runs ++ [r], nextRid := s.nextRid + 1 }

/-- The completion record that a run leaves (R86); DETAIL is 0 unless the status is MALFORMED. -/
def Run.record (r : Run) : CRec where
  status := r.status
  opcode := entOpcode r.ins.w
  eseq := r.ins.pos
  iter := r.iter
  flags := r.flags
  detail := if r.status == stMalformed then r.detail else 0
  result := r.result
  info := r.info
  ctr := r.ctr
  err := isError r.status
  sol := r.sol
  startT := r.startT

/-- What a completed run leaves to a run that covers it: the first error in ring order (R56). -/
def Run.uncover (x r : Run) : Run :=
  if x.covers.contains r.rid then
    { x with
      covers := x.covers.erase r.rid
      reached := x.reached ++ r.reached.filter (fun n => !x.reached.contains n)
      covErr := if r.status == stOk then x.covErr else match x.covErr with
        | some (p, st) => if r.rid < p then some (r.rid, r.status) else some (p, st)
        | none => some (r.rid, r.status) }
  else x

/-- The ticket of a local write, or read, of a run. -/
def Ticket.ofRun (rid : Nat) (t : Ticket) : Bool := match t with
  | .run r _ => r == rid
  | .coll r _ => r == rid
  | _ => false

/-- The residual: what has been encoded is written whatever the status (R194). -/
def Ticket.residual (rid : Nat) (t : Ticket) : Bool := t == .run rid wResid

/-- The operands of a run: those that its collective has checked, and its buffers'. -/
def State.opndsOf (s : State) (r : Run) : List Opnd :=
  (s.colls.find? (fun c => c.rid == r.rid)).elim [] (fun c => c.opnds) ++ r.bufs.map (·.1)

/-- The first byte of the operand that a range of a run lies in (R48). -/
def State.wholeAddr (s : State) (r : Run) (o : Opnd) : DWord :=
  ((s.opndsOf r).find? (fun x => x.space == o.space && decide (x.addr.toNat ≤ o.addr.toNat) && decide (o.addr.toNat + o.len ≤ x.addr.toNat + x.len))).elim
    o.addr (·.addr)

/-- Local writes of a failed run that its record waits for: those on their way to an accelerator, and the residual's (R45, R194). -/
def State.writesLeft (s : State) (rid : Nat) : Bool :=
  s.accels.any (fun a => a.2.ops.any (fun o => o.kind == .awr && o.ticket.ofRun rid)) || s.parks.any (fun p => p.ticket.residual rid)
    || s.winWaits.any (fun w => w.ticket.residual rid) || s.unitWaits.any (fun w => w.ticket.residual rid)

/-- The local writes of a failed run that have not been made are not made: nothing of it, and no marker, is written after its record (R45, R172). -/
def State.dropWrites (s : State) (rid : Nat) : State :=
  let keep := fun (t : Ticket) => !t.ofRun rid || t.residual rid
  { s with parks := s.parks.filter (fun p => keep p.ticket), winWaits := s.winWaits.filter (fun w => keep w.ticket),
           unitWaits := s.unitWaits.filter (fun w => keep w.ticket) }

/-- What a collective's record says whatever its status: DROPS, ARITH, and the bytes written where INFO is no address (R86, R88). -/
def State.report (s : State) (r : Run) : Run :=
  match s.colls.find? (fun c => c.rid == r.rid) with
  | none => r
  | some c => { r with
      flags := r.flags ||| (if c.drops > 0 then flDrops else 0) ||| (if c.arith.isEmpty then 0 else flArith)
      info := if r.status == stAccessLocal || r.status == stTranslation then r.info else BitVec.ofNat 64 c.wrote }

/-- The transactions of a run that ends with an error status: those of its requests, and of the contributions of its collective (R111). -/
def State.runTxns (s : State) (rid : Nat) : List Nat :=
  let c := s.colls.find? (fun c => c.rid == rid)
  let mine := fun (x : Retained) => x.rid == some rid || (match x.pkt.body, c with
    | .coll .contrib f, some c => f.comm.toNat == c.comm && f.cseq == c.cseq
    | _, _ => false)
  s.paths.flatMap (fun np => ((np.2.retained ++ np.2.waitq).filter mine).filterMap (·.txn))

/-- No contribution of a collective waits for a transaction on a queue any more (R112). -/
def Queue.endTxnWait (q : Queue) : Queue := { q with txnColl := false, txnWait := if q.noted == .txn then q.txnWait else none }

/-- A run completes: it leaves the started list, its record waits to be written, the runs that cover it hear of it, its transactions are
released and its retained packets freed where it failed (R30, R31, R111). -/
def State.completeNow (s : State) (r : Run) : State :=
  let s := s.monComplete r (isError r.status)
  let s : State := { s with runs := (s.runs.filter (fun x => x.rid != r.rid)).map (fun x => x.uncover r) }
  let coll := s.colls.any (fun c => c.rid == r.rid)
  let s := s.modQueue r.g (fun q => if coll then q.endTxnWait else q)
  let s := s.modQueue r.g (fun q =>
    { q with completed := q.completed + 1, heldRecs := q.heldRecs ++ [r.record],
             unplaced := q.unplaced ++ r.reached.map (fun n => (n, !isError r.status, r.rid, false)) })
  if isError r.status then
    let mine := fun (x : Retained) => x.rid == some r.rid
    let gone := s.runTxns r.rid
    ((s.paths.filter (fun np => (np.2.retained ++ np.2.waitq).any mine)).map (·.1)).foldl (fun s n => s.modPath n (fun p =>
        { p with retained := p.retained.filter (fun x => !mine x), waitq := p.waitq.filter (fun x => !mine x) }))
      { s with txns := s.txns.filter (fun t => !gone.contains t.num) }
  else s

/-- A run completes with the status it has; one that fails ends first the local writes that it has made, and of several errors the one that R88 puts
first stands. -/
def State.complete (s : State) (r : Run) : State :=
  let r := s.report r
  if isError r.status then
    let r := match s.run? r.rid with
      | some x => if x.phase == .ending && worst x.status r.status == x.status then x else r
      | none => r
    let s := s.dropWrites r.rid
    if s.writesLeft r.rid then s.setRun { r with phase := .ending, unsent := [] } else s.completeNow r
  else s.completeNow r

/-- Completes a run with a status, and nothing else to report. -/
def State.completeWith (s : State) (r : Run) (st : BitVec 8) (detail : Nat := 0) (info : DWord := 0) : State :=
  s.complete { r with status := st, detail := BitVec.ofNat 8 detail, info }

/-! ## Counter updates and interrupts (R45, R46, R108) -/

/-- The counter update and the SOL interrupt that follow a record (R45, steps 3 and 4). A counter outside the grant is discarded (R108). -/
def State.afterRecord (s : State) (g : Nat) (ctr : Option Nat) (err : Bool) (sol : Option Irq) : State :=
  let f := s.ownerOf g
  let s := match ctr with
    | none => s
    | some c =>
      if s.cbase f ≤ c ∧ c < s.cbase f + s.ccount f then s.setRowc c (rowMark (rowAdd (s.rowc c) 1) err false)
      else s.count (page f 0x2020)
  match sol with
  | none => s
  | some (.attach a q cpi) => s.attachSend a { amsg 0x04 with arg2 := BitVec.ofNat 32 q, arg0 := cpi.setWidth 64 }
  | some (.msix f v) => s.emit (.msix f v)

/-- The interrupt of the next record of queue g, by the space of its completion ring (R46). -/
def State.irqOf (s : State) (g : Nat) (sol : Option Nat) : Option Irq :=
  let q := s.queue g
  sol.map (fun v => if qCringSp q.desc = 1 then .attach ((qCringBase q.desc).toNat / 2 ^ 38 % 4) (s.relQ g) (q.cpi + 1) else .msix (s.ownerOf g) v)

/-! ## Writing records (R103 to R105) -/

/-- The completion ring has room (R105). -/
def Queue.cringRoom (q : Queue) : Bool := decide ((q.cpi - q.cci).toNat < qCringSize q.desc)

/-- A record has been written: CPI advances and the histogram counts it (R104, R421). -/
def State.recordWritten (s : State) (g : Nat) (r : CRec) : State :=
  s.modQueue g (fun q => { q with
    cpi := q.cpi + 1, heldRecs := q.heldRecs.drop 1, compFault := false
    stallRaised := q.stallRaised && !(q.heldRecs.drop 1).isEmpty
    hist := Tab.put (fun _ => 0) q.hist (histBucket (s.time - r.startT)) (Tab.get (fun _ => 0) q.hist (histBucket (s.time - r.startT)) + 1) })

/-- A ring access has failed: RING_FAULT once per episode (R103). comp names the completion ring; why is 1 translation, 2 key, 3 read error. -/
def State.ringFails (s : State) (g : Nat) (comp : Bool) (why : Nat) (addr : DWord) : State :=
  let q := s.queue g
  if (if comp then q.compFault else q.workFault) then s
  else (s.setQueue g (if comp then { q with compFault := true } else { q with workFault := true })).raise (s.ownerOf g) ringFault
    (s.relQ g) 0 ((if comp then 1 else 0) + 2 * why) addr.toNat 0

/-- Tries to write the oldest held record of a queue; none where it has to wait. retry repeats an access that is failing (R103). -/
def State.tryRecord (s : State) (g : Nat) (retry : Bool) : Option State :=
  let q := s.queue g
  match q.heldRecs with
  | [] => none
  | r :: _ =>
    if !q.cringRoom || (q.compFault && !retry) then none
    else
      let size := qCringSize q.desc
      let va := qCringBase q.desc + BitVec.ofNat 64 (32 * (q.cpi.toNat % size))
      let bs := recordBytes (s.relQ g) (lap q.cpi size) r
      let f := s.ownerOf g
      if qCringSp q.desc = 1 then
        if s.localKeyOk f { space := .accel, addr := va, len := 32, key := qRingKey q.desc } then
          some ((s.recordWritten g r).awr (va.toNat / 2 ^ 38 % 4) (va.toNat % 2 ^ 38) bs (.record g r.ctr r.err (s.irqOf g r.sol)))
        else if q.compFault then none else some (s.ringFails g true 2 va)
      else if s.canPost f (qPasid q.desc) va then
        some (((s.recordWritten g r).hostPost f (qPasid q.desc) va bs).afterRecord g r.ctr r.err (s.irqOf g r.sol))
      else if s.parks.any (·.ticket == .cring g) then none
      else some (s.park { f, pasid := qPasid q.desc, va, len := 32, write := true, data := [], off := 0, ticket := .cring g, st := .waiting })

/-! ## Charges of the scheduler (R378, R381) -/

/-- Both buckets lose the cost together, where they apply (R381). -/
def State.chargeBuckets (s : State) (g : Nat) (cost : Nat) : State :=
  let f := s.ownerOf g
  let s := if s.bit (0x1B0000 + 0x40 * f + 0x30) 8 then s.setFunc f { s.func f with tokens := (s.func f).tokens - cost } else s
  if (s.queue g).rate == 0 then s else s.modQueue g (fun q => { q with tokens := q.tokens - cost })

/-- Function quantum and queue quantum in bytes (R379). -/
def State.fq (s : State) (f : Nat) : Nat := max 1 (s.fld (0x1B0000 + 0x40 * f + 0x30) 0 8) * 512
def Queue.qq (q : Queue) : Nat := q.weight * 1024

/-- A deficit below 4,160 gains its quantum, at most up to quantum + 4,160 (R379). -/
def topUp (d quantum : Nat) : Nat := min (d + quantum) (quantum + 4160)

/-- Visits of the scheduler to one chosen queue until its deficit and its function's suffice, then the charge (R379). -/
def visits : Nat → Nat → Nat → Nat
  | 0, d, _ => d
  | k + 1, d, quantum => if d < 4160 then visits k (topUp d quantum) quantum else d

/-- Deficits are held per sequencer and function. -/
def State.fdefOf (s : State) (g f : Nat) : Nat := Tab.get (fun _ => 0) s.fdef (256 * (g / 256) + f)
def State.setFdef (s : State) (g f : Nat) (v : Nat) : State := { s with fdef := Tab.put (fun _ => 0) s.fdef (256 * (g / 256) + f) v }

/-- The scheduler's grant of work of a cost to queue g: both deficits and both buckets lose it (R378, R379, R381). -/
def State.chargeGrant (s : State) (g cost : Nat) : State :=
  let f := s.ownerOf g
  let s := s.setFdef g f (visits 16 (s.fdefOf g f) (s.fq f) - cost)
  (s.modQueue g (fun q => { q with qdef := visits 16 q.qdef q.qq - cost })).chargeBuckets g cost

/-- The grant of the start of an instruction that injects no packet of its own: cost 64 (R378). -/
def State.chargeStart (s : State) (g : Nat) : State := s.chargeGrant g 64
def State.chargeStartIf (s : State) (b : Bool) (g : Nat) : State := if b then s.chargeStart g else s

end Sys2Proof.Machine
end

