-- ==== Sys2Proof/Machine/Fabric.lean ====
section
/-! DEFINITION. Node ids and path contexts: resolving an address, the window and the gauge, injection under the scheduler, delivery,
acknowledgement and retransmission (R111, R112, R118 to R121, R223, R224, R238 to R244, R378 to R381). -/

namespace Sys2Proof.Machine

/-! ## Coordinates (R223, R224) -/

def coord (id n : Nat) : Nat := id / 16 ^ n % 16
def withCoord (id n v : Nat) : Nat := id - coord id n * 16 ^ n + v * 16 ^ n
/-- S_n: 0 stands for an unused dimension here (R225 SZM1). -/
def State.dimSize (s : State) (n : Nat) : Nat := let z := s.fld 0x110008 (4 * n) 4; if z = 0 then 0 else z + 1
/-- The dimensions in use. -/
def State.dims (s : State) : List Nat := (List.range 5).filter (fun n => s.dimSize n != 0)
def State.diff (s : State) (a b : Nat) : List Nat := s.dims.filter (fun n => coord a n != coord b n)
/-- A node id whose coordinates lie within the programmed sizes (R118). -/
def State.namesNode (s : State) (id : Nat) : Bool :=
  (List.range 5).all (fun n => if s.dimSize n = 0 then coord id n == 0 else decide (coord id n < s.dimSize n))

/-! ## Bytes 0 to 31 of a header (R230) -/

/-- Bits lo to lo + w - 1 of the n bytes from byte k on (R3). -/
def hdrBits (bs : List Byte) (k n lo w : Nat) : Nat := leNat ((bs.drop k).take n) / 2 ^ lo % 2 ^ w
def hbv (bs : List Byte) (k n lo w : Nat) : BitVec w := BitVec.ofNat w (hdrBits bs k n lo w)
def hbit (bs : List Byte) (k n lo : Nat) : Bool := hdrBits bs k n lo 1 == 1

/-- Bytes 0 to 31 of a header (R230). -/
def parseHdr (b : List Byte) : Hdr where
  dst := hbv b 0 8 0 20
  src := hbv b 0 8 20 20
  cls := hbv b 0 8 40 3
  vc := hbv b 0 8 43 2
  vdim := hbv b 0 8 45 3
  vcoord := hbv b 0 8 48 4
  vphase := hbit b 0 8 52
  ce := hbit b 0 8 53
  ackpkt := hbit b 0 8 54
  hops := hbv b 0 8 56 4
  psn := hbv b 8 4 0 32
  lup := hbv b 12 4 0 32
  plen := hbv b 16 8 0 13
  ttag := hbv b 16 8 16 16

/-! ## Resolving an address (R118 to R121) -/

def State.comm (s : State) (c : Nat) : Option Comm := Tab.get (fun _ => none) s.comms c
def State.setComm (s : State) (c : Nat) (x : Option Comm) : State := { s with comms := Tab.put (fun _ => none) s.comms c x }

/-- Where a packet goes: a node, a lost target, or nowhere until a claim is ready. -/
inductive Dest where
  | node (n : Nat)
  | lost
  | wait
  deriving DecidableEq, Repr

/-- Resolves a remote address, with the binding of the instruction (R118, R119, R120, R121). -/
def State.resolve (s : State) (comm : Option (BitVec 24)) (addr : DWord) : Dest :=
  match raForm addr with
  | 3 => .node s.self
  | 1 =>
    match comm.bind (fun c => s.comm c.toNat) with
    | none => .lost
    | some c => match c.ranks[raNode addr]? with
      | none => .lost
      | some r => match r.state with
        | .ready => if s.lost.contains r.node then .wait else .node r.node
        | .claimed => .wait
        | .abandoned => .lost
  | _ =>
    let n := raNode addr
    if n = s.self then .node n
    else if !s.namesNode n || s.lost.contains n then .lost else .node n

/-! ## The window and the gauge (R238, R244) -/

/-- The lowest unacknowledged PSN, or the next one (R230 LUP). -/
def Path.lup (p : Path) : Word := match p.retained.find? (fun x => !x.acked) with
  | some x => x.pkt.hdr.psn
  | none => p.nextPsn

/-- A packet of a class fits the window of 1,024 positions, of which REQ and FWD hold at most 768 (R238). -/
def Path.windowOpen (p : Path) (cls : BitVec 3) : Bool :=
  decide ((p.nextPsn - p.lup).toNat < 1024)
    && (!(cls == 4 || cls == 5) || decide ((p.retained.filter (fun x => !x.acked && (x.pkt.hdr.cls == 4 || x.pkt.hdr.cls == 5))).length < 768))

/-- The cost of a packet: its bytes, or for a GET request the bytes it asks for, which its response is not charged again (R244, R378). -/
def packetCost (pkt : Packet) : Nat := match pkt.body with
  | .request r => if r.opcode == 0x12 then 64 + r.arg.toNat else 64 + pkt.payload.length
  | .response r => if r.opcode == 0x12 then 0 else 64 + pkt.payload.length
  | _ => 64 + pkt.payload.length

/-- The buckets of the queue that a packet is charged to allow it (R381). -/
def State.grantable (s : State) (x : Retained) : Bool := x.charge.all (fun g => s.bucketsAllow g (packetCost x.pkt))

/-- The first waiting packet whose window is open and whose buckets allow it: a class whose share of the window is full holds no other class back
(R238), and a queue's bucket holds back what comes after of that queue alone (R381). -/
def State.nextOf (s : State) (p : Path) : List Nat → List Retained → Option Retained
  | _, [] => none
  | held, x :: xs =>
    if !p.windowOpen x.pkt.hdr.cls then s.nextOf p held xs
    else if x.charge.any held.contains then s.nextOf p held xs
    else if !s.grantable x then s.nextOf p (x.charge.toList ++ held) xs
    else some x
def State.nextWaiting (s : State) (p : Path) : Option Retained := s.nextOf p [] p.waitq

/-- The copies of the responses to requests whose PSN a predicate covers go (R137, R242). -/
def Path.dropReplies (p : Path) (gone : Word → Bool) : Path :=
  { p with retained := p.retained.filter (fun x => !x.reply.any gone), waitq := p.waitq.filter (fun x => !x.reply.any gone) }

/-- The copies of the responses to one request. -/
def Path.repliesTo (p : Path) (psn : Word) : List Retained := p.retained.filter (fun x => x.reply == some psn)

/-- Sends a packet toward a peer on its path context: the next PSN, a retained copy with the time of its first transmission, gauge tokens charged, into the
router (R238, R421); a contribution's grant is charged to its queue (R378). -/
def State.inject (s : State) (dst : Nat) (x : Retained) : State :=
  let s := x.charge.elim s (fun g => s.chargeGrant g (packetCost x.pkt))
  let p := s.path dst
  let h := { x.pkt.hdr with
                            psn := p.nextPsn, lup := p.lup, dst := BitVec.ofNat 20 dst, src := BitVec.ofNat 20 s.self,
                            plen := BitVec.ofNat 13 x.pkt.payload.length }
  let x := { x with pkt := { x.pkt with hdr := h }, sentT := if x.tries = 0 then s.time else x.sentT, tries := x.tries + 1, charge := none }
  let s := s.setPath dst { p with nextPsn := p.nextPsn + 1, retained := p.retained ++ [x], tokens := p.tokens - packetCost x.pkt }
  if dst = s.self then { s with localIn := s.localIn ++ [{ pkt := x.pkt, port := none, originated := true }] }
  else { s with routeQ := s.routeQ ++ [{ pkt := x.pkt, port := none, originated := true }] }

/-- The header of a packet that this node originates in a class, with a tenant tag. -/
def newHdr (cls : BitVec 3) (ttag : BitVec 16) : Hdr :=
  { dst := 0, src := 0, cls, vc := 1, vdim := 7, vcoord := 0, vphase := false, ce := false, ackpkt := false, hops := 0, psn := 0,
    lup := 0, plen := 0, ttag }

/-- A packet of an engine of this node, not of a run. -/
def enginePkt (cls : BitVec 3) (ttag : BitVec 16) (body : Body) (payload : List Byte) (needsResp : Bool) : Retained :=
  { pkt := { hdr := newHdr cls ttag, body, payload }, addr := 0, comm := none, sentT := 0, tries := 0, rid := none, off := 0, len := 0,
    needsResp, acked := false, longRaised := false }

/-- The fabric address of rank r of a bound communicator: logical form, with nothing but the rank (R117). -/
def rankAddr (r : Nat) : DWord := BitVec.ofNat 64 (2 ^ 62 + r * 2 ^ 42)

/-- The number under which packets held for a logical rank of a node are kept once its path context starts afresh (R121, R444). -/
def heldPath (x : Nat) : Nat := 2 ^ 20 + x

/-- Packets toward this number are held for a rank: its node is lost, or was before it cast on again. -/
def State.holdsFor (s : State) (dst : Nat) : Bool := decide (2 ^ 20 ≤ dst) || s.lost.contains dst

/-- Where a packet goes next: an instruction's as its address resolves now; an engine's to its node, or, where that is lost, to the rank that it is
addressed to (R120, R121, R151). -/
def State.destOf (s : State) (dst : Nat) (x : Retained) : Dest :=
  if x.rid.isSome then s.resolve x.comm x.addr
  else if !s.holdsFor dst then .node dst
  else if x.comm.isSome then s.resolve x.comm x.addr
  else .lost

/-- The window, the gauge and the buckets let a packet go to a peer now: none waits before it (R238, R244, R381). -/
def State.clear (s : State) (p : Path) (x : Retained) : Bool :=
  (s.nextWaiting p).isNone && !p.retained.any (·.due) && p.windowOpen x.pkt.hdr.cls && decide (packetCost x.pkt ≤ p.tokens)
    && s.grantable x && !(x.charge.isSome && p.waitq.any (fun y => y.charge == x.charge))

/-- An engine of this node sends a packet: at once, or after the window and the gauge allow it (R238, R244). Packets to lost nodes are given up (R242),
and those to a lost rank are held (R121, R151). -/
def State.originate (s : State) (dst : Nat) (x : Retained) : State :=
  match s.destOf dst x with
  | .lost => s
  | .wait => s.modPath dst (fun p => { p with waitq := p.waitq ++ [x] })
  | .node n =>
    let p := s.path n
    if n = s.self || s.clear p x then s.inject n x
    else (if p.windowOpen x.pkt.hdr.cls then s else s.count 0x260008).setPath n { p with waitq := p.waitq ++ [x] }

/-- Lets a waiting packet of an engine go, where the window, the gauge and its buckets now allow it. -/
def State.tryWaitq (s : State) (dst : Nat) : Option State :=
  let p := s.path dst
  match s.nextWaiting p with
  | some x =>
    if s.destOf dst x == .node dst && !p.retained.any (·.due) && decide (packetCost x.pkt ≤ p.tokens) then
      some ((s.setPath dst { p with waitq := p.waitq.erase x }).inject dst x)
    else none
  | none => none

/-- A CTL packet or a delivery acknowledgement: no PSN, no copy, no charge; LUP is that of the path (R229, R230, R239, R244). -/
def State.sendRaw (s : State) (dst : Nat) (h : Hdr) (body : Body) (payload : List Byte) : State :=
  let h : Hdr := { h with
    dst := BitVec.ofNat 20 dst, src := BitVec.ofNat 20 s.self, lup := (s.path dst).lup, plen := BitVec.ofNat 13 payload.length }
  { s with routeQ := s.routeQ ++ [{ pkt := { hdr := h, body, payload }, port := none, originated := true }] }

/-! ## Injection by the sequencers (R111, R112, R378, R379, R385) -/

/-- Transactions of a function and of the node (R112). -/
def State.txnsOf (s : State) (f : Nat) : Nat := (s.txns.filter (·.f == f)).length

/-- Store cells of a packet (R277). -/
def cellsOf (pkt : Packet) : Nat := (64 + pkt.payload.length + 255) / 256

/-- Copies in which a packet is retained: PUTI, FADD, CAS, SIGNAL and MARK, and the responses to atomics, in two (R280). -/
def bodyCopies (b : Body) : Nat := match b with
  | .request r => if r.opcode == 0x10 || r.opcode == 0x12 || r.opcode == 0x14 || r.opcode == 0x40 then 1 else 2
  | .response r => if r.opcode == 0x18 || r.opcode == 0x19 then 2 else 1
  | _ => 1

/-- Cells in which a packet is retained (R277, R280). -/
def keptCells (pkt : Packet) : Nat := bodyCopies pkt.body * cellsOf pkt

/-- The head unsent packet of a queue: of its earliest started run that has one. -/
def State.headUnsent (s : State) (g : Nat) : Option (Run × Unsent) :=
  (s.runs.find? (fun r => r.g == g && !r.unsent.isEmpty && r.phase == .sending)).bind (fun r => r.unsent.head?.map (fun u => (r, u)))

/-- The cells of a packet that waits to be injected (R277, R280), and whether it is a write, whose acknowledgement its connection half counts (R145). -/
def Unsent.cells (u : Unsent) : Nat := keptCells { hdr := newHdr 5 0, body := u.body, payload := u.payload }
def Unsent.writes (u : Unsent) : Bool := match u.body with
  | .request q => q.opcode != 0x12 && q.opcode != 0x14
  | _ => false

/-- A hold that comes after the store has taken a queue's head packet: it stands staged in RETF (R281, R378). -/
def Hold.staged (h : Hold) : Bool := match h with
  | .conn | .fetch | .window | .gauge | .bucket => true
  | _ => false

/-- The head packets that are staged: queue, run and packet. -/
def State.stagedHeads (s : State) : List (Nat × Run × Unsent) :=
  s.queues.filterMap (fun q => if q.2.noted.staged then (s.headUnsent q.1).map (fun x => (q.1, x.1, x.2)) else none)

/-- RETF cells charged to a function but for queue g's staged packet: its staged and retained packets and its held records (R281, R285). -/
def State.retf (s : State) (f g : Nat) : Nat :=
  ((s.paths.flatMap (fun p => p.2.retained)).map (fun x =>
      match x.rid.bind s.run? with | some r => if s.ownerOf r.g = f then keptCells x.pkt else 0 | none => 0)).sum
    + (s.stagedHeads.map (fun x => if s.ownerOf x.1 = f ∧ x.1 ≠ g then x.2.2.cells else 0)).sum
    + (s.queues.map (fun q => if s.ownerOf q.1 = f then q.2.heldRecs.length else 0)).sum

/-- Cells of 256 B that n bytes cut into packets of 4,096 B take; a transfer without bytes is one header (R277). -/
def pieceCells (n : Nat) : Nat := if n = 0 then 1 else 17 * (n / 4096) + (if n % 4096 = 0 then 0 else (64 + n % 4096 + 255) / 256)

/-- A packet of a chunk transfer, which stands in the cells of the transfer (R281). -/
def Retained.ofXfer (x : Retained) : Bool := match x.pkt.body with
  | .coll .contrib _ | .coll .result _ | .coll .data _ | .coll .count _ | .coll .grant _ => true
  | _ => false

/-- A retention ticket covers a transfer, so that RETC is not charged for it again (R283). -/
def State.ticketed (s : State) (x : Xfer) : Bool :=
  (x.kind == .contrib || x.kind == .result) && s.rticks.any (fun t => t.comm == x.comm && t.cseq == x.cseq && t.chunk == x.chunk)

/-- Cells of RETC: the two reserved tickets of every communicator, the shared tickets, and the transfers that no ticket covers, of which each
communicator's lowest unacknowledged contribution or row is covered by its second reserved ticket (R283). -/
def State.retcCells (s : State) : Nat :=
  let free := s.xfers.filter (fun x => !s.ticketed x)
  let lowest := fun (x : Xfer) => x.kind == .contrib && free.find? (fun y => y.comm == x.comm && y.kind == .contrib) == some x
  1122 * (s.comms.filter (fun x => x.2.isSome)).length + ((s.rticks.filter (fun t => !t.reserved)).map (·.cells)).sum
    + ((free.filter (fun x => !lowest x)).map (fun x => pieceCells x.bytes.length)).sum

/-- Failed outcomes held in the node's table of 4,096 (R241). -/
def State.failedOutcomes (s : State) : Nat :=
  ((s.paths.flatMap (fun p => p.2.rx)).filter (fun e => match e.2 with | .done st _ => st != stOk | .pending => false)).length

/-- Data that have come for a started instruction from a space and stand in the store until all of it is there, or, of a collective, until it is built
into a contribution, in cells (R281 HOSTIN, MEMIN). -/
def Run.gathered (r : Run) (sp : Space) : Nat :=
  if r.phase == .reading || r.phase == .coll then (r.bufs.map (fun b => if b.1.space == sp then (b.1.len - b.2.2 + 255) / 256 else 0)).sum else 0

/-- Cells of the units that a darning read has gathered (R326). -/
def DarnRead.cells (d : DarnRead) : Nat := (d.units.map (fun u => (u.2.2.length + 255) / 256)).sum

/-- The window accesses that are held, one cell each (R281 HOSTIN). -/
def State.heldAccesses (s : State) : Nat := s.winHeld.length

/-- The largest number of cells of a region: what passes through it in a stream is never more than that (R281). -/
def State.maxCells (s : State) (n : Nat) : Nat := 4096 * s.fld (0x150020 + 4 * n) 16 16

/-- The context region in cells, every entry in two copies: the cached halves and registrations and the failed outcomes at 64 B, and the path contexts
at 512 B (R286; the size of a failed outcome PRESUMED, log entry 19). -/
def State.contextCells (s : State) : Nat :=
  (64 * (s.ctxHalves.length + s.ctxKeys.length + s.failedOutcomes) + 512 * s.paths.length + 255) / 256

/-- Cells charged to a region: what the model holds in it (R281; log entry 19). -/
def State.cells (s : State) (n : Nat) : Nat :=
  let inPkts := fun (l : List InPkt) => ((l.filter (fun x => x.port.isSome)).map (fun x => cellsOf x.pkt)).sum
  match n with
  | 0 => inPkts s.routeQ + inPkts s.heldEsc + inPkts s.localIn + (s.arrivals.map (fun x => inPkts x.pkts)).sum
      + (s.ports.map (fun x => inPkts x.2.egress
          + (match x.2.cur with | some y => (64 + y.2.length + 255) / 256 | none => 0)
          + (match x.2.last with | some y => (64 + y.2.length + 255) / 256 | none => 0))).sum
  | 1 => min (s.maxCells 1) ((s.runs.map (fun r => r.gathered .hostva)).sum + s.heldAccesses)
  | 2 => min (s.maxCells 2) ((s.runs.map (fun r => if r.phase = .coll then r.gathered .pool else 0)).sum + (s.darnReads.map DarnRead.cells).sum)
  | 3 => min (s.maxCells 3) ((s.tier.map (fun o => (o.writing.map (fun v => (v.2.data.length + 255) / 256)).sum)).sum + (s.restores.map (fun x => 17 * x.left)).sum)
  | 4 => 2 * s.contextCells
  | 5 => (s.parkedReqs.map cellsOf).sum
  | 6 => (s.paths.map (fun x => ((x.2.retained.filter (fun r => r.rid.isSome)).map (fun r => keptCells r.pkt)).sum)).sum
      + (s.stagedHeads.map (fun x => x.2.2.cells)).sum + (s.queues.map (fun x => x.2.heldRecs.length)).sum
  | 7 => (s.paths.map (fun x => (((x.2.retained ++ x.2.waitq).filter (fun r => r.reply.isSome)).map (fun r => keptCells r.pkt)).sum)).sum
  | 8 => s.retcCells
      + (s.paths.map (fun x => ((x.2.retained.filter (fun r => r.rid.isNone && r.reply.isNone && !r.ofXfer)).map (fun r => cellsOf r.pkt)).sum)).sum
  | 9 => if s.fld 0x150050 0 2 = 2 then 2 ^ 20 else 0
  | _ => 0

/-- Minimum of a region in MiB: 210 for LINK, and 256 for a store window. -/
def State.minMiB (s : State) (n : Nat) : Nat :=
  if n = 0 then 210 else if n = 9 then (if s.fld 0x150050 0 2 = 2 then 256 else 0) else s.fld (0x150020 + 4 * n) 0 16

/-- Free cells of SHARED. -/
def State.sharedFree (s : State) : Nat :=
  2 ^ 25 - ((List.range 10).map (fun n => max (4096 * s.minMiB n) (s.cells n))).sum

/-- A region can take some more cells without passing its maximum; SHARED lends what goes beyond its minimum (R281). -/
def State.belowMax (s : State) (n need : Nat) : Bool := decide (s.cells n + need ≤ 4096 * s.fld (0x150020 + 4 * n) 16 16)
def State.lends (s : State) (n need : Nat) : Bool :=
  decide (s.cells n + need ≤ 4096 * s.minMiB n) || decide (s.cells n + need - max (4096 * s.minMiB n) (s.cells n) ≤ s.sharedFree)
def State.canGrow (s : State) (n need : Nat) : Bool := s.belowMax n need && s.lends n need

/-- A region that cannot grow waits; a borrowing that SHARED refused is counted (R281). -/
def State.noteBorrow (s : State) (n need : Nat) : State := if s.belowMax n need && !s.lends n need then s.count 0x220038 else s

/-- Connection halves that are not idle: of the initiator, a queue and a target with writes not yet acknowledged; of the target, an initiator queue
with writes not yet placed (R145). -/
def State.ownHalves (s : State) : List (Nat × Nat) :=
  (s.paths.flatMap (fun p => p.2.retained.filterMap (fun x => match x.pkt.body with
    | .request q => if x.acked || q.opcode == 0x12 || q.opcode == 0x14 || p.1 == s.self then none
      else (x.rid.bind s.run?).map (fun r => (r.g, p.1))
    | _ => none))).dedup
def State.peerHalves (s : State) : List (Nat × Nat) := (s.admitted.map (fun a => (a.src, a.iqueue))).dedup

/-- The initiator's half of queue g to node n in the context cache, whose entries for peers' queues are kept by the peer's number (R146, R286). -/
def ownHalf (g n : Nat) : Nat × Nat := (2 ^ 20 + n, g)
def State.touchHalf (s : State) (h : Nat × Nat) : State := { s with ctxHalves := (h :: s.ctxHalves.filter (· != h)).take 16384 }

/-- Queue g may have a connection half to node n: it holds one, or its function is below CONNS and the backing store has an idle one (R147, R376). -/
def State.halfFree (s : State) (g n : Nat) : Bool :=
  let own := s.ownHalves
  own.contains (g, n) || (decide ((own.filter (fun x => s.ownerOf x.1 == s.ownerOf g)).length < s.grant (s.ownerOf g) 0x10 0 21)
    && decide (own.length + s.peerHalves.length < 1048576))

/-- The connection halves of queue g that are not idle and not in the context cache, at the nodes of its head packets (R146). -/
def State.ownMisses (s : State) (g : Nat) : List (Nat × Nat) :=
  (s.ownHalves.filter (fun h => h.1 == g && !s.ctxHalves.contains (ownHalf g h.2))).map (fun h => ownHalf g h.2)

/-- A function may hold n more transactions (R112). -/
def State.txnRoom (s : State) (f n : Nat) : Bool :=
  decide (s.txns.length + n ≤ 262144) && decide (s.txnsOf f + n ≤ s.grant f 0x14 0 19)

/-- Another queue began to wait for transactions for a collective's contributions before queue g did, and its function is below its quota: the next
released ones are for it (R111, R112). -/
def State.txnBarred (s : State) (g : Nat) : Bool :=
  s.queues.any (fun q => q.1 != g && q.2.txnColl && decide (s.txnsOf (s.ownerOf q.1) < s.grant (s.ownerOf q.1) 0x14 0 19)
    && (match q.2.txnWait, (s.queue g).txnWait with
      | some a, some b => decide (a < b)
      | some _, none => true
      | none, _ => false))

/-- Whether the head packet may be injected now, and otherwise why not (R112, R121, R146, R147, R238, R244, R285, R381). -/
def State.holdOf (s : State) (g : Nat) : Hold :=
  match s.headUnsent g with
  | none => .noWork
  | some (r, u) =>
    match s.resolve r.comm u.addr with
    | .lost => .lost
    | .wait => .claim
    | .node n =>
      let f := s.ownerOf g
      let p := s.path n
      if n != s.self && (!s.txnRoom f 1 || s.txnBarred g) then .txn
      else if decide (s.retf f g + u.cells > s.grant f 0x18 0 13 * 4096) || (!(s.queue g).noted.staged && !s.canGrow 6 u.cells) then .store
      else if n != s.self && u.writes && !s.halfFree g n then .conn
      else if n != s.self && u.writes && s.ownHalves.contains (g, n) && !s.ctxHalves.contains (ownHalf g n) then .fetch
      else if n != s.self && !p.windowOpen 5 then .window
      else if n != s.self && decide (u.cost > p.tokens) then .gauge
      else if !s.bucketsAllow g u.cost then .bucket
      else .nothing

/-- A queue begins to wait for a transaction, for a packet or for a collective's contributions (R112). -/
def State.waitTxn (s : State) (g : Nat) (coll : Bool) : State :=
  if (s.queue g).txnWait.isSome then s.modQueue g (fun q => { q with txnColl := q.txnColl || coll })
  else { s.modQueue g (fun q => { q with txnWait := some s.stamp, txnColl := coll }) with stamp := s.stamp + 1 }

/-- Notes why a queue's head packet waits, where the wait is new: for a transaction it takes its place in the order of R112, and the waits of R147,
R238 and R285 are counted. -/
def State.noteHold (s : State) (g : Nat) (h : Hold) : State :=
  let s := s.modQueue g (fun q => { q with noted := h })
  match h with
  | .txn => s.waitTxn g false
  | .noWork => s.modQueue g (fun q => if q.txnColl then q else { q with txnWait := none })
  | .window => s.count 0x260008
  | .store => ((s.headUnsent g).elim s (fun x => s.noteBorrow 6 x.2.cells)).count (page (s.ownerOf g) 0x2030)
  | .conn => s.count (page (s.ownerOf g) 0x2028)
  | _ => s

/-- Injects the head packet of queue g (R111, R379 grant): a transaction is held unless the node serves the request itself (R119). -/
def State.injectHead (s : State) (g : Nat) : State :=
  match s.headUnsent g with
  | none => s
  | some (r, u) =>
    match s.resolve r.comm u.addr with
    | .node n =>
      let f := s.ownerOf g
      let needs := match u.body with
        | .request q => q.opcode == 0x12 || q.opcode == 0x19 || q.opcode == 0x14 || q.placed || (q.opcode == 0x18 && q.fetch)
        | _ => false
      let x : Retained := {
        pkt := { hdr := newHdr 5 (s.ttagOf f), body := u.body, payload := u.payload }, addr := u.addr, comm := r.comm,
        sentT := s.time, tries := 0, rid := some r.rid, off := u.off, len := u.len, needsResp := needs, acked := false, longRaised := false
        txn := if n = s.self then none else some s.stamp }
      let s := s.setRun { r with
        unsent := r.unsent.drop 1, outstanding := r.outstanding + 1
        reached := if r.reached.contains n then r.reached else r.reached ++ [n] }
      let s := if n = s.self then s else { s with txns := s.txns ++ [{ f, q := some g, num := s.stamp }], stamp := s.stamp + 1 }
      let s := if n ≠ s.self ∧ u.writes then s.touchHalf (ownHalf g n) else s
      let s := s.modQueue g (fun q =>
        { q with txnWait := if q.txnColl then q.txnWait else none, noted := .noWork })
      ((s.chargeGrant g u.cost).inject n x)
    | _ => s

/-- A packet whose target is lost is not sent: it fails with TARGET_LOST (R118, R121, R148). -/
def State.failHead (s : State) (g : Nat) : State :=
  match s.headUnsent g with
  | none => s
  | some (r, u) => s.setRun { r with unsent := r.unsent.drop 1, fails := r.fails ++ [{ off := u.off, status := stTargetLost, reason := 0 }] }

/-- The two-level ring of a sequencer: functions with work in turn, and within each its queues (R379). Queues with work that are not yet
in the rings join at the tail. -/
def State.joinRings (s : State) (sq : Nat) : State :=
  let work := (s.queues.map (·.1)).filter (fun g => g / 256 == sq && (s.headUnsent g).isSome)
  work.foldl (fun s g =>
    let f := s.ownerOf g
    let fr := Tab.get (fun _ => []) s.fring sq
    let qr := Tab.get (fun _ => []) s.qring (256 * sq + f)
    { s with fring := if fr.contains f then s.fring else Tab.put (fun _ => []) s.fring sq (fr ++ [f]),
             qring := if qr.contains g then s.qring else Tab.put (fun _ => []) s.qring (256 * sq + f) (qr ++ [g]) }) s

/-- Moves the head of a ring to its tail. -/
def rotate (l : List Nat) : List Nat := match l with
  | [] => []
  | x :: r => r ++ [x]

/-- pick() of R379 for one sequencer: the next eligible queue, with the rings and deficits after the visits. eligible says which queues may be granted. -/
def State.pick : Nat → State → Nat → Option Nat × State
  | 0, s, _ => (none, s)
  | fuel + 1, s, sq =>
    match Tab.get (fun _ => []) s.fring sq with
    | [] => (none, s)
    | f :: rest =>
      let qr := Tab.get (fun _ => []) s.qring (256 * sq + f)
      let turnF := fun (s : State) => { s with fring := Tab.put (fun _ => []) s.fring sq (rest ++ [f]) }
      let turnQ := fun (s : State) => { s with qring := Tab.put (fun _ => []) s.qring (256 * sq + f) (rotate qr) }
      if qr.all (fun g => (s.headUnsent g).isNone) then
        ({ s with fring := Tab.put (fun _ => []) s.fring sq rest,
                  fdef := Tab.put (fun _ => 0) s.fdef (256 * sq + f) 0,
                  qring := Tab.put (fun _ => []) s.qring (256 * sq + f) [] } : State).pick fuel sq
      else if qr.all (fun g => s.holdOf g != .nothing) then (turnF s).pick fuel sq
      else
        let d := Tab.get (fun _ => 0) s.fdef (256 * sq + f)
        if d < 4160 then (turnF { s with fdef := Tab.put (fun _ => 0) s.fdef (256 * sq + f) (topUp d (s.fq f)) }).pick fuel sq
        else match qr with
          | [] => (none, s)
          | g :: qrest =>
            if (s.headUnsent g).isNone then
              ({ s.modQueue g (fun q => { q with qdef := 0 }) with qring := Tab.put (fun _ => []) s.qring (256 * sq + f) qrest } : State).pick fuel sq
            else if s.holdOf g != .nothing then (turnQ s).pick fuel sq
            else if (s.queue g).qdef < 4160 then
              (turnQ (s.modQueue g (fun q => { q with qdef := topUp q.qdef q.qq }))).pick fuel sq
            else (some g, s)

/-- Among the queues that wait for a transaction and could now have one, the one that began first (R112). -/
def State.oldestTxnWaiter (s : State) : Option Nat :=
  let ws := s.queues.filterMap (fun q => if q.2.txnWait.isSome && s.holdOf q.1 == .nothing then q.2.txnWait.map (fun t => (t, q.1)) else none)
  (ws.foldl (fun m w => match m with | none => some w | some x => if w.1 < x.1 then some w else some x) none).map (·.2)

/-! ## Delivery acknowledgements (R239) -/

/-- Sends a delivery acknowledgement to a peer that covers the PSNs given (all within 64 of the lowest) and, if any, a failed outcome. -/
def State.sendAck (s : State) (src : Nat) (psns : List Word) (echo : Nat) (fst freason : BitVec 8) (fpsn : Word) : State :=
  let base := psns.foldl (fun m x => if (x - m).toNat ≥ 2 ^ 31 then x else m) (psns.headD fpsn)
  let map : DWord := psns.foldl (fun m x => if (x - base).toNat < 64 then m ||| (1#64 <<< (x - base).toNat) else m) 0
  s.sendRaw src { newHdr 1 0 with ackpkt := true }
    (.ack { ackBase := base, okmap := map, echo := BitVec.ofNat 16 echo, fstatus := fst, freason := freason, fpsn := if fst == 0 then 0 else fpsn }) []

/-- Reports the unreported deliveries of a peer: each acknowledgement the lowest of them and those within 64 of it, with the marks among them (R239). -/
def State.flushAcksN : Nat → State → Nat → State
  | 0, s, _ => s
  | n + 1, s, src =>
    match (s.path src).unreported with
    | [] => s
    | e :: es =>
      let base := es.foldl (fun m x => if (x.1 - m).toNat ≥ 2 ^ 31 then x.1 else m) e.1
      let l := (e :: es).partition (fun x => decide ((x.1 - base).toNat < 64))
      ((s.modPath src (fun p => { p with unreported := l.2 })).sendAck src (l.1.map (·.1)) (l.1.filter (·.2)).length 0 0 0).flushAcksN n src

/-- Reports every unreported delivery of a peer (R239). -/
def State.flushAcks (s : State) (src : Nat) : State := s.flushAcksN (s.path src).unreported.length src

/-- The verdict on an arriving packet's PSN (R241). -/
inductive Verdict where
  | fresh | stale | pendingDup
  | doneDup (status reason : BitVec 8)
  deriving DecidableEq, Repr

/-- a lies before b in PSN order (R238: modulo 2^32). -/
def psnBefore (a b : Word) : Bool := decide (a ≠ b) && decide ((b - a).toNat < 2 ^ 31)

/-- The state of a PSN at the receiver, none for EMPTY (R241). -/
def Path.rxOf (p : Path) (psn : Word) : Option RxState := (p.rx.find? (fun e => e.1 == psn)).map Prod.snd

/-- R241 steps 1 to 5 up to the verdict: RBASE moves to LUP, and an EMPTY PSN becomes PENDING. -/
def State.rxCheck (s : State) (src : Nat) (psn lup : Word) : Verdict × State :=
  let p := s.path src
  let p : Path := if psnBefore p.rbase lup then
      { p with rbase := lup, rx := p.rx.filter (fun e => !psnBefore e.1 lup) }.dropReplies (fun x => psnBefore x lup)
    else p
  if psnBefore psn p.rbase then (.stale, (s.setPath src p).count 0x260010)
  else match p.rxOf psn with
    | none => (.fresh, s.setPath src { p with rx := p.rx ++ [(psn, .pending)] })
    | some .pending => (.pendingDup, (s.setPath src p).count 0x260018)
    | some (.done a b) => (.doneDup a b, (s.setPath src p).count 0x260018)

/-- A PSN is delivered with its outcome: reported at once where it failed, or with the 16th unreported delivery (R239, R240, R241). -/
def State.delivered (s : State) (src : Nat) (psn : Word) (ce : Bool) (status reason : BitVec 8) : State :=
  let p := s.path src
  let p : Path := { p with rx := p.rx.map (fun e => if e.1 == psn then (psn, .done status reason) else e) }
  if status == stOk then
    let p : Path := { p with unreported := p.unreported ++ [(psn, ce)] }
    if p.unreported.length ≥ 16 then (s.setPath src p).flushAcks src else s.setPath src p
  else (s.setPath src p).sendAck src [] (if ce then 1 else 0) status reason psn

/-- Forgets a PENDING PSN, so that its retransmission is taken afresh (R146, R241). -/
def State.forgetPsn (s : State) (src : Nat) (psn : Word) : State :=
  s.modPath src (fun p => { p with rx := p.rx.filter (fun e => !(e.1 == psn)) })

/-! ## What an acknowledgement or an answer does at the source (R111, R134, R142) -/

/-- Transactions are released (R111). -/
def State.releaseTxns (s : State) (ts : List Nat) : State := { s with txns := s.txns.filter (fun t => !ts.contains t.num) }

/-- A request packet of a run has been accepted at its target (R142). -/
def Run.packetDone (r : Run) (len : Nat) : Run := { r with outstanding := r.outstanding - 1, acked := r.acked + len }
/-- A request packet of a run has failed. -/
def Run.packetFailed (r : Run) (off : Nat) (st reason : BitVec 8) : Run :=
  { r with outstanding := r.outstanding - 1, fails := r.fails ++ [{ off, status := st, reason }] }

/-- A placement request of a run or of an ORDER hold has been answered or has failed at a node (R44, R56, R143). -/
def State.placementOver (s : State) (rid : Option Nat) (g n : Nat) (failed : Option Bool) : State :=
  match rid.bind s.run? with
  | some r => s.setRun { r with asks := r.asks.erase n, askFails := match failed with | some l => r.askFails ++ [(n, l)] | none => r.askFails }
  | none => s.modQueue g (fun q =>
    { q with
      unplaced := if failed.isNone then q.unplaced.map (fun u => if u.1 = n then (u.1, u.2.1, u.2.2.1, true) else u) else q.unplaced
      holdAsked := q.holdAsked.filter (· != n)
      holdFailed := if failed.isSome then q.holdFailed ++ [n] else q.holdFailed })

/-- INSTID of the requests of a RESTORE, which no instruction issues (DESIGN CHOICE, log entry 41). -/
def restoreInst : Word := 0xFFFFFFFF

/-- A request of a RESTORE is over (R343): its IQUEUE names the function. -/
def State.restoreOver (s : State) (f : Nat) (st : BitVec 8) : State :=
  { s with restores := s.restores.map (fun x =>
      if x.f = f then { x with left := x.left - 1, fail := if st == stOk then x.fail else some (x.fail.getD st) } else x) }

/-- A packet that is retained, or waits, is kept no longer. -/
def State.unkeep (s : State) (dst : Nat) (x : Retained) : State :=
  s.modPath dst (fun p => if p.waitq.contains x then { p with waitq := p.waitq.erase x }
    else { p with retained := p.retained.filter (fun y => y.pkt.hdr.psn != x.pkt.hdr.psn) })

/-- A retained packet, or one that waits, is over at its source with an outcome: its copy and its transaction go, and its run hears of it. -/
def State.packetOver (s : State) (dst : Nat) (x : Retained) (st reason : BitVec 8) : State :=
  let s := (s.unkeep dst x).releaseTxns x.txn.toList
  match x.pkt.body with
  | .request q =>
    if q.opcode == 0x14 && x.rid.isNone && q.instid == restoreInst then s.restoreOver q.iqueue.toNat st
    else if q.opcode == 0x14 then
      s.placementOver x.rid q.iqueue.toNat dst (if st == stOk then none else some (st == stTargetLost))
    else match x.rid.bind s.run? with
      | some r => s.setRun (if st == stOk then r.packetDone x.len else r.packetFailed x.off st reason)
      | none => if q.opcode == 0x10 && x.rid.isNone then s.restoreOver q.iqueue.toNat st else s
  | _ => s

/-- First delivery acknowledgement of a packet: class histogram, SRTT from packets sent once, gauge counts (R242, R244, R421). -/
def State.ackStats (s : State) (dst : Nat) (x : Retained) : State :=
  let cls := x.pkt.hdr.cls.toNat
  let s := s.count (0x270000 + 0x100 * cls + 8 * histBucket (s.time - x.sentT))
  s.modPath dst (fun p => { p with
    newAcked := p.newAcked + 1
    srtt := if x.tries = 1 then some (match p.srtt with | none => s.time - x.sentT | some r => (7 * r + (s.time - x.sentT)) / 8) else p.srtt })

/-- One PSN of an acknowledgement (R239, R242): a packet that has a response stays until the response comes, and a response until LUP passes it. -/
def State.ackOne (s : State) (dst : Nat) (psn : Word) (st reason : BitVec 8) : State :=
  match (s.path dst).retained.find? (fun x => x.pkt.hdr.psn == psn) with
  | none => s
  | some x =>
    let s := if x.acked then s else s.ackStats dst x
    if st == stOk && (x.needsResp || x.reply.isSome) then
      s.modPath dst (fun p => { p with retained := p.retained.map (fun y => if y.pkt.hdr.psn == psn then { y with acked := true } else y) })
    else s.packetOver dst x st reason

/-- Sends a placement request to a node for a run, or for an ORDER hold of queue g (R143). -/
def State.askPlacement (s : State) (g : Nat) (rid : Option Nat) (n : Nat) : State :=
  let body : Body := .request {
    opcode := 0x14, iqueue := BitVec.ofNat 14 g, placed := false, instid := BitVec.ofNat 32 (rid.getD 0),
    addr := 0, key := 0, comm := 0, size := false, fetch := false, seterr := false, clrerr := false, arg := 0 }
  let x := { enginePkt 5 (s.ttagOf (s.ownerOf g)) body [] true with rid := rid, addr := BitVec.ofNat 64 (n * 2 ^ 42) }
  if s.lost.contains n then s.placementOver rid g n (some true) else s.originate n x

/-! ## Retransmission and held packets (R120, R121, R148, R242, R244) -/

/-- A node is one that an instruction's writes have reached (R143). -/
def State.reach (s : State) (rid : Option Nat) (n : Nat) : State :=
  match rid.bind s.run? with
  | some r => if r.reached.contains n then s else s.setRun { r with reached := r.reached ++ [n] }
  | none => s

/-- A kept packet goes to another node than it has gone to, or has waited for, with a PSN of that node's path (R120, R121). -/
def State.redirect (s : State) (dst : Nat) (x : Retained) (n : Nat) : State :=
  ((s.unkeep dst x).reach x.rid n).originate n { x with acked := false, due := false }

/-- A retained packet is sent again over a fresh route, its rank resolved anew, its bytes charged (R120, R242, R244). -/
def State.resend (s : State) (dst : Nat) (x : Retained) : State :=
  let s := s.count 0x260028
  match s.destOf dst x with
  | .node n =>
    if n = dst then
      let s := s.modPath dst (fun p => { p with
        tokens := p.tokens - packetCost x.pkt
        retained := p.retained.map (fun y => if y.pkt.hdr.psn == x.pkt.hdr.psn then { y with tries := y.tries + 1, due := false } else y) })
      let h := { x.pkt.hdr with lup := (s.path dst).lup }
      { s with routeQ := s.routeQ ++ [{ pkt := { x.pkt with hdr := h }, port := none, originated := true }] }
    else s.redirect dst x n
  | _ => s

/-- A retransmission goes now, or waits, for gauge tokens behind those that wait already or for its copy to be rebuilt (R244, R280). -/
def State.retransmit (s : State) (dst : Nat) (x : Retained) : State :=
  let p := s.path dst
  if p.retained.any (·.due) || decide (p.tokens < packetCost x.pkt) || decide (0 < x.missing) then
    s.setPath dst { p with retained := p.retained.map (fun y => if y.pkt.hdr.psn == x.pkt.hdr.psn then { y with due := true } else y) }
  else s.resend dst x

/-- The first retransmission that waits for tokens goes once there are enough. -/
def State.tryDue (s : State) (dst : Nat) : Option State :=
  ((s.path dst).retained.find? (fun x => x.due && x.missing == 0)).bind (fun x =>
    if !s.holdsFor dst && decide (packetCost x.pkt ≤ (s.path dst).tokens) then some (s.resend dst x) else none)

/-- A packet held for a rank whose claim is ready goes to the spare; one whose rank is abandoned, or whose communicator is gone, ends with TARGET_LOST
(R120, R121, R148). -/
def State.tryHeld (s : State) (dst : Nat) : Option State :=
  let p := s.path dst
  let go := fun (x : Retained) => match s.destOf dst x with
    | .node n => if n = dst then none else some (s.redirect dst x n)
    | .lost => some (s.packetOver dst x stTargetLost 0)
    | .wait => none
  ((if s.holdsFor dst then p.retained else []) ++ p.waitq).findSome? go

end Sys2Proof.Machine
end

