-- ==== Sys2Proof/Machine/Remote.lean ====
section
/-! DEFINITION. The target side of remote memory operations: key checks, application, placement and responses; and what a response does
at the initiator (R122, R128 to R148). -/

namespace Sys2Proof.Machine

/-! ## Key checks (R128, R129) -/

def rsKeyUnknown : BitVec 8 := 0x01
def rsSpace : BitVec 8 := 0x02
def rsRange : BitVec 8 := 0x03
def rsRight : BitVec 8 := 0x04
def rsTenant : BitVec 8 := 0x05
def rsNotRanked : BitVec 8 := 0x06
def rsCounter : BitVec 8 := 0x07
def rsRevoked : BitVec 8 := 0x08

/-- The bit of the descriptor's byte 16 that grants an opcode's right: RD, WR, AT or CS (R124). -/
def rightOf (opcode : BitVec 8) : Nat :=
  if opcode == 0x12 then 2 else if opcode == 0x18 || opcode == 0x19 then 4 else if opcode == 0x21 then 5 else 3

/-- The checks of R128 in order, on a registration k: the first that fails gives the status and the reason. -/
def State.keyCheck (s : State) (k : KeyEnt) (key : Word) (ttag : BitVec 16) (logical : Option (Nat × Nat)) (space off len : Nat)
    (opcode : BitVec 8) (cnt : Nat) : Option (BitVec 8 × BitVec 8) :=
  let sig := opcode == 0x21
  if k.autoRelease && k.gen == keyGen key then
    some (if k.space = 1 then (stTargetLost, 0) else (stAccessRemote, rsKeyUnknown))
  else if k.state == .free || k.gen != keyGen key then some (stAccessRemote, rsKeyUnknown)
  else if k.state != .valid then some (stKeyRevoked, rsRevoked)
  else if k.ttag != ttag then some (stAccessRemote, rsTenant)
  else if (match logical with | some (c, r) => !(k.right 7 && k.comm == c && k.rank == r) | none => false) then some (stAccessRemote, rsNotRanked)
  else if !sig && !((space == 0 && k.space == 2) || (space == 1 && k.space == 1)) then some (stAccessRemote, rsSpace)
  else if !sig && !(decide (k.base ≤ off) && decide (off + len ≤ k.base + k.len)) then some (stAccessRemote, rsRange)
  else if !k.right (rightOf opcode) then some (stAccessRemote, rsRight)
  else if sig && decide (cnt ≥ s.ccount k.owner) then some (stAccessRemote, rsCounter)
  else none

/-- Bytes of memory that a request packet covers. -/
def reqLen (r : ReqF) (payload : List Byte) : Nat :=
  if r.opcode == 0x12 then r.arg.toNat
  else if r.opcode == 0x18 || r.opcode == 0x19 then (if r.size then 8 else 4)
  else payload.length

/-- The outcome of the check of a REQUEST at this node (R122, R128). An accelerator that is absent or lost gives TARGET_LOST before any check of the key
(DESIGN CHOICE, log entry 73). -/
def State.accessCheck (s : State) (h : Hdr) (r : ReqF) (payload : List Byte) : Option (BitVec 8 × BitVec 8) :=
  let sp := raSpace r.addr
  if sp = 1 && !s.accPresent (raOffset r.addr / 2 ^ 38 % 4) then some (stTargetLost, 0)
  else s.keyCheck (s.key (keyIndex r.key)) r.key h.ttag
    (if raForm r.addr = 1 then some (r.comm.toNat, raNode r.addr) else none) sp (raOffset r.addr) (reqLen r payload) r.opcode (r.arg.toNat % 2 ^ 15)

/-! ## Outcomes and responses -/

/-- Gives the outcome of a request packet to its source: at once for a request of this node, by acknowledgement otherwise (R119, R239, R240). -/
def State.outcome (s : State) (h : Hdr) (st reason : BitVec 8) : State :=
  if h.src.toNat = s.self then s.ackOne s.self h.psn st reason else s.delivered h.src.toNat h.psn h.ce st reason

/-- Sends the response to a request and retains it until the requester's LUP passes (R137, R242). -/
def State.respond (s : State) (h : Hdr) (r : ReqF) (result : DWord) (swapped : Bool) (payload : List Byte) : State :=
  let src := h.src.toNat
  let body : Body := .response {
    opcode := r.opcode, iqueue := r.iqueue, instid := r.instid, rpsn := h.psn, roff := 0, result := result, swapped := swapped }
  s.originate src { enginePkt 1 h.ttag body payload false with reply := some h.psn }

/-- A request that fails has its outcome; with the failed-outcome table full, a peer's is forgotten without a state change (R241). -/
def State.failOutcome (s : State) (h : Hdr) (st reason : BitVec 8) (k : State → State) : State :=
  if decide (s.failedOutcomes ≥ 4096) && h.src.toNat != s.self then s.forgetPsn h.src.toNat h.psn else (k s).outcome h st reason

/-- A request fails its check here: the fault once per message, and the outcome; with the failed-outcome table full it is forgotten (R135, R241). -/
def State.rejectReq (s : State) (h : Hdr) (r : ReqF) (st reason : BitVec 8) : State :=
  let src := h.src.toNat
  let msg := (src, r.iqueue.toNat, r.instid.toNat)
  let k := s.key (keyIndex r.key)
  let dest := if k.state == .free then 0 else k.owner
  let a := src + r.iqueue.toNat * 2 ^ 20 + r.opcode.toNat * 2 ^ 34 + reason.toNat * 2 ^ 42
  s.failOutcome h st reason (fun s => if s.faulted.contains msg || st == stTargetLost then s
    else ({ s with faulted := s.faulted ++ [msg] }).raise dest (if reason == rsRevoked then remoteKeyRevoked else remoteAccessDenied) noQueue 0
      a r.key.toNat (r.addr.toNat % 2 ^ 42))

/-! ## Application (R138 to R140) -/

/-- The result of an atomic on an old value (R58, R59): the new value, and whether CAS wrote. -/
def atomicNew (cas size : Bool) (old operand swap : DWord) : DWord × Bool :=
  let m : DWord := if size then BitVec.allOnes 64 else BitVec.ofNat 64 (2 ^ 32 - 1)
  if cas then (if old &&& m == operand &&& m then (swap &&& m, true) else (old &&& m, false)) else ((old + operand) &&& m, true)

/-- A range of pooled memory cannot be written at once: marked window lines, or units without a save. -/
def State.poolBusy (s : State) (off len : Nat) : Bool := !(s.markedLines off len).isEmpty || s.writeWaits off len

/-- Snoops the marked lines of a range (R350). -/
def State.snoopRange (s : State) (off len : Nat) : State :=
  (s.markedLines off len).foldl (fun s l => (s.emit (.biSnp l)).count 0x240048) s

/-- Operand and swap value of an atomic's payload (R271). -/
def payOperand (p : List Byte) : DWord := BitVec.ofNat 64 (leNat (p.take 8))
def paySwap (p : List Byte) : DWord := BitVec.ofNat 64 (leNat ((p.drop 8).take 8))

/-- Carries out an atomic on pooled memory as one action (R139): the old value and whether it wrote. -/
def State.poolAtomic (s : State) (off : Nat) (cas size : Bool) (operand swap : DWord) : DWord × Bool × State :=
  let n := if size then 8 else 4
  let old : DWord := BitVec.ofNat 64 (leNat (s.pread off n))
  let r := atomicNew cas size old operand swap
  (old, r.2, if r.2 then s.pwrite off (leBytes n r.1.toNat) else s)

/-- The admitted accesses of a message that are not finished. -/
def State.enterReq (s : State) (h : Hdr) (r : ReqF) (write : Bool) (n : Nat) : State :=
  let one : Admit := { src := h.src.toNat, iqueue := r.iqueue.toNat, psn := h.psn.toNat, idx := keyIndex r.key, write }
  { s with admitted := s.admitted ++ List.replicate n one }

/-- One access of a request has finished with the memory (R132, R142). -/
def State.unadmit (s : State) (src psn : Nat) : State :=
  match s.admitted.find? (fun a => a.src == src && a.psn == psn) with
  | some a => { s with admitted := s.admitted.erase a }
  | none => s

/-- An accepted atomic on pooled memory is applied, and answered where it returns a value. -/
def State.applyAtomic (s : State) (h : Hdr) (r : ReqF) (payload : List Byte) : State :=
  let x := s.poolAtomic (raOffset r.addr) (r.opcode == 0x19) r.size (payOperand payload) (paySwap payload)
  let s := x.2.2
  if r.opcode == 0x19 then s.respond h r x.1 x.2.1 []
  else if r.fetch then s.respond h r x.1 false []
  else s

/-- A counter action of SIGNAL: add, then set or clear ERR, in one action (R61). -/
def State.signalCounter (s : State) (c : Nat) (add : DWord) (setErr clrErr : Bool) : State :=
  s.setRowc c (rowMark (rowAdd (s.rowc c) add) setErr clrErr)

/-- The write of a PUT, PUTI or MARK packet (R138). -/
def State.applyWrite (s : State) (h : Hdr) (r : ReqF) (payload : List Byte) : State :=
  let sp := if raSpace r.addr = 1 then Space.accel else Space.pool
  let w := s.writeLocal 0 0 sp (BitVec.ofNat 64 (raOffset r.addr)) payload (.remote h.src.toNat r.iqueue.toNat h.psn.toNat)
  w.2.enterReq h r true w.1

/-- Sends an AATOM whose answer serves a remote request (R139, R365). -/
def State.aatom (s : State) (a off : Nat) (cas size : Bool) (operand swap : DWord) (t : Ticket) : State :=
  let x := s.accel a
  let op : AOp := { tag := x.nextTag, kind := .aatom, addr := BitVec.ofNat 64 off, len := 0, off := 0, got := 0, data := [], ticket := t }
  (s.setAccel a { x with nextTag := x.nextTag + 1, ops := x.ops ++ [op] }).attachSend a { amsg 0x03 with
    tag := x.nextTag, addr := BitVec.ofNat 64 off, arg0 := operand, arg1 := swap
    arg2 := (if size then 1 else 0) + (if cas then 2 else 0) }

/-- Applies a request that has passed its check (R136 to R143). -/
def State.applyReq (s : State) (h : Hdr) (r : ReqF) (payload : List Byte) : State :=
  let pkt : Packet := { hdr := h, body := .request r, payload }
  let off := raOffset r.addr
  let acc := raSpace r.addr = 1
  let wait := (s.admitted.filter (fun a => a.write && a.src == h.src.toNat && a.iqueue == r.iqueue.toNat)).map (·.psn)
  if r.opcode == 0x14 || r.placed then { s with placeReqs := s.placeReqs ++ [(pkt, wait)] }
  else if r.opcode == 0x21 then
    s.signalCounter (s.cbase (s.key (keyIndex r.key)).owner + r.arg.toNat % 2 ^ 15) (payOperand payload) r.seterr r.clrerr
  else if r.opcode == 0x12 then
    if acc then
      (({ s with inService := s.inService ++ [pkt] }).enterReq h r false 1).ard (off / 2 ^ 38 % 4) (off % 2 ^ 38) r.arg.toNat 0
        (.remoteRead h.src.toNat h.psn.toNat)
    else if s.lineLost off r.arg.toNat then
      (({ s with inService := s.inService ++ [pkt] }).enterReq h r false 1).poolWait off r.arg.toNat 0 (.remoteRead h.src.toNat h.psn.toNat)
    else s.respond h r 0 false (s.pread off r.arg.toNat)
  else if r.opcode == 0x18 || r.opcode == 0x19 then
    if acc then
      (({ s with inService := s.inService ++ [pkt] }).enterReq h r true 1).aatom (off / 2 ^ 38 % 4) (off % 2 ^ 38) (r.opcode == 0x19) r.size
        (payOperand payload) (paySwap payload) (.remoteRead h.src.toNat h.psn.toNat)
    else if s.poolBusy off (reqLen r payload) then
      (({ s with deferred := s.deferred ++ [pkt] }).snoopRange off (reqLen r payload)).enterReq h r true 1
    else s.applyAtomic h r payload
  else s.applyWrite h r payload

/-- A deferred atomic whose memory is ready is applied (R139, R319, R350). -/
def State.tryDeferred (s : State) : Option State :=
  (s.deferred.find? (fun p => match p.body with
    | .request r => !s.poolBusy (raOffset r.addr) (reqLen r p.payload)
    | _ => true)).map (fun p => match p.body with
      | .request r => (({ s with deferred := s.deferred.erase p }).applyAtomic p.hdr r p.payload).unadmit p.hdr.src.toNat p.hdr.psn.toNat
      | _ => { s with deferred := s.deferred.erase p })

/-! ## The context cache (R145 to R147) -/

/-- A target half is not idle: something on the connection is unplaced (R145). -/
def State.halfBusy (s : State) (src iq : Nat) : Bool := s.admitted.any (fun a => a.src == src && a.iqueue == iq)

/-- The registration or the connection half of a request is not in the context cache. -/
def State.ctxMiss (s : State) (src iq idx : Nat) : Bool :=
  ((s.key idx).state != .free && !s.ctxKeys.contains idx) || (s.halfBusy src iq && !s.ctxHalves.contains (src, iq))

/-- A use brings both entries to the front of the cache; the least recently used entries leave it. -/
def State.ctxTouch (s : State) (src iq idx : Nat) : State :=
  { s.touchHalf (src, iq) with
           ctxKeys := if (s.key idx).state == .free then s.ctxKeys else (idx :: s.ctxKeys.filter (· != idx)).take 65536 }

/-- Cells of PARK held by a class, and its share (R284). -/
def State.parkUsed (s : State) (cls : BitVec 3) : Nat := ((s.parkedReqs.filter (fun p => p.hdr.cls == cls)).map cellsOf).sum
def State.parkShare (s : State) (cls : BitVec 3) : Nat :=
  let total := s.fld 0x150034 0 16 * 4096
  let req := total * s.fld 0x150054 0 8 / 256
  if cls == 4 then total - req else req

/-- Checks and applies a request whose contexts are at hand (R128, R142). -/
def State.acceptReq (s : State) (h : Hdr) (r : ReqF) (payload : List Byte) : State :=
  let s := s.ctxTouch h.src.toNat r.iqueue.toNat (keyIndex r.key)
  if r.opcode == 0x14 then (s.applyReq h r payload).outcome h stOk 0
  else match s.accessCheck h r payload with
    | some (st, reason) => s.rejectReq h r st reason
    | none => (s.applyReq h r payload).outcome h stOk 0

/-- A request packet that is not a duplicate: parked on a context miss, or discarded where its class's share of PARK is full (R146, R284) or where its
new connection half finds no idle one to replace (R147). -/
def State.takeReq (s : State) (h : Hdr) (r : ReqF) (payload : List Byte) : State :=
  let pkt : Packet := { hdr := h, body := .request r, payload }
  if r.opcode != 0x14 && !s.peerHalves.contains (h.src.toNat, r.iqueue.toNat) && decide (1048576 ≤ s.ownHalves.length + s.peerHalves.length) then
    (s.forgetPsn h.src.toNat h.psn).count 0x220028
  else if r.opcode != 0x14 && s.ctxMiss h.src.toNat r.iqueue.toNat (keyIndex r.key) then
    if s.parkUsed h.cls + cellsOf pkt > s.parkShare h.cls then (s.forgetPsn h.src.toNat h.psn).count 0x220028
    else ({ s with parkedReqs := s.parkedReqs ++ [pkt] }).count 0x220020
  else s.acceptReq h r payload

/-- Cells that the response to a GET, FADD or CAS is retained in, an atomic's result in two copies (R277, R280, R281 RETR); 0 for any other request. -/
def respCells (r : ReqF) : Nat :=
  if r.opcode == 0x12 then (64 + r.arg.toNat + 255) / 256 else if r.opcode == 0x18 || r.opcode == 0x19 then 2 else 0

/-- A GET, FADD or CAS that is not a duplicate waits in its LINK cells while RETR cannot grow (R281). -/
def State.retrFull (s : State) (h : Hdr) (r : ReqF) : Bool :=
  decide (0 < respCells r) && !s.canGrow 7 (respCells r) && ((s.path h.src.toNat).rxOf h.psn).isNone

/-- Takes a packet out of the node's delivered packets; its cells are freed and its link credit is returned (R29, R258). -/
def State.consume (s : State) (pkt : Packet) : State :=
  match s.localIn.find? (fun x => x.pkt == pkt) with
  | some x => ({ s with localIn := s.localIn.erase x } : State).freePkt x
  | none => s

/-- A packet of a peer passes the PSN states of R241: a fresh one goes on to k, a duplicate is acknowledged again or dropped. A lost node's packet is
discarded and counted (R302), and a bound-off node discards what it receives (R300).
resend says that a DONE duplicate brings the retained responses again (R242). -/
def State.arrive (s : State) (h : Hdr) (resend : Bool) (k : State → State) : State :=
  let src := h.src.toNat
  if s.boundOff then s
  else if src = s.self then k s
  else if s.lost.contains src then s.count 0x260078
  else
    let v := s.rxCheck src h.psn h.lup
    match v.1 with
    | .fresh => k v.2
    | .stale => v.2
    | .pendingDup => v.2
    | .doneDup st reason =>
      let s := if st == stOk then v.2.sendAck src [h.psn] 0 0 0 0 else v.2.sendAck src [] 0 st reason h.psn
      if resend then ((s.path src).repliesTo h.psn).foldl (fun s x => s.retransmit src x) s else s

/-! ## Responses at the initiator (R53, R58, R59, R143) -/

/-- What the answer to a request does to its run. -/
def State.answered (s : State) (src : Nat) (x : Retained) (q : ReqF) (r : RespF) (payload : List Byte) : State :=
  let s := s.packetOver src x stOk 0
  if q.opcode == 0x14 then s
  else match x.rid.bind s.run? with
    | none => s
    | some run =>
      if q.opcode == 0x12 then
        match run.bufs.head? with
        | some (o, _, _) =>
          let w := s.writeLocal (s.ownerOf run.g) (qPasid (s.queue run.g).desc) o.space
            (o.addr + BitVec.ofNat 64 (x.off + r.roff.toNat)) payload (.run run.rid 0)
          w.2.setRun { run with
            writes := run.writes + w.1
            bufs := match run.bufs with
              | (o, d, m) :: bs => (o, patchBytes d (x.off + r.roff.toNat) payload, m) :: bs
              | [] => [] }
        | none => s
      else s.setRun { run with result := r.result, flags := if r.swapped then run.flags ||| flSwapped else run.flags }

/-- A RESPONSE is matched to its request by RPSN (R272). -/
def State.takeResponse (s : State) (h : Hdr) (r : RespF) (payload : List Byte) : State :=
  let src := h.src.toNat
  match (s.path src).retained.find? (fun x => x.pkt.hdr.psn == r.rpsn) with
  | some x => match x.pkt.body with
    | .request q =>
      if q.opcode == 0x40 then { s with darnIn := s.darnIn ++ [(q, src, r.roff.toNat, payload)] } else s.answered src x q r payload
    | _ => s
  | none => s

end Sys2Proof.Machine
end

