-- ==== Sys2Proof/Machine/Move.lean ====
section
/-! DEFINITION. Starting and advancing the data-movement, atomic and queue-control instructions (R47 to R66, R136, R143). -/

namespace Sys2Proof.Machine

/-! ## Decode (R6, R43, R47, R89) -/

/-- The bits of an entry that the fields (bit position, width) name. -/
def fieldMask (fs : List (Nat × Nat)) : Entry := fs.foldl (fun m f => m ||| BitVec.ofNat 512 ((2 ^ f.2 - 1) * 2 ^ f.1)) 0

/-- Some bit outside the header's fixed fields and the fields named is set (R6). -/
def resvSet (e : Entry) (fs : List (Nat × Nat)) : Bool := (e &&& ~~~ fieldMask ((0, 17) :: fs)) != 0

/-- Reasons that every opcode shares: EXT, ORDER 0b11, CNT_SEL of an entry with VALID 0 (R41 to R44, R93). -/
def State.headReasons (s : State) (g : Nat) (i : Fetched) (wantExt : Bool) : List Nat :=
  reasons [(entExt i.w != wantExt, 6), (entOrder i.w == 3, 3),
    (entCntSel i.w != 0 && (qCtab (s.queue g).desc (entCntSel i.w)).isNone, 4)]

/-- The rank count of the communicator bound to an instruction, where it is created at this node by the queue's function (R49). -/
def State.boundRanks (s : State) (g : Nat) (comm : Option (BitVec 24)) : Option Nat :=
  (comm.bind (fun c => s.comm c.toNat)).bind (fun c => if c.creator = s.ownerOf g then some c.ranks.length else none)

/-- Reasons of a remote operand of a run. -/
def State.remoteWhy (s : State) (r : Run) (a : DWord) (len : Nat) (signal : Bool) : List Nat :=
  remoteReasons a len signal r.comm.isSome (s.boundRanks r.g r.comm)

/-- Rejects at decode where there is a reason (R47), or goes on. -/
def State.orMalformed (s : State) (r : Run) (ds : List Nat) (k : State → State) : State :=
  match lowestDetail ds with
  | some d => s.completeWith r stMalformed d
  | none => k s

/-- Checks the local keys of the operands (R130), or goes on. -/
def State.orLocalFail (s : State) (r : Run) (os : List Opnd) (k : State → State) : State :=
  match s.localFail (s.ownerOf r.g) os with
  | some o => s.completeWith r stAccessLocal 0 o.addr
  | none => k s

/-- Rejects at decode an instruction that would inject packets of its own, the 64 B of its start then charged (R47, R378), or goes on. -/
def State.orRejected (s : State) (r : Run) (ds : List Nat) (k : State → State) : State :=
  (s.chargeStartIf (lowestDetail ds).isSome r.g).orMalformed r ds k

/-- Checks the local keys of its operands (R130, R378), or goes on. -/
def State.orKeyFail (s : State) (r : Run) (os : List Opnd) (k : State → State) : State :=
  (s.chargeStartIf (s.localFail (s.ownerOf r.g) os).isSome r.g).orLocalFail r os k

/-! ## Requests -/

/-- The request body of a packet of a run (R271). -/
def Run.req (r : Run) (opcode : BitVec 8) (addr : DWord) (key : Word) (arg : Word) : ReqF where
  opcode := opcode
  iqueue := BitVec.ofNat 14 r.g
  placed := false
  instid := BitVec.ofNat 32 r.rid
  addr := addr
  key := key
  comm := if raForm addr = 1 then r.comm.getD 0 else 0
  size := false
  fetch := false
  seterr := false
  clrerr := false
  arg := arg

/-- The packets of a PUT over its source bytes (R136). -/
def putPackets (r : Run) (opcode : BitVec 8) (addr : DWord) (key : Word) (data : List Byte) : List Unsent :=
  (cutRange (data.length / 4096 + 2) addr 0 data.length).map (fun c =>
    { addr := addr, body := .request (r.req opcode (addr + BitVec.ofNat 64 c.1) key 0), payload := (data.drop c.1).take c.2,
      cost := 64 + c.2, off := c.1, len := c.2 })

/-- The request packets of a GET (R136, R378). -/
def getPackets (r : Run) (addr : DWord) (key : Word) (len : Nat) : List Unsent :=
  (cutRange (len / 4096 + 2) addr 0 len).map (fun c =>
    { addr := addr, body := .request (r.req 0x12 (addr + BitVec.ofNat 64 c.1) key (BitVec.ofNat 32 c.2)), payload := [],
      cost := 64 + c.2, off := c.1, len := c.2 })

/-- One packet of a run. -/
def onePacket (q : ReqF) (payload : List Byte) (len : Nat) : Unsent :=
  { addr := q.addr, body := .request q, payload, cost := 64 + payload.length, off := 0, len }

/-! ## Starting an instruction -/

/-- Nodes that writes of completed instructions of queue g reached and that are not known to have placed them. -/
def State.unplacedNodes (s : State) (g : Nat) : List Nat := (((s.queue g).unplaced.filter (fun u => !u.2.2.2)).map (·.1)).dedup

/-- Nodes that an entry held for placement is still to ask (R44, R143). -/
def State.nodesToAsk (s : State) (g : Nat) : List Nat :=
  (s.unplacedNodes g).filter (fun n => !(s.queue g).holdAsked.contains n && !(s.queue g).holdFailed.contains n)

/-- The next instance of queue g starts: it leaves the queue, and k acts on its fresh run. -/
def State.startNext (s : State) (g : Nat) (i : Fetched) (iter : Nat) (k : State → Run → State) : State :=
  k (((s.modQueue g Queue.popInst).addRun (s.newRun g i iter)).monStart (s.newRun g i iter)) (s.newRun g i iter)

/-- Starts the next instance of queue g if its opcode is op and the queue may start it; none where nothing can happen. A doomed body instance
completes with MALFORMED, DETAIL 0x08 (R66). why gives the reasons for which decode rejects the opcode: an entry that is held for placement only sends
its placement requests where there are none, and otherwise starts, and is rejected (R44, R47, R143). extra is a further condition on the start. -/
def State.startOp? (s : State) (g : Nat) (op : BitVec 8) (why : State → Run → List Nat) (extra : State → Fetched → Bool) (k : State → Run → State) :
    Option State :=
  match (s.queue g).nextInst with
  | none => none
  | some (i, iter, doomed) =>
    if entOpcode i.w != op || !s.mayStart g then none
    else if doomed then
      some (((s.modQueue g Queue.popInst |>.addRun (s.newRun g i iter)).chargeStart g).completeWith (s.newRun g i iter) stMalformed 8)
    else if !extra s i then none
    else if s.orderMet g i.w then some (s.startNext g i iter k)
    else if entOrder i.w = 2 && (s.earlier g).isEmpty then
      if !(why s (s.newRun g i iter)).isEmpty then some (s.startNext g i iter k)
      else if (s.nodesToAsk g).isEmpty then none
      else some ((s.nodesToAsk g).foldl (fun s n => (s.modQueue g (fun q => { q with holdAsked := q.holdAsked ++ [n] })).askPlacement g none n) s)
    else none

/-- The same, where nothing happens leaving the state as it is. -/
def State.startOp (s : State) (g : Nat) (op : BitVec 8) (why : State → Run → List Nat) (extra : State → Fetched → Bool) (k : State → Run → State) : State :=
  (s.startOp? g op why extra k).getD s

/-- No further condition. -/
def always (_ : State) (_ : Fetched) : Bool := true

/-! ## NOP, PUT, PUTI, GET (R51 to R54, R63) -/

def State.nopReasons (s : State) (r : Run) : List Nat := s.headReasons r.g r.ins false ++ reasons [(resvSet r.ins.w [], 2)]

def State.startNop (s : State) (r : Run) : State := (s.chargeStart r.g).orMalformed r (s.nopReasons r) (fun s => s.completeWith r stOk)

/-- Fields that PUT and GET use (R51). -/
def moveFields : List (Nat × Nat) := [(17, 2), (32, 32), (64, 64), (128, 64), (192, 32), (224, 32)]

/-- The local operand of PUT and GET (R51). -/
def moveOpnd (e : Entry) : Opnd := opnd (entOpx e 0 2) (ent64 e 16) (ent32 e 24) (entBytes e 28 4)

def State.moveReasons (s : State) (r : Run) : List Nat :=
  let e := r.ins.w
  s.headReasons r.g r.ins false ++ reasons [(resvSet e moveFields, 2)]
    ++ localReasons (entOpx e 0 2) (ent64 e 16) (ent32 e 24) (entBytes e 28 4) ++ s.remoteWhy r (entQ1 e) (entBytes e 28 4) false

def State.startPut (s : State) (r : Run) : State :=
  s.orRejected r (s.moveReasons r) (fun s =>
    let o := moveOpnd r.ins.w
    if o.len = 0 then (s.chargeStart r.g).completeWith r stOk
    else s.orKeyFail r [o] (fun s =>
      let d := s.readOpnd (s.ownerOf r.g) (qPasid (s.queue r.g).desc) o (.run r.rid 0)
      d.2.2.setRun { r with phase := .reading, bufs := [(o, d.1, d.2.1)] }))

def State.startGet (s : State) (r : Run) : State :=
  s.orRejected r (s.moveReasons r) (fun s =>
    let o := moveOpnd r.ins.w
    if o.len = 0 then (s.chargeStart r.g).completeWith r stOk
    else s.orKeyFail r [o] (fun s =>
      s.setRun { r with bufs := [(o, List.replicate o.len 0, 0)], unsent := getPackets r (entQ1 r.ins.w) (entW1 r.ins.w) o.len }))

def State.putiReasons (s : State) (r : Run) : List Nat :=
  let n := entOpx r.ins.w 0 7
  s.headReasons r.g r.ins (decide (48 < n ∧ n ≤ 112))
    ++ reasons [(resvSet r.ins.w [(17, 7), (32, 32), (64, 64), (128, 384)], 2), (n == 0 || decide (112 < n), 4),
        (((putiBytes r.ins).drop n).any (· != 0), 2)]
    ++ s.remoteWhy r (entQ1 r.ins.w) n false

def State.startPuti (s : State) (r : Run) : State :=
  let n := entOpx r.ins.w 0 7
  s.orRejected r (s.putiReasons r)
    (fun s => s.setRun { r with unsent := [onePacket (r.req 0x11 (entQ1 r.ins.w) (entW1 r.ins.w) 0) ((putiBytes r.ins).take n) n] })

/-! ## COPY (R55, R140) -/

def copyDst (e : Entry) : Opnd := opnd (entOpx e 0 2) (entQ1 e) (entW1 e) (entBytes e 28 4)
def copySrc (e : Entry) : Opnd := opnd (entOpx e 2 2) (ent64 e 16) (ent32 e 24) (entBytes e 28 4)

def State.copyReasons (s : State) (r : Run) : List Nat :=
  let e := r.ins.w
  let len := entBytes e 28 4
  s.headReasons r.g r.ins false
    ++ reasons [(resvSet e [(17, 4), (32, 32), (64, 64), (128, 64), (192, 64)], 2), (overlaps (copyDst e) (copySrc e), 4)]
    ++ localReasons (entOpx e 0 2) (entQ1 e) (entW1 e) len ++ localReasons (entOpx e 2 2) (ent64 e 16) (ent32 e 24) len

/-- COPY (R55). Where both operands fail their key check, INFO carries the destination's first byte (DESIGN CHOICE, log entry 60). -/
def State.startCopy (s : State) (r : Run) : State :=
  let e := r.ins.w
  let len := entBytes e 28 4
  s.orRejected r (s.copyReasons r)
    (fun s =>
      if len = 0 then (s.chargeStart r.g).completeWith r stOk
      else s.orKeyFail r [copyDst e, copySrc e] (fun s =>
        s.setRun { r with phase := .granting, aux := 0, bufs := [(copySrc e, [], 0), (copyDst e, [], 0)] }))

/-- The next 4,096 B piece of a COPY is granted, where its buckets allow it; once all are, the source is read (R378, R381; log entry 76). -/
def State.grantPiece (s : State) (r : Run) : Option State :=
  let len := entBytes r.ins.w 28 4
  let n := min 4096 (len - r.aux)
  if len ≤ r.aux then
    let d := s.readOpnd (s.ownerOf r.g) (qPasid (s.queue r.g).desc) (copySrc r.ins.w) (.run r.rid 0)
    some (d.2.2.setRun { r with phase := .reading, bufs := [(copySrc r.ins.w, d.1, d.2.1), (copyDst r.ins.w, [], 0)] })
  else if s.bucketsAllow r.g (64 + n) then some ((s.chargeGrant r.g (64 + n)).setRun { r with aux := r.aux + n })
  else none

/-! ## Atomics (R57 to R59) -/

def State.atomicReasons (cas : Bool) (s : State) (r : Run) : List Nat :=
  let e := r.ins.w
  let size := entOpx e 0 1 == 1
  let n := if size then 8 else 4
  s.headReasons r.g r.ins false
    ++ reasons [(resvSet e ([(17, 2), (32, 32), (64, 64), (128, 64)] ++ if cas then [(192, 64)] else []), 2), (cas && entOpx e 1 1 == 1, 2),
        (!size && ((ent64 e 16).toNat / 2 ^ 32 != 0 || (ent64 e 24).toNat / 2 ^ 32 != 0), 2), ((entQ1 e).toNat % n != 0, 5)]
    ++ s.remoteWhy r (entQ1 e) n false

def State.startAtomic (s : State) (r : Run) (cas : Bool) : State :=
  let e := r.ins.w
  let size := entOpx e 0 1 == 1
  let fetch := entOpx e 1 1 == 1
  let n := if size then 8 else 4
  let q : ReqF := { r.req (if cas then 0x19 else 0x18) (entQ1 e) (entW1 e) 0 with size := size, fetch := fetch }
  s.orRejected r (State.atomicReasons cas s r)
    (fun s => s.setRun { r with unsent := [onePacket q
      (leBytes 8 (ent64 e 16).toNat ++ if cas then leBytes 8 (ent64 e 24).toNat else []) n] })

/-! ## Coverage and placement (R56, R61, R143) -/

/-- A run whose writes a FLUSH or a PLACED write covers: PUT, PUTI, MARK, remote SIGNAL, non-fetching FADD (R56). -/
def Run.isWrite (r : Run) : Bool :=
  let op := entOpcode r.ins.w
  op == 0x10 || op == 0x11 || op == 0x22 || (op == 0x21 && raForm (entQ1 r.ins.w) != 3) || (op == 0x18 && entOpx r.ins.w 1 1 == 0)

/-- Two operands of one queue name the same node: they resolve to it, or name it alike where it cannot be resolved now. -/
def State.sameNode (s : State) (ca cb : Option (BitVec 24)) (a b : DWord) : Bool :=
  (match s.resolve ca a, s.resolve cb b with | .node m, .node n => m == n | _, _ => false)
    || (raForm a == raForm b && raNode a == raNode b && ca == cb)

/-- Runs of queue g, started before rid, with writes to the node that address a of a run with binding ca names; to every node where a is absent. -/
def State.covered (s : State) (g rid : Nat) (ca : Option (BitVec 24)) (a : Option DWord) : List Nat :=
  ((s.runs.filter (fun r => r.g == g && decide (r.rid < rid) && r.isWrite)).filter (fun r => match a with
    | none => true
    | some a => s.sameNode ca r.comm a (entQ1 r.ins.w))).map (·.rid)

/-- Nodes of completed writes of queue g that are not confirmed placed, those that failed left out (R56). -/
def State.unconfirmed (s : State) (g : Nat) (n : Option Nat) : List Nat :=
  (((s.queue g).unplaced.filter (fun u => u.2.1 && (match n with | none => true | some n => u.1 == n))).map (·.1)).dedup

/-- Takes the writes of runs before rid at the nodes given as placed: a FLUSH confirms them, and no later FLUSH covers them (R56). -/
def State.confirm (s : State) (g rid : Nat) (ns : List Nat) (flush : Bool) : State :=
  let hit := fun (u : Nat × Bool × Nat × Bool) => ns.contains u.1 && decide (u.2.2.1 < rid)
  s.modQueue g (fun q => { q with
    unplaced := if flush then q.unplaced.filter (fun u => !hit u) else q.unplaced.map (fun u => if hit u then (u.1, u.2.1, u.2.2.1, true) else u) })

/-- The node that FLUSH with SCOPE 0 names. -/
def State.flushNode (s : State) (r : Run) : Option Nat :=
  if entOpx r.ins.w 0 1 = 0 then
    (match s.resolve r.comm (entQ1 r.ins.w) with
     | .node n => some n
     | _ => if raForm (entQ1 r.ins.w) = 0 then some (raNode (entQ1 r.ins.w)) else none)
  else none

def State.flushReasons (s : State) (r : Run) : List Nat :=
  let e := r.ins.w
  let one := entOpx e 0 1 == 0
  s.headReasons r.g r.ins false
    ++ reasons [(resvSet e [(17, 1), (64, 64)], 2), (one && (entQ1 e).toNat % 2 ^ 42 != 0, 2), (!one && entQ1 e != 0, 2)]
    ++ (if one then s.remoteWhy r ((entQ1 e) &&& ~~~ (BitVec.ofNat 64 (2 ^ 42 - 1))) 0 false else [])

def State.startFlush (s : State) (r : Run) : State :=
  let e := r.ins.w
  let one := entOpx e 0 1 == 0
  (s.chargeStart r.g).orMalformed r (s.flushReasons r)
    (fun s => s.setRun { r with
      phase := .covered
      covers := s.covered r.g r.rid r.comm (if one then some (entQ1 e) else none)
      reached := if one && (s.flushNode r).isNone then [] else s.unconfirmed r.g (s.flushNode r) })

/-! ## SIGNAL and MARK (R61, R62) -/

def signalFlags (e : Entry) : Nat := entBytes e 24 4

/-- The request of a remote SIGNAL. -/
def signalReq (r : Run) : ReqF :=
  let e := r.ins.w
  { r.req 0x21 (entQ1 e) (entW1 e) (BitVec.ofNat 32 (entOpx e 0 15)) with
    placed := e.getLsbD 192, seterr := e.getLsbD 193, clrerr := e.getLsbD 194 }

/-- A local SIGNAL is applied and completes (R61). -/
def State.signalLocal (s : State) (r : Run) : State :=
  let e := r.ins.w
  let c := s.cbase (s.ownerOf r.g) + entOpx e 0 15
  let s := s.signalCounter c (ent64 e 16) (e.getLsbD 193) (e.getLsbD 194)
  s.complete { r with result := s.rowc c, info := 8 }

def State.signalReasons (s : State) (r : Run) : List Nat :=
  let e := r.ins.w
  let loc := raForm (entQ1 e) == 3
  s.headReasons r.g r.ins false
    ++ reasons [(resvSet e [(17, 15), (32, 32), (64, 64), (128, 63), (192, 3)], 2), (loc && entW1 e != 0, 2),
        (loc && (entQ1 e).toNat % 2 ^ 62 != 0, 2), (e.getLsbD 193 && e.getLsbD 194, 3),
        (!loc && raSpace (entQ1 e) == 2 && raOffset (entQ1 e) != 0, 2), (!loc && decide (raSpace (entQ1 e) < 2), 0xA)]
    ++ (if loc then [] else s.remoteWhy r (entQ1 e) 0 true)

def State.startSignal (s : State) (r : Run) : State :=
  let e := r.ins.w
  let loc := raForm (entQ1 e) == 3
  s.orRejected r (s.signalReasons r)
    (fun s =>
      if loc && (s.globalC (s.ownerOf r.g) (entOpx e 0 15)).isNone then s.completeWith r stAccessLocal
      else if e.getLsbD 192 then
        (s.chargeStartIf loc r.g).setRun { r with
          phase := .covered
          covers := s.covered r.g r.rid r.comm (some (entQ1 e))
          reached := if loc then s.unconfirmed r.g (some s.self) else [] }
      else if loc then (s.chargeStart r.g).signalLocal r
      else s.setRun { r with unsent := [onePacket (signalReq r) (leBytes 8 (ent64 e 16).toNat) 8] })

def markReq (r : Run) : ReqF :=
  { r.req 0x22 (entQ1 r.ins.w) (entW1 r.ins.w) 0 with placed := entOpx r.ins.w 0 1 == 1 }
def markPacket (r : Run) : Unsent := onePacket (markReq r) (leBytes 8 (ent64 r.ins.w 16).toNat) 8

def State.markReasons (s : State) (r : Run) : List Nat :=
  let e := r.ins.w
  s.headReasons r.g r.ins false ++ reasons [(resvSet e [(17, 1), (32, 32), (64, 64), (128, 64)], 2), ((entQ1 e).toNat % 8 != 0, 5)]
    ++ s.remoteWhy r (entQ1 e) 8 false

def State.startMark (s : State) (r : Run) : State :=
  let e := r.ins.w
  s.orRejected r (s.markReasons r)
    (fun s =>
      if entOpx e 0 1 = 1 then
        s.setRun { r with phase := .covered, covers := s.covered r.g r.rid r.comm (some (entQ1 e)) }
      else s.setRun { r with unsent := [markPacket r] })

/-! ## WAIT, FENCE, REPEAT (R60, R63 to R66) -/

def State.waitReasons (s : State) (r : Run) : List Nat :=
  s.headReasons r.g r.ins false ++ reasons [(resvSet r.ins.w [(17, 15), (32, 1), (64, 63)], 2)]

def State.startWait (s : State) (r : Run) : State :=
  let e := r.ins.w
  (s.chargeStart r.g).orMalformed r (s.waitReasons r)
    (fun s => match s.globalC (s.ownerOf r.g) (entOpx e 0 15) with
      | none => s.completeWith r stAccessLocal
      | some _ => s.setRun { r with phase := .counter })

/-- The condition of a WAIT on its counter word (R60): met, and whether it passes a set ERR mark. -/
def waitMet (e : Entry) (v : DWord) : Bool × Bool :=
  let reached := decide (entBits e 64 63 ≤ rowCount v)
  (reached && (!rowErr v || entBits e 32 1 == 1), rowErr v)

/-- A FENCE starts only when every earlier instruction has completed (R63); a malformed one need not wait. -/
def fenceReady (s : State) (g : Nat) (i : Fetched) : Bool := entOrder i.w != 0 || (s.earlier g).isEmpty

def State.fenceReasons (s : State) (r : Run) : List Nat :=
  s.headReasons r.g r.ins false ++ reasons [(resvSet r.ins.w [(17, 1)], 2), (entOrder r.ins.w != 0, 3)]

def State.startFence (s : State) (r : Run) : State :=
  let e := r.ins.w
  (s.chargeStart r.g).orMalformed r (s.fenceReasons r)
    (fun s =>
      if entOpx e 0 1 = 0 then s.completeWith r stOk
      else
        let ns := s.unplacedNodes r.g
        ns.foldl (fun s n => s.askPlacement r.g (some r.rid) n) (s.setRun { r with phase := .requests, asks := ns, reached := ns }))

/-- The reasons of R66, all with DETAIL 0x07. -/
def repeatInvalid (i : Fetched) (body : List Fetched) : Bool :=
  let n := repN i
  let ends := bodyPos body body.length
  n == 0 || decide (32 < n) || decide (14 < repNPatch i) || entW1 i.w == 0
    || (repPatches i).any (fun p => decide (n ≤ p.entry) || decide (7 < p.qword)
        || (p.qword == 0 && (List.range body.length).any (fun k => bodyPos body k == p.entry)))
    || body.any (fun b => entOpcode b.w == 0x28) || decide (n < ends)

/-- Descriptors from NPATCH upward, and bytes 2 and 3 of the others, must be 0 (R64). -/
def repeatResv (i : Fetched) : Bool :=
  ((List.range 14).any (fun n => decide (repNPatch i ≤ n) && patchRaw i n != 0))
    || (List.range (repNPatch i)).any (fun n => (patchRaw i n).extractLsb' 16 16 != 0)

def State.repeatReasons (body : List Fetched) (s : State) (r : Run) : List Nat :=
  let i := r.ins
  s.headReasons r.g i (decide (6 < repNPatch i)) ++ reasons [(resvSet i.w [(17, 10), (32, 32), (128, 384)] || repeatResv i, 2),
    (entQ1 i.w != 0, 2), (repeatInvalid i body, 7)]

/-- REPEAT starts with its body: it becomes the queue's REPEAT in progress, or its body, and what is still to come of it, is consumed (R64 to R66). -/
def State.startRepeat (s : State) (r : Run) (body : List Fetched) : State :=
  let i := r.ins
  let s := s.chargeStart r.g
  match lowestDetail (State.repeatReasons body s r) with
  | some d => (s.modQueue r.g (fun q => { q with
      held := body.map (fun b => { ins := b, body := [], doomed := true }) ++ q.held
      collect := if q.held.isEmpty then q.collect.map (fun c => { c with doomed := true }) else q.collect })).completeWith r stMalformed d
  | none => (s.modQueue r.g (fun q => { q with rep := some { rid := r.rid, ins := i, body, pass := 0, next := 0 } })).setRun { r with phase := .passes }

/-! ## Advancing a run -/

/-- The bytes of buffer k of a run. -/
def Run.buf (r : Run) (k : Nat) : List Byte := (r.bufs[k]?).elim [] (fun b => b.2.1)
/-- Nothing more is to be read. -/
def Run.readDone (r : Run) : Bool := r.bufs.all (fun b => b.2.2 == 0)

/-- The first failed packet of a run in address order (R134). -/
def Run.firstFail (r : Run) : Option PktFail :=
  r.fails.foldl (fun m x => match m with | none => some x | some y => if x.off < y.off then some x else some y) none

/-- A remote operation ends: status by precedence, the reason of the first failing packet, the bytes acknowledged (R52, R53, R88, R134). -/
def State.finishRemote (s : State) (r : Run) : State :=
  match r.firstFail with
  | none => s.complete { r with info := BitVec.ofNat 64 r.acked }
  | some x =>
    let st := r.fails.foldl (fun m y => worst m y.status) stOk
    let s := if entOpcode r.ins.w == 0x12 then
        match r.bufs.head? with
        | some (o, _, _) => if o.space == .pool then
            let d := s.drawBytes o.len
            (d.2.poolWrite o.addr.toNat d.1 .nobody).2 else s
        | none => s
      else s
    s.complete { r with
      status := st
      result := if st == stAccessRemote || st == stKeyRevoked then x.reason.setWidth 64 else 0
      info := BitVec.ofNat 64 r.acked }

/-- Coverage is over: FLUSH asks its nodes, a local SIGNAL asks this node, a PLACED write leaves (R143 steps 2 and 4). -/
def State.coverOver (s : State) (r : Run) : State :=
  let op := entOpcode r.ins.w
  let ask := fun (ns : List Nat) => ns.foldl (fun s n => s.askPlacement r.g (some r.rid) n) (s.setRun { r with phase := .requests, asks := ns, reached := ns })
  if op == 0x14 then ask (match s.flushNode r with | some n => r.reached.filter (· == n) | none => r.reached.dedup)
  else if op == 0x22 then s.setRun { r with phase := .sending, unsent := [markPacket r] }
  else if raForm (entQ1 r.ins.w) = 3 then ask (r.reached.filter (· == s.self)).dedup
  else s.setRun { r with phase := .sending, unsent := [onePacket (signalReq r) (leBytes 8 (ent64 r.ins.w 16).toNat) 8], reached := [] }

/-- The status of failed placement requests: TARGET_LOST before RETRY_EXHAUSTED (R56, R63). -/
def askStatus (r : Run) : BitVec 8 :=
  if r.askFails.any (·.2) then stTargetLost else if r.askFails.isEmpty then stOk else stRetry

/-- Placement requests are over: FLUSH, FENCE and a local PLACED SIGNAL complete (R56, R61, R63). -/
def State.requestsOver (s : State) (r : Run) : State :=
  let op := entOpcode r.ins.w
  let s := s.confirm r.g r.rid (r.reached.filter (fun n => !r.askFails.any (·.1 == n))) (op == 0x14)
  let r : Run := { r with reached := [] }
  if op == 0x21 then s.signalLocal r
  else if op == 0x14 then
    s.completeWith r (match r.covErr with | some (_, st) => st | none => askStatus r)
  else s.completeWith r (askStatus r)

/-- A REPEAT is over once it is no longer in progress and none of its instances is incomplete (R65). -/
def State.passesOver (s : State) (r : Run) : Bool :=
  (match (s.queue r.g).rep with | some p => p.rid != r.rid | none => true) && !s.runs.any (fun x => x.parent == some r.rid)

/-- The source of a PUT or COPY has been read: packets for a PUT, the write for a COPY (R52, R55). -/
def State.readOver (s : State) (r : Run) : State :=
  if entOpcode r.ins.w == 0x10 then
    s.setRun { r with phase := .sending, unsent := putPackets r 0x10 (entQ1 r.ins.w) (entW1 r.ins.w) (r.buf 0) }
  else
    let o := copyDst r.ins.w
    let w := s.writeLocal (s.ownerOf r.g) (qPasid (s.queue r.g).desc) o.space o.addr (r.buf 0) (.run r.rid 1)
    w.2.setRun { r with phase := .placing, writes := w.1, info := BitVec.ofNat 64 o.len }

/-- What the node does next for a run of this file's opcodes, if anything (R44 to R66). -/
def State.advanceMove (s : State) (r : Run) : Option State :=
  match r.phase with
  | .granting => s.grantPiece r
  | .reading => if r.readDone then some (s.readOver r) else none
  | .sending => if r.unsent.isEmpty && r.outstanding == 0 && r.writes == 0 then some (s.finishRemote r) else none
  | .placing => if r.writes == 0 then some (s.complete r) else none
  | .counter =>
    let c := s.cbase (s.ownerOf r.g) + entOpx r.ins.w 0 15
    if s.globalC (s.ownerOf r.g) (entOpx r.ins.w 0 15) == none then some (s.completeWith r stAccessLocal)
    else
      let m := waitMet r.ins.w (s.rowc c)
      if m.1 then some (s.complete { r with result := s.rowc c, flags := if m.2 then flErrSeen else 0 }) else none
  | .covered => if r.covers.isEmpty then some (s.coverOver r) else none
  | .requests => if r.asks.isEmpty then some (s.requestsOver r) else none
  | .passes => if s.passesOver r then some (s.completeWith r stOk) else none
  | _ => none

end Sys2Proof.Machine
end

