-- ==== Sys2Proof/Machine/Tickets.lean ====
section
/-! DEFINITION. What happens when local data arrive, a local write is placed, or a local access fails; translation streams that resume
(R48, R103, R144, R349, R354, R355, R369). -/

namespace Sys2Proof.Machine

/-- A request in service with the given source and PSN. -/
def State.service? (s : State) (src psn : Nat) : Option (Hdr × ReqF × Packet) :=
  (s.inService.find? (fun p => p.hdr.src.toNat == src && p.hdr.psn.toNat == psn)).bind (fun p => match p.body with
    | .request r => some (p.hdr, r, p)
    | _ => none)

/-- Bytes of a PUT packet's source have been read again for its retained copy; with the last it is rebuilt (R280). -/
def State.rebuilt (s : State) (peer : Nat) (psn : Word) (off : Nat) (bs : List Byte) : State :=
  match (s.path peer).retained.find? (fun x => x.pkt.hdr.psn == psn && decide (0 < x.missing)) with
  | none => s
  | some x =>
    let y := { x with missing := x.missing - bs.length, pkt := { x.pkt with payload := patchBytes x.pkt.payload off bs } }
    let s := s.modPath peer (fun p => { p with retained := p.retained.map (fun z => if z.pkt.hdr.psn == psn then y else z) })
    if y.missing = 0 then s.count 0x220018 else s

/-- Data arrive for a ticket: into a run's buffer, or as the answer of a remote GET (R137). -/
def State.ticketData (s : State) (t : Ticket) (off : Nat) (bs : List Byte) : State :=
  match t with
  | .run rid b => match s.run? rid with
    | none => s
    | some r => match r.bufs[b]? with
      | none => s
      | some (o, d, m) => s.setRun { r with bufs := r.bufs.set b (o, patchBytes d off bs, m - bs.length) }
  | .remoteRead src psn => match s.service? src psn with
    | none => s
    | some (h, r, p) => (({ s with inService := s.inService.erase p }).respond h r 0 false bs).unadmit src psn
  | .rebuild peer psn => s.rebuilt peer psn off bs
  | _ => s

/-- One write into a destination chunk of a collective is placed (R172). -/
def State.collPlaced (s : State) (rid chunk : Nat) : State :=
  { s with colls := s.colls.map (fun c => if c.rid = rid then { c with wr := c.wr.map (fun w => if w.1 = chunk then (w.1, w.2 - 1) else w) } else c) }

/-- One local write of a ticket is placed (R142, R144). -/
def State.ticketPlaced (s : State) (t : Ticket) : State :=
  match t with
  | .run rid _ => match s.run? rid with
    | none => s
    | some r => s.setRun { r with writes := r.writes - 1 }
  | .record g ctr err sol => s.afterRecord g ctr err sol
  | .remote src _ psn => s.unadmit src psn
  | .remoteRead src psn => s.unadmit src psn
  | .accelMsg a tag _ => s.attachSend a { amsg 0x06 with tag := tag }
  | .ringRec k f => (s.recWritten k f).recPump k f (s.recs k f).length
  | .coll rid c => s.collPlaced rid c
  | .cring _ => s
  | .wring _ => s
  | .rebuild _ _ => s
  | .nobody => s

/-- A remote request fails after its acceptance, on the accelerator's answer (R369). -/
def State.serviceFails (s : State) (src psn : Nat) (st reason : BitVec 8) : State :=
  match s.service? src psn with
  | none => s.unadmit src psn
  | some (h, r, p) => ((({ s with inService := s.inService.erase p }).unadmit src psn)).rejectReq h r st reason

/-! ## Communicators (R85, R149) -/

def commAction (e : Entry) : Nat := entOpx e 0 2
def coComm (e : Entry) : Nat := (entW1 e).toNat % 2 ^ 24

/-- A communicator that function of queue g created at this node (R149). -/
def State.ownComm (s : State) (g c : Nat) : Option Comm := (s.comm c).filter (fun x => x.creator == s.ownerOf g)

/-- The handle of a COMM is one that its ACTION may not name: for create one in use, else one that the function has not created (R72, R85). -/
def State.wrongHandle (s : State) (r : Run) : Bool :=
  let h := coComm r.ins.w
  if commAction r.ins.w = 0 then (s.comm h).isSome else (s.ownComm r.g h).isNone

/-- A local access of a ticket fails: its status for an instruction with the address it reports, RING_FAULT for a ring, a count for a fault
or sample record (R48, R103, R369, R385, R427). why is the code of RING_FAULT. A wrong handle of COMM stands before the failed read of its map
(R88). -/
def State.ticketFail (s : State) (t : Ticket) (st : BitVec 8) (addr : DWord) (why : Nat) : State :=
  match t with
  | .run rid b => match s.run? rid with
    | none => s
    | some r =>
      if r.phase = .ending then s
      else if entOpcode r.ins.w == 0x58 && s.wrongHandle r then s.completeWith r stMalformed 9
      else s.completeWith r st 0 (if st == stAccessLocal then (r.bufs[b]?).elim addr (fun x => s.wholeAddr r x.1) else addr)
  | .record g ctr err sol => (s.ringFails g true why addr).afterRecord g ctr err sol
  | .cring g => s.ringFails g true why addr
  | .wring g => s.ringFails g false why addr
  | .ringRec k f => (s.recFailed k f).recPump k f (s.recs k f).length
  | .remote src _ psn => s.unadmit src psn
  | .remoteRead src psn => s.serviceFails src psn (if why = 3 then stTargetLost else stAccessRemote) (if why = 3 then 0 else rsRange)
  | .coll rid _ => match s.run? rid with
    | none => s
    | some r => if r.phase = .ending then s else s.completeWith r st 0 addr
  | .rebuild peer psn => match ((s.path peer).retained.find? (fun x => x.pkt.hdr.psn == psn)).bind (fun x => x.rid.bind s.run?) with
    | none => s
    | some r => if r.phase = .ending then s else s.completeWith r st 0 addr
  | .accelMsg a tag _ => s.attachSend a { amsg 0x06 with tag := tag, status := stAccessRemote, reason := rsRange }
  | .nobody => s

/-! ## Streams that resume (R354, R355) -/

/-- A parked stream goes on from where it stopped. -/
def State.resumePark (s : State) (p : Park) : State :=
  let s : State := { s with parks := s.parks.erase p }
  if (p.ticket matches .cring _) || (p.ticket matches .wring _) then s
  else if p.write || p.probe then
    let w := if p.probe then s.xlateAll (p.len / 4096 + 2) p.f p.pasid p.va p.len p.write p.ticket
      else s.hostWriteAll (p.len / 4096 + 2) p.f p.pasid p.va p.data p.ticket
    if w.1 = 0 then w.2.ticketPlaced p.ticket else w.2
  else s.hostRead (p.len / 4096 + 2) p.f p.pasid p.va p.len p.off p.ticket

/-- The lowest address, in the page of va, of the operand that a ticket reads or writes there; va where the ticket is of no operand (R48). -/
def State.failedAt (s : State) (t : Ticket) (va : DWord) : DWord :=
  let rid := match t with
    | .run rid _ => some rid
    | .coll rid _ => some rid
    | _ => none
  let os := (rid.bind s.run?).elim [] s.opndsOf
  match os.find? (fun o => o.space == .hostva && decide (o.addr.toNat ≤ va.toNat) && decide (va.toNat < o.addr.toNat + o.len)) with
  | some o => BitVec.ofNat 64 (max o.addr.toNat (va.toNat / 4096 * 4096))
  | none => va

/-- A stream whose translation has failed (R355). -/
def State.failPark (s : State) (p : Park) : State :=
  (({ s with parks := s.parks.erase p }).count 0x240020).ticketFail p.ticket stTranslation (s.failedAt p.ticket p.va) 1

/-- Changes the state of a parked stream. -/
def State.setPark (s : State) (p : Park) (st : ParkState) : State :=
  { s with parks := s.parks.map (fun x => if x = p then { p with st := st } else x) }

/-- The function can have one more Page Request outstanding: 512 at most (R344, R355). -/
def State.pageRoom (s : State) (f : Nat) : Bool := decide ((s.parks.filter (fun y => y.st == .paging && y.f == f)).length < 512)

/-- No usable translation: a Page Request where PRI allows one, a fault otherwise; with the capacity reached the stream waits for it (R355). -/
def State.pageOrFail (s : State) (p : Park) : State :=
  let x := s.func p.f
  if x.pri && !x.priStopped then
    if s.pageRoom p.f then
      ((s.setPark p .paging).count 0x240028).emit (.pageReq p.f p.pasid (BitVec.ofNat 64 (p.va.toNat / 4096 * 4096)) p.write)
    else s.setPark p .pageWaiting
  else s.failPark p

/-- A waiting stream that can go on now: its translation is cached, or none is needed. -/
def State.parkReady (s : State) (p : Park) : Bool :=
  p.st == .waiting && s.hostReach p.f && (p.write || decide (s.hreads.length < 1024))
    && (!s.usesAts p.f || (s.xlate? p.f p.pasid p.va p.write).isSome)

/-- A waiting stream whose Translation Request may be sent now (R354). -/
def State.parkAdmissible (s : State) (p : Park) : Bool := (s.admitPark p).1 != p

/-- The next stream that resumes or sends its request, in the order in which the streams missed. -/
def State.tryParks (s : State) : Option State :=
  match s.parks.find? s.parkReady with
  | some p => some (s.resumePark p)
  | none => match s.parks.find? (fun p => p.st == .pageWaiting && s.pageRoom p.f) with
    | some p => some (s.pageOrFail p)
    | none => (s.parks.find? s.parkAdmissible).map (fun p =>
      { (s.admitPark p).2 with parks := s.parks.map (fun x => if x = p then (s.admitPark p).1 else x) })

/-- A read tag is free again: invalidations that waited for it may complete (R356). -/
def State.readEnded (s : State) (tag : Nat) : State :=
  let s : State := { s with hreads := s.hreads.filter (fun r => r.tag != tag), invals := s.invals.map (fun v => (v.1, v.2.1, v.2.2.filter (· != tag))) }
  let done := s.invals.filter (fun v => v.2.2.isEmpty)
  done.foldl (fun s v => s.emit (.invalDone v.1 v.2.1)) { s with invals := s.invals.filter (fun v => !v.2.2.isEmpty) }

/-! ## Window lines and unit saves (R319, R350) -/

/-- A pooled-memory write that waited for snoops is tried again. -/
def State.tryWinWaits (s : State) : Option State :=
  (s.winWaits.find? (fun w => (s.markedLines w.off w.data.length).isEmpty)).map (fun w =>
    let r := ({ s with winWaits := s.winWaits.erase w } : State).poolWrite w.off w.data w.ticket
    if r.1 then r.2.ticketPlaced w.ticket else r.2)

/-- A write that waited for unit saves is applied. -/
def State.tryUnitWaits (s : State) : Option State :=
  (s.unitWaits.find? (fun w => !s.writeWaits w.off w.data.length)).map (fun w =>
    (({ s with unitWaits := s.unitWaits.erase w } : State).pwrite w.off w.data).ticketPlaced w.ticket)

/-- A read that waited for a lost line is served (R291). -/
def State.tryPoolWaits (s : State) : Option State :=
  (s.poolWaits.find? (fun w => !s.lineLost w.off w.len)).map (fun w =>
    ({ s with poolWaits := s.poolWaits.erase w } : State).ticketData w.ticket w.boff (s.pread w.off w.len))

end Sys2Proof.Machine
end

