-- ==== Sys2Proof/Machine/Check.lean ====
section
/-! DEFINITION. Cyclic check values (R82) and the CHECK instruction. -/

namespace Sys2Proof.Machine

/-- The value of a CHECK: ALG, an initial value where USE_INIT is 1, the running value where RAW is 1 (R82). With ALG 0, bits 63 to 32 of INIT are
ignored and those of EXPECT are compared with zeros (DESIGN CHOICE, log entry 61). -/
def checkValue (alg : Bool) (init : Option DWord) (raw : Bool) (bs : List Byte) : DWord :=
  if alg then
    let r := crcRun poly64 (init.getD 0xFFFFFFFFFFFFFFFF) bs
    if raw then r else r ^^^ 0xFFFFFFFFFFFFFFFF
  else
    let r := crcRun polyC ((init.map (fun v => v.setWidth 32)).getD 0xFFFFFFFF) bs
    (if raw then r else r ^^^ 0xFFFFFFFF).setWidth 64

/-- The value that the fields of a CHECK entry give over its bytes. -/
def checkOf (e : Entry) (bs : List Byte) : DWord :=
  checkValue (entOpx e 2 1 == 1) (if entOpx e 4 1 = 1 then some (ent64 e 32) else none) (entOpx e 5 1 == 1) bs

def checkSrc (e : Entry) : Opnd := opnd (entOpx e 0 2) (entQ1 e) (entW1 e) (entBytes e 16 8)

/-- CHECK completes with its value as RESULT; with CMP a difference gives CHECK_MISMATCH (R82), but with LEN 0 it completes with OK (R130). -/
def State.checkOver (s : State) (r : Run) (bs : List Byte) : State :=
  let v := checkOf r.ins.w bs
  let cmp := decide (entOpx r.ins.w 3 1 = 1) && decide (entBytes r.ins.w 16 8 ≠ 0)
  (s.count 0x250000 bs.length).complete { r with
    result := v
    status := if cmp && v != ent64 r.ins.w 24 then stMismatch else stOk
    info := BitVec.ofNat 64 bs.length }

def State.checkReasons (s : State) (r : Run) : List Nat :=
  let e := r.ins.w
  let len := entBytes e 16 8
  s.headReasons r.g r.ins false
    ++ reasons [(resvSet e [(17, 6), (32, 32), (64, 64), (128, 64), (192, 64), (256, 64)], 2), (decide (2 ^ 40 < len), 4),
        (entOpx e 3 1 == 1 && entOpx e 5 1 == 1, 3)]
    ++ localReasons (entOpx e 0 2) (entQ1 e) (entW1 e) len

def State.startCheck (s : State) (r : Run) : State :=
  let e := r.ins.w
  let len := entBytes e 16 8
  (s.chargeStart r.g).orMalformed r (s.checkReasons r)
    (fun s =>
      if len = 0 then s.checkOver r []
      else s.orLocalFail r [checkSrc e] (fun s =>
        let d := s.readOpnd (s.ownerOf r.g) (qPasid (s.queue r.g).desc) (checkSrc e) (.run r.rid 0)
        d.2.2.setRun { r with phase := .reading, bufs := [(checkSrc e, d.1, d.2.1)] }))

end Sys2Proof.Machine
end

