-- ==== Sys2Proof/Machine/Float.lean ====
section
/-! DEFINITION. Reduction arithmetic: the number formats, scaled blocks, conversions, operators and the reciprocal and square-root
methods (R179 to R192, R203 to R205). -/

namespace Sys2Proof.Machine

/-! ## Exceptions (R191) -/

/-- The arithmetic exceptions of R191. -/
structure Exc where
  nanIn : Bool := false
  invalid : Bool := false
  overflow : Bool := false
  divZero : Bool := false
  deriving DecidableEq, Repr

def Exc.none : Exc := {}
def Exc.join (a b : Exc) : Exc :=
  { nanIn := a.nanIn || b.nanIn, invalid := a.invalid || b.invalid, overflow := a.overflow || b.overflow, divZero := a.divZero || b.divZero }
/-- Some exception is raised. -/
def Exc.any (e : Exc) : Bool := e.nanIn || e.invalid || e.overflow || e.divZero
def excNan : Exc := { nanIn := true }
def excInvalid : Exc := { invalid := true }
def excOverflow (o : Bool) : Exc := { overflow := o }
def excDivZero : Exc := { divZero := true }

/-! ## Floating-point formats (R180, R181) -/

/-- A format: exponent and fraction bits, bias, the code of its largest finite magnitude, and the codes of +infinity and of its NaN, where it has
them. -/
structure Fmt where
  ebits : Nat
  fbits : Nat
  bias : Nat
  maxCode : Nat
  inf : Option Nat
  nan : Option Nat
  deriving DecidableEq, Repr

def fp32 : Fmt := ⟨8, 23, 127, 0x7F7FFFFF, some 0x7F800000, some 0x7FC00000⟩
def bf16 : Fmt := ⟨8, 7, 127, 0x7F7F, some 0x7F80, some 0x7FC0⟩
def fp16 : Fmt := ⟨5, 10, 15, 0x7BFF, some 0x7C00, some 0x7E00⟩
def fp8e4 : Fmt := ⟨4, 3, 7, 0x7E, none, some 0x7F⟩
def fp8e5 : Fmt := ⟨5, 2, 15, 0x7B, some 0x7C, some 0x7E⟩
def e3m2 : Fmt := ⟨3, 2, 3, 0x1F, none, none⟩
def e2m1 : Fmt := ⟨2, 1, 1, 0x7, none, none⟩

/-- The place of the sign bit. -/
def Fmt.sbit (f : Fmt) : Nat := 2 ^ (f.ebits + f.fbits)
/-- The exponent of the unit in the last place of subnormals. -/
def Fmt.emin (f : Fmt) : Int := 1 - (f.bias : Int) - (f.fbits : Int)

/-- A value: NaN, an infinity with its sign, or (-1)^neg × m × 2^e. -/
inductive Val where
  | nan
  | inf (neg : Bool)
  | fin (neg : Bool) (m : Nat) (e : Int)
  deriving DecidableEq, Repr

/-- The value of a code (R180): codes above the largest finite magnitude are the infinity of the format or a NaN. -/
def Fmt.value (f : Fmt) (code : Nat) : Val :=
  let neg := decide (code / f.sbit % 2 = 1)
  let c := code % f.sbit
  if c ≤ f.maxCode then
    let ex := c / 2 ^ f.fbits
    let fr := c % 2 ^ f.fbits
    if ex = 0 then .fin neg fr f.emin else .fin neg (2 ^ f.fbits + fr) (f.emin + ex - 1)
  else if f.inf = some c then .inf neg
  else .nan

/-- m × 2^sh rounded to the nearest integer, ties to even. -/
def rneShift (m : Nat) (sh : Int) : Nat :=
  if 0 ≤ sh then m * 2 ^ sh.toNat
  else
    let d := 2 ^ (-sh).toNat
    let q := m / d
    let r := m % d
    if d < 2 * r ∨ (2 * r = d ∧ q % 2 = 1) then q + 1 else q

/-- The magnitude code that m × 2^e rounds to with an unbounded exponent above (R188). -/
def Fmt.roundMag (f : Fmt) (m : Nat) (e : Int) : Nat :=
  if m = 0 then 0
  else
    let q := max ((Nat.log2 m : Int) + e - (f.fbits : Int)) f.emin
    (q - f.emin).toNat * 2 ^ f.fbits + rneShift m (e - q)

/-- A code with a sign. -/
def Fmt.signed (f : Fmt) (neg : Bool) (c : Nat) : Nat := if neg then f.sbit + c else c

/-- Rounds a value to a format (R188): a format without infinity saturates, and encodes an infinity as NaN. -/
def Fmt.round (f : Fmt) (v : Val) : Nat × Exc :=
  match v with
  | .nan => (f.nan.getD 0, excNan)
  | .inf neg => match f.inf with
    | some c => (f.signed neg c, Exc.none)
    | none => (f.nan.getD f.maxCode, excInvalid)
  | .fin neg m e =>
    let c := f.roundMag m e
    if c ≤ f.maxCode then (f.signed neg c, Exc.none) else (f.signed neg (f.inf.getD f.maxCode), excOverflow true)

/-! ## FP32 operations (R179, R189) -/

/-- The value of an FP32 code. -/
def fval (a : Word) : Val := fp32.value a.toNat
/-- Rounds to FP32. -/
def toF (v : Val) : Word × Exc := let r := fp32.round v; (BitVec.ofNat 32 r.1, r.2)
def qnan : Word := 0x7FC00000
def finf (neg : Bool) : Word := if neg then 0xFF800000 else 0x7F800000
def fzero (neg : Bool) : Word := if neg then 0x80000000 else 0

/-- Sum of two finite values, exact; an exact zero is −0 only where both terms are negative zeros. -/
def exactSum (n1 : Bool) (m1 : Nat) (e1 : Int) (n2 : Bool) (m2 : Nat) (e2 : Int) : Val :=
  let e := min e1 e2
  let x : Int := (m1 * 2 ^ (e1 - e).toNat : Nat)
  let y : Int := (m2 * 2 ^ (e2 - e).toNat : Nat)
  let z := (if n1 then -x else x) + (if n2 then -y else y)
  if z = 0 then .fin (n1 && n2 && m1 == 0 && m2 == 0) 0 0 else .fin (decide (z < 0)) z.natAbs e

/-- a + b of two values, before rounding, with INVALID. -/
def sumVal (a b : Val) : Val × Exc :=
  match a, b with
  | .nan, _ => (.nan, excNan)
  | _, .nan => (.nan, excNan)
  | .inf x, .inf y => if x = y then (.inf x, Exc.none) else (.nan, excInvalid)
  | .inf x, .fin _ _ _ => (.inf x, Exc.none)
  | .fin _ _ _, .inf y => (.inf y, Exc.none)
  | .fin n1 m1 e1, .fin n2 m2 e2 => (exactSum n1 m1 e1 n2 m2 e2, Exc.none)

/-- a × b of two values, before rounding. -/
def mulVal (a b : Val) : Val × Exc :=
  match a, b with
  | .nan, _ => (.nan, excNan)
  | _, .nan => (.nan, excNan)
  | .inf x, .inf y => (.inf (x != y), Exc.none)
  | .inf x, .fin n m _ => if m = 0 then (.nan, excInvalid) else (.inf (x != n), Exc.none)
  | .fin n m _, .inf y => if m = 0 then (.nan, excInvalid) else (.inf (n != y), Exc.none)
  | .fin n1 m1 e1, .fin n2 m2 e2 => (.fin (n1 != n2) (m1 * m2) (e1 + e2), Exc.none)

/-- Rounds an operation's exact result once; a NaN that the operation made raises what the operation raised. -/
def finishF (r : Val × Exc) : Word × Exc :=
  match r.1 with
  | .nan => (qnan, r.2)
  | v => let t := toF v; (t.1, r.2.join t.2)

def fadd (a b : Word) : Word × Exc := finishF (sumVal (fval a) (fval b))
def fneg (a : Word) : Word := a ^^^ 0x80000000
def fsub (a b : Word) : Word × Exc := fadd a (fneg b)
def fmul (a b : Word) : Word × Exc := finishF (mulVal (fval a) (fval b))
/-- a × b + c, formed exactly and rounded once (R198). -/
def ffma (a b c : Word) : Word × Exc :=
  let p := mulVal (fval a) (fval b)
  if fval c = .nan then (qnan, excNan)
  else match p.1 with
    | .nan => (qnan, p.2)
    | v => finishF (sumVal v (fval c))

/-- a < b on values that are not NaN, with −0 below +0 (R189). -/
def valLt (a b : Val) : Bool :=
  match a, b with
  | .nan, _ => false
  | _, .nan => false
  | .inf x, .inf y => x && !y
  | .inf x, .fin _ _ _ => x
  | .fin _ _ _, .inf y => !y
  | .fin n1 m1 e1, .fin n2 m2 e2 =>
    let e := min e1 e2
    let x := m1 * 2 ^ (e1 - e).toNat
    let y := m2 * 2 ^ (e2 - e).toNat
    match n1, n2 with
    | true, true => decide (y < x)
    | false, false => decide (x < y)
    | true, false => true
    | false, true => false

def fmax (a b : Word) : Word × Exc :=
  if fval a = .nan ∨ fval b = .nan then (qnan, excNan) else (if valLt (fval a) (fval b) then b else a, Exc.none)
def fmin (a b : Word) : Word × Exc :=
  if fval a = .nan ∨ fval b = .nan then (qnan, excNan) else (if valLt (fval b) (fval a) then b else a, Exc.none)

/-! ## RCP, RSQRT and SQRT (R203 to R205) -/

/-- m and e of a finite non-zero value: m in [1, 2) as an FP32 code, with its fraction bits. -/
def normalise (m : Nat) (e : Int) : Nat × Int :=
  let k := Nat.log2 m
  ((m * 2 ^ (23 - k)) % 2 ^ 23, e + k)

/-- The FP32 code of 1.f. -/
def oneF (f : Nat) : Word := BitVec.ofNat 32 (0x3F800000 + f)

/-- An FP32 value times 2^k, rounded once. -/
def scaleF (neg : Bool) (y : Word) (k : Int) : Word × Exc :=
  match fval y with
  | .fin _ m e => toF (.fin neg m (e + k))
  | _ => (y, Exc.none)

/-- t_rcp[i] (R203). -/
def tRcp (i : Nat) : Word := (toF (.fin false ((2 ^ 24 / (257 + 2 * i) + 1) / 2) (-15))).1

/-- One refinement of the reciprocal of m (R203). -/
def rcpStep (m y : Word) : Word := (ffma y (ffma (fneg m) y 0x3F800000).1 y).1

def frcp (a : Word) : Word × Exc :=
  match fval a with
  | .nan => (qnan, excNan)
  | .inf n => (fzero n, Exc.none)
  | .fin n 0 _ => (finf n, excDivZero)
  | .fin n m e =>
    let x := normalise m e
    let one := oneF x.1
    scaleF n (rcpStep one (rcpStep one (tRcp (x.1 / 2 ^ 16)))) (-x.2)

/-- Integer square root, by the bits from 2^k down. -/
def isqrt : Nat → Nat → Nat → Nat
  | 0, _, r => r
  | k + 1, n, r => isqrt k n (if (r + 2 ^ k) * (r + 2 ^ k) ≤ n then r + 2 ^ k else r)

/-- t_rsq[i] (R204): the integer nearest to 2^15 / √c, times 2^−15. -/
def tRsq (j p : Nat) : Word := (toF (.fin false ((isqrt 24 (4 * 2 ^ (37 - p) / (129 + 2 * j)) 0 + 1) / 2) (-15))).1

/-- One refinement of the reciprocal square root, with h half the operand (R204). -/
def rsqStep (h y : Word) : Word :=
  let t := (fmul y y).1
  (fmul y (ffma (fneg h) t 0x3FC00000).1).1

def frsqrt (a : Word) : Word × Exc :=
  match fval a with
  | .nan => (qnan, excNan)
  | .fin n 0 _ => (finf n, excDivZero)
  | .inf false => (0, Exc.none)
  | .inf true => (qnan, excInvalid)
  | .fin true _ _ => (qnan, excInvalid)
  | .fin false m e =>
    let x := normalise m e
    let p := (x.2 % 2).toNat
    let h := (scaleF false (oneF x.1) (p - 1)).1
    scaleF false (rsqStep h (rsqStep h (tRsq (x.1 / 2 ^ 17) p))) (-((x.2 - p) / 2))

def fsqrt (a : Word) : Word × Exc :=
  match fval a with
  | .nan => (qnan, excNan)
  | .fin n 0 _ => (fzero n, Exc.none)
  | .inf false => (a, Exc.none)
  | .inf true => (qnan, excInvalid)
  | .fin true _ _ => (qnan, excInvalid)
  | .fin false _ _ => fmul a (frsqrt a).1

/-! ## Element formats (R68) -/

/-- IFMT, WFMT and OFMT of R68. -/
inductive EFmt where
  | fp (f : Fmt)
  /-- An integer of so many bytes. -/
  | int (bytes : Nat)
  /-- A scaled block of elements of a format (SB8, SB6, SB4). -/
  | block (f : Fmt)
  deriving DecidableEq, Repr

def eFmt (c : Nat) : Option EFmt :=
  match c with
  | 0 => some (.fp fp32)
  | 1 => some (.fp bf16)
  | 2 => some (.fp fp16)
  | 3 => some (.fp fp8e4)
  | 4 => some (.fp fp8e5)
  | 5 => some (.int 1)
  | 6 => some (.int 4)
  | 7 => some (.int 8)
  | 8 => some (.block fp8e4)
  | 9 => some (.block e3m2)
  | 0xA => some (.block e2m1)
  | _ => none

def EFmt.isInt : EFmt → Bool
  | .int _ => true
  | _ => false
def EFmt.isBlock : EFmt → Bool
  | .block _ => true
  | _ => false

/-- Bytes of one element in memory; a scaled block never stands in memory (R69). -/
def EFmt.size : EFmt → Nat
  | .fp f => (1 + f.ebits + f.fbits) / 8
  | .int n => n
  | .block _ => 1

/-- Bytes on the wire of n elements (R182). -/
def EFmt.wireBytes (f : EFmt) (n : Nat) : Nat :=
  match f with
  | .block g => (n + 31) / 32 * (4 * (1 + g.ebits + g.fbits) + 1)
  | _ => n * f.size

/-- The format of partials (R157). -/
def EFmt.partialFmt : EFmt → EFmt
  | .fp f => if f.ebits + f.fbits = 7 then .block fp8e4 else .fp f
  | .int n => if n = 1 then .int 4 else .int n
  | .block _ => .block fp8e4

/-! ## Elements: an FP32 code in the low word, or a 64-bit accumulator (R186, R187) -/

def f2e (a : Word) : DWord := a.setWidth 64
def e2f (a : DWord) : Word := a.setWidth 32

/-- Little-endian number of bytes. -/
def leVal : List Byte → Nat
  | [] => 0
  | b :: bs => b.toNat + 256 * leVal bs
/-- n bytes of a number. -/
def leSplit : Nat → Nat → List Byte
  | 0, _ => []
  | n + 1, v => BitVec.ofNat 8 v :: leSplit n (v / 256)

/-- Cuts a list into pieces of n. -/
def piecesN {α : Type} (n : Nat) : Nat → List α → List (List α)
  | 0, _ => []
  | k + 1, l => if l.isEmpty then [] else l.take n :: piecesN n k (l.drop n)
def pieces {α : Type} (n : Nat) (l : List α) : List (List α) := piecesN n (l.length + 1) l

/-- An n-bit two's-complement number as a 64-bit accumulator. -/
def signExt (n v : Nat) : DWord := if v / 2 ^ (n - 1) % 2 = 1 then BitVec.ofNat 64 (v + 2 ^ 64 - 2 ^ n) else BitVec.ofNat 64 v

/-- An accumulator narrowed to n bytes, saturating (R188). -/
def narrow (n : Nat) (v : DWord) : Nat × Exc :=
  let x := v.toInt
  let top : Int := 2 ^ (8 * n - 1)
  if x < -top then ((top).toNat, excOverflow true)
  else if top ≤ x then ((top - 1).toNat, excOverflow true)
  else (v.toNat % 2 ^ (8 * n), Exc.none)

/-- Joins the results and exceptions of a list of conversions. -/
def collect {α : Type} (l : List (α × Exc)) : List α × Exc := (l.map Prod.fst, l.foldl (fun e x => e.join x.2) Exc.none)

/-! ## Scaled blocks (R182 to R185) -/

/-- Bits of an element of a block format. -/
def Fmt.bits (f : Fmt) : Nat := 1 + f.ebits + f.fbits

/-- Decodes one block of bytes into 32 FP32 codes (R184). -/
def blockDecode (f : Fmt) (bs : List Byte) : List DWord × Exc :=
  let n := 4 * f.bits
  let body := leVal (bs.take n)
  let x := leVal ((bs.drop n).take 1)
  if x = 255 then (List.replicate 32 (f2e qnan), excNan)
  else collect ((List.range 32).map (fun i =>
    match f.value (body / 2 ^ (f.bits * i) % 2 ^ f.bits) with
    | .fin s m e => let r := toF (.fin s m (e + (x : Int) - 127)); (f2e r.1, r.2)
    | _ => (f2e qnan, excNan)))

/-- The finite magnitude of an FP32 value. -/
def magOf (v : Val) : Nat × Int := match v with
  | .fin _ m e => (m, e)
  | _ => (0, 0)

/-- The scale exponent s of a block (R185), for the largest magnitude m × 2^e. -/
def blockScale (f : Fmt) (m : Nat) (e : Int) : Int :=
  let emax : Int := if f.ebits = 4 then 8 else if f.ebits = 3 then 4 else 2
  let s := (Nat.log2 m : Int) + e - emax
  max (if f.roundMag m (e - s) ≤ f.maxCode then s else s + 1) (-127)

/-- Encodes 32 FP32 codes as a block (R185): element bytes, then the scale byte. -/
def blockEncode (f : Fmt) (vs : List DWord) : List Byte × Exc :=
  let xs := vs.map (fun v => fval (e2f v))
  if xs.any (fun v => match v with | .fin _ _ _ => false | _ => true) then
    (List.replicate (4 * f.bits) 0 ++ [255], if xs.any (fun v => v == .nan) then excNan else excInvalid)
  else
    let top := xs.foldl (fun b v => if valLt (.fin false b.1 b.2) (.fin false (magOf v).1 (magOf v).2) then magOf v else b) ((0, 0) : Nat × Int)
    let s := if top.1 = 0 then -127 else blockScale f top.1 top.2
    let body := (xs.map (fun v => match v with
      | .fin n m e => f.signed n (f.roundMag m (e - s))
      | _ => 0)).foldr (fun c t => c + 2 ^ f.bits * t) 0
    (leSplit (4 * f.bits) body ++ [BitVec.ofNat 8 (s + 127).toNat], Exc.none)

/-! ## Conversions of element lists (R156, R187, R188) -/

/-- Reads the elements of a byte string: widening to FP32 or to the accumulator. A last block's elements beyond n are dropped. -/
def EFmt.widen (f : EFmt) (n : Nat) (bs : List Byte) : List DWord × Exc :=
  match f with
  | .fp g => collect (((pieces f.size bs).take n).map (fun b => let r := toF (g.value (leVal b)); (f2e r.1, r.2)))
  | .int k => (((pieces k bs).take n).map (fun b => signExt (8 * k) (leVal b)), Exc.none)
  | .block g =>
    let r := collect ((pieces (4 * g.bits + 1) bs).map (blockDecode g))
    (r.1.flatten.take n, r.2)

/-- Writes elements in a format: rounding from FP32 or narrowing the accumulator. A short last block is filled with +0 (DEDUCED, log entry 11). -/
def EFmt.narrowTo (f : EFmt) (vs : List DWord) : List Byte × Exc :=
  match f with
  | .fp g => let r := collect (vs.map (fun v => let r := g.round (fval (e2f v)); (leSplit f.size r.1, r.2))); (r.1.flatten, r.2)
  | .int k => let r := collect (vs.map (fun v => let r := narrow k v; (leSplit k r.1, r.2))); (r.1.flatten, r.2)
  | .block g =>
    let r := collect ((pieces 32 vs).map (fun b => blockEncode g (b ++ List.replicate (32 - b.length) 0)))
    (r.1.flatten, r.2)

/-- Bytes of n elements in a format; of a scaled block the last block is whole. -/
def EFmt.wireLen (f : EFmt) (n : Nat) : Nat :=
  match f with
  | .block g => (n + 31) / 32 * (4 * g.bits + 1)
  | _ => n * f.size

/-! ## Operators (R189, R190) -/

/-- The operator OP on one element. -/
def opElem (isInt : Bool) (op : Nat) (a b : DWord) : DWord × Exc :=
  if isInt then
    match op with
    | 0 =>
      let s := a.toInt + b.toInt
      if s < -(2 ^ 63) then (BitVec.ofNat 64 (2 ^ 63), excOverflow true)
      else if (2 ^ 63 : Int) ≤ s then (BitVec.ofNat 64 (2 ^ 63 - 1), excOverflow true)
      else (a + b, Exc.none)
    | 1 => (if a.toInt < b.toInt then b else a, Exc.none)
    | 2 => (if b.toInt < a.toInt then b else a, Exc.none)
    | 3 => (a ^^^ b, Exc.none)
    | 4 => (a &&& b, Exc.none)
    | _ => (a ||| b, Exc.none)
  else
    let r := match op with
      | 0 => fadd (e2f a) (e2f b)
      | 1 => fmax (e2f a) (e2f b)
      | _ => fmin (e2f a) (e2f b)
    (f2e r.1, r.2)

/-- The operator on two lists of elements. -/
def opList (isInt : Bool) (op : Nat) (a b : List DWord) : List DWord × Exc := collect (List.zipWith (opElem isInt op) a b)

/-! ## Error feedback (R193) -/

/-- An element in a format, +0 where it is not finite. -/
def finiteOnly (f : EFmt) (bs : List Byte) : List Byte :=
  if (f.widen 1 bs).1.all (fun v => match fval (e2f v) with | .fin _ _ _ => true | _ => false) then bs else List.replicate f.size 0

/-- The residual of an element in IFMT. Where v - d rounds past IFMT's range, R193 leaves the element finite and does not say with which value: a free
value, finite (log entry 64). -/
def residual (ifmt : EFmt) (v d y : DWord) : List Byte × Exc :=
  let z := ifmt.narrowTo [y]
  (if finiteOnly ifmt z.1 = z.1 then z.1 else finiteOnly ifmt (ifmt.narrowTo [Config.residualOver v d]).1, z.2)

/-- One block of a contribution with error feedback: wire bytes and new residual bytes. -/
def efBlock (ifmt wfmt : EFmt) (x r : List DWord) : (List Byte × List Byte) × Exc :=
  let v := opList false 0 x r
  let q := wfmt.narrowTo v.1
  let d := wfmt.widen v.1.length q.1
  let back := collect (List.zipWith (fun v d =>
    match fval (e2f v), fval (e2f d) with
    | .fin _ _ _, .fin _ _ _ =>
      let y := fsub (e2f v) (e2f d)
      let z := residual ifmt v d (f2e y.1)
      (z.1, y.2.join z.2)
    | _, _ => (List.replicate ifmt.size 0, Exc.none)) v.1 d.1)
  ((q.1, back.1.flatten), ((v.2.join q.2).join d.2).join back.2)

/-- A contribution with error feedback, block by block; FP8 elements are blocks of one. -/
def efChunk (ifmt wfmt : EFmt) (x r : List DWord) : (List Byte × List Byte) × Exc :=
  let n := if wfmt.isBlock then 32 else 1
  let l := List.zipWith (fun a b => efBlock ifmt wfmt a b) (pieces n x) (pieces n r)
  ((((l.map (fun z => z.1.1)).flatten), ((l.map (fun z => z.1.2)).flatten)), l.foldl (fun e z => e.join z.2) Exc.none)

end Sys2Proof.Machine
end

