-- ==== Sys2Proof/Machine/Keccak.lean ====
section
/-! DEFINITION. The Keccak permutation and the functions the spec names over it: SHA3-512, KMAC256 and ParallelHash256 (R85, R81, R83, R394 to R406;
FIPS 202 and SP 800-185, which the spec refers to). -/

namespace Sys2Proof.Machine

/-! ## Keccak-f[1600] -/

/-- The 25 lanes stand with lane (x, y) at x + 5y. -/
abbrev Lanes := List DWord

/-- The parity of column x. -/
def columnParity (a : Lanes) (x : Nat) : DWord := (List.range 5).foldl (fun v y => v ^^^ a.getD (x + 5 * y) 0) 0

/-- θ: each lane takes the parities of the column before it and, turned by one, of the column after it. -/
def stepTheta (a : Lanes) : Lanes :=
  let par := (List.range 5).map (columnParity a)
  let mix := (List.range 5).map (fun x => par.getD ((x + 4) % 5) 0 ^^^ (par.getD ((x + 1) % 5) 0).rotateLeft 1)
  a.zipIdx.map (fun v => v.1 ^^^ mix.getD (v.2 % 5) 0)

/-- The place that π gives the lane at a place: (x, y) goes to (y, 2x + 3y). -/
def piPlace (i : Nat) : Nat := i / 5 + 5 * ((2 * (i % 5) + 3 * (i / 5)) % 5)

/-- ρ and π in one walk of n steps from a place on: π moves the lane at each place to the next place of the walk, and ρ turns the k-th lane of the walk
by the k-th triangular number. The lane at 0 stays. -/
def stepRhoPi (a : Lanes) : Nat → Nat → Nat → Lanes → Lanes
  | 0, _, _, out => out
  | n + 1, k, i, out => stepRhoPi a n (k + 1) (piPlace i) (out.set (piPlace i) ((a.getD i 0).rotateLeft (k * (k + 1) / 2)))

/-- χ, in each row of five lanes. -/
def stepChi (a : Lanes) : Lanes :=
  a.zipIdx.map (fun v =>
    let row := v.2 / 5 * 5
    v.1 ^^^ (a.getD (row + (v.2 + 1) % 5) 0 ||| a.getD (row + (v.2 + 2) % 5) 0) ^^^ a.getD (row + (v.2 + 1) % 5) 0)

/-- The bit generator of ι: one step of the register of x^8 + x^6 + x^5 + x^4 + 1. -/
def iotaStep (r : Nat) : Nat := if r < 128 then 2 * r else (2 * r) ^^^ 0x171

/-- The constant of a round, whose bits at 2^j - 1 are the next seven bits of the register, and the register after them. -/
def iotaConst (r : Nat) : DWord × Nat :=
  (List.range 7).foldl (fun (c : DWord × Nat) j => (if c.2 % 2 = 1 then c.1 ||| 1#64 <<< (2 ^ j - 1) else c.1, iotaStep c.2)) (0, r)

/-- The permutation: n rounds from a state of the register on. -/
def keccakRounds : Nat → Nat → Lanes → Lanes
  | 0, _, a => a
  | n + 1, r, a =>
    let c := iotaConst r
    let t := stepTheta a
    keccakRounds n c.2 ((stepChi (stepRhoPi t 24 1 1 t)).modifyHead (· ^^^ c.1))

def keccakF (a : Lanes) : Lanes := keccakRounds 24 1 a

/-! ## The sponge, with a rate of 136 or 72 bytes -/

/-- Absorbs one block into the lanes. -/
def absorbBlock (a : List DWord) (b : List Byte) : List DWord :=
  keccakF ((List.range 25).map (fun i => a.getD i 0 ^^^ BitVec.ofNat 64 (leVal ((b.drop (8 * i)).take 8))))

/-- Pads with a domain byte: to a multiple of the rate, the last bit set. -/
def spongePad (rate : Nat) (dom : Byte) (m : List Byte) : List Byte :=
  let n := rate - m.length % rate
  m ++ (if n = 1 then [dom ||| 0x80] else dom :: List.replicate (n - 2) 0 ++ [0x80])

/-- The bytes of the lanes. -/
def laneBytes (a : List DWord) : List Byte := (a.map (fun v => leSplit 8 v.toNat)).flatten

/-- Squeezes n bytes. -/
def squeeze (rate : Nat) : Nat → List DWord → Nat → List Byte
  | 0, _, _ => []
  | k + 1, a, n => if n ≤ rate then (laneBytes a).take n else (laneBytes a).take rate ++ squeeze rate k (keccakF a) (n - rate)

def sponge (rate : Nat) (dom : Byte) (m : List Byte) (n : Nat) : List Byte :=
  squeeze rate (n / rate + 1) ((pieces rate (spongePad rate dom m)).foldl absorbBlock (List.replicate 25 0)) n

/-- SHA3-512 of a message. -/
def sha3_512 (m : List Byte) : List Byte := sponge 72 0x06 m 64

/-! ## The derived functions of SP 800-185 -/

/-- Big-endian bytes of a number, at least one. -/
def beBytes : Nat → Nat → List Byte
  | 0, _ => []
  | k + 1, v => if v < 256 then [BitVec.ofNat 8 v] else beBytes k (v / 256) ++ [BitVec.ofNat 8 v]

def leftEncode (v : Nat) : List Byte := let b := beBytes 16 v; BitVec.ofNat 8 b.length :: b
def rightEncode (v : Nat) : List Byte := let b := beBytes 16 v; b ++ [BitVec.ofNat 8 b.length]
def encodeString (s : List Byte) : List Byte := leftEncode (8 * s.length) ++ s
def bytePad (x : List Byte) (w : Nat) : List Byte :=
  let z := leftEncode w ++ x
  z ++ List.replicate ((w - z.length % w) % w) 0

/-- cSHAKE256 with n bytes of output. -/
def cshake256 (m : List Byte) (n : Nat) (name cust : List Byte) : List Byte :=
  if name.isEmpty && cust.isEmpty then sponge 136 0x1F m n
  else sponge 136 0x04 (bytePad (encodeString name ++ encodeString cust) 136 ++ m) n

/-- Bytes of an ASCII string. -/
def ascii (s : String) : List Byte := s.toList.map (fun c => BitVec.ofNat 8 c.toNat)

/-- KMAC256 with n bytes of output. -/
def kmac256 (key m : List Byte) (n : Nat) (cust : List Byte) : List Byte :=
  cshake256 (bytePad (encodeString key) 136 ++ m ++ rightEncode (8 * n)) n (ascii "KMAC") cust

/-- ParallelHash256 with blocks of b bytes and 64 bytes of output. -/
def parallelHash256 (m : List Byte) (b : Nat) (cust : List Byte) : List Byte :=
  let bs := pieces b m
  let z := leftEncode b ++ (bs.map (fun x => cshake256 x 64 [] [])).flatten ++ rightEncode bs.length ++ rightEncode 512
  cshake256 z 64 (ascii "ParallelHash") cust

end Sys2Proof.Machine
end

