-- ==== Sys2Proof/Machine/Uprog.lean ====
section
/-! DEFINITION. Update programs: the image, its rules, and the machine that runs it on one element (R195 to R202). -/

namespace Sys2Proof.Machine

/-! ## The image (R196, R197) -/

/-- n bytes of an image from byte k on, as a number. -/
def imgNum (img : List Byte) (k n : Nat) : Nat := leVal ((img.drop k).take n)
def imgNops (img : List Byte) : Nat := imgNum img 2 1
def imgNstr (img : List Byte) : Nat := imgNum img 3 1
def imgNconst (img : List Byte) : Nat := imgNum img 4 1
/-- SFMT of stream s. -/
def imgSfmt (img : List Byte) (s : Nat) : Nat := imgNum img 6 2 / 4 ^ s % 4
/-- Constant Kn. -/
def imgConst (img : List Byte) (n : Nat) : Word := BitVec.ofNat 32 (imgNum img (16 + 4 * n) 4)
/-- Operation word i. -/
def imgOp (img : List Byte) (i : Nat) : Nat := imgNum img (48 + 4 * i) 4

def opOpc (w : Nat) : Nat := w % 64
def opDst (w : Nat) : Nat := w / 2 ^ 6 % 16
def opA (w : Nat) : Nat := w / 2 ^ 10 % 32
def opB (w : Nat) : Nat := w / 2 ^ 15 % 32
def opC (w : Nat) : Nat := w / 2 ^ 20 % 32

/-- Operands that an operation uses, and whether it has a destination register (R198); none for a reserved operation. -/
def opUses (opc : Nat) : Option (Nat × Bool) :=
  match opc with
  | 0x01 | 0x02 | 0x03 | 0x05 | 0x06 => some (2, true)
  | 0x04 | 0x0C | 0x0D => some (3, true)
  | 0x07 | 0x08 | 0x09 | 0x0A | 0x0B | 0x0E => some (1, true)
  | 0x10 => some (1, true)
  | 0x11 => some (1, false)
  | _ => none

/-- An operand code that names a register, or a constant below NCONST. -/
def operandOk (nconst c : Nat) : Bool := decide (c < 16) || (decide (16 ≤ c) && decide (c < 24) && decide (c - 16 < nconst))

/-- An operation word keeps the rules of R197 to R199. -/
def opOk (img : List Byte) (w : Nat) : Bool :=
  match opUses (opOpc w) with
  | none => false
  | some (n, dst) =>
    w / 2 ^ 25 == 0 && operandOk (imgNconst img) (opA w)
      && (if n ≥ 2 then operandOk (imgNconst img) (opB w) else opB w == 0)
      && (if n ≥ 3 then operandOk (imgNconst img) (opC w) else opC w == 0)
      && (dst || opDst w == 0)
      && (opOpc w != 0x10 || decide (opDst w < imgNstr img))

/-- The operation words of an image. -/
def imgOps (img : List Byte) : List Nat := (List.range (imgNops img)).map (imgOp img)

/-- The rules of R199: whether UPROG accepts an image of len bytes. -/
def imgOk (img : List Byte) (len : Nat) : Bool :=
  let ops := imgOps img
  let stores := (ops.filter (fun w => opOpc w == 0x10)).map opDst
  decide (48 ≤ img.length) && imgNum img 0 2 == 1
    && decide (1 ≤ imgNops img) && decide (imgNops img ≤ 32) && decide (1 ≤ imgNstr img) && decide (imgNstr img ≤ 6) && decide (imgNconst img ≤ 8)
    && len == 48 + 4 * imgNops img
    && (List.range (imgNstr img)).all (fun s => imgSfmt img s != 3)
    && imgNum img 5 1 == 0 && imgNum img 6 2 / 4 ^ imgNstr img == 0 && imgNum img 8 8 == 0
    && (List.range 8).all (fun n => decide (n < imgNconst img) || imgConst img n == 0)
    && ops.all (opOk img) && decide stores.Nodup && (ops.filter (fun w => opOpc w == 0x11)).length == 1

/-- The format of a stream, and its element size in bytes. -/
def streamFmt (img : List Byte) (s : Nat) : EFmt :=
  match imgSfmt img s with
  | 0 => .fp fp32
  | 1 => .fp bf16
  | _ => .fp fp16

/-! ## Running a program on one element (R198, R200) -/

/-- Registers V0 to V15, the streams written so far, the output, and the exceptions raised. -/
structure PMach where
  v : List Word
  sts : List (Nat × Word)
  out : Word
  exc : Exc
  deriving DecidableEq, Repr

/-- The value that an operand code names. -/
def PMach.operand (img : List Byte) (m : PMach) (c : Nat) : Word := if c < 16 then m.v.getD c 0 else imgConst img (c - 16)

/-- ABS and NEG of a value: the canonical NaN for a NaN (R198). -/
def signOp (a r : Word) : Word × Exc := if fval a = .nan then (qnan, excNan) else (r, Exc.none)

/-- CLAMP: MIN(MAX(a, b), c) (R198). -/
def clamp (a b c : Word) : Word × Exc :=
  let x := fmax a b
  let y := fmin x.1 c
  (y.1, x.2.join y.2)

/-- The result of an operation that writes a register (R198). -/
def opResult (opc : Nat) (a b c : Word) : Word × Exc :=
  match opc with
  | 0x01 => fadd a b
  | 0x02 => fsub a b
  | 0x03 => fmul a b
  | 0x04 => ffma a b c
  | 0x05 => fmin a b
  | 0x06 => fmax a b
  | 0x07 => signOp a (a &&& 0x7FFFFFFF)
  | 0x08 => signOp a (fneg a)
  | 0x09 => frcp a
  | 0x0A => frsqrt a
  | 0x0B => fsqrt a
  | 0x0C => (match fval a with
    | .nan => (c, Exc.none)
    | v => (if valLt (.fin false 0 0) v then b else c, Exc.none))
  | 0x0D => clamp a b c
  | _ => (a, Exc.none)

/-- One operation. -/
def PMach.step (img : List Byte) (m : PMach) (w : Nat) : PMach :=
  let a := m.operand img (opA w)
  if opOpc w = 0x10 then { m with sts := m.sts ++ [(opDst w, a)] }
  else if opOpc w = 0x11 then { m with out := a }
  else
    let r := opResult (opOpc w) a (m.operand img (opB w)) (m.operand img (opC w))
    { m with v := m.v.set (opDst w) r.1, exc := m.exc.join r.2 }

/-- Runs a program on one element: accumulator, scalars and stream elements as their bytes. The stores, as stream and bytes, and the output element. -/
def runElem (img : List Byte) (acc scal0 scal1 : Word) (streams : List (List Byte)) : (List (Nat × List Byte) × Word) × Exc :=
  let w := collect ((List.range (imgNstr img)).map (fun s =>
    let r := (streamFmt img s).widen 1 (streams.getD s [])
    (e2f (r.1.headD 0), r.2)))
  let v := ([acc, scal0, scal1] ++ w.1 ++ List.replicate 16 0).take 16
  let m := (imgOps img).foldl (PMach.step img) { v, sts := [], out := 0, exc := Exc.none }
  let st := collect (m.sts.map (fun p =>
    let r := (streamFmt img p.1).narrowTo [f2e p.2]
    ((p.1, r.1), r.2)))
  ((st.1, m.out), (w.2.join m.exc).join st.2)

end Sys2Proof.Machine
end

