-- ==== Sys2Proof/Machine/Coll.lean ====
section
/-! DEFINITION. Collectives: their fields and chunks, canonical trees, chunk transfers between members, and the arrivals in the store
(R67 to R78, R149 to R159, R165, R174, R273). -/

namespace Sys2Proof.Machine

/-! ## Fields of the entry and its extension (R67, R70, R75, R76, R78) -/

def coSeq (e : Entry) : Word := ent32 e 8
def coSkey (e : Entry) : Word := ent32 e 12
def coSaddr (e : Entry) : DWord := ent64 e 16
def coDaddr (e : Entry) : DWord := ent64 e 24
def coCount (e : Entry) : Nat := entBits e 256 40
def coIfmt (e : Entry) : Nat := entBits e 296 4
def coWfmt (e : Entry) : Nat := entBits e 300 4
def coOfmt (e : Entry) : Nat := entBits e 304 4
def coOp (e : Entry) : Nat := entBits e 308 3
def coDkey (e : Entry) : Word := ent32 e 40
def coT (e : Entry) : Nat := entBytes e 48 4
def coH (e : Entry) : Nat := entBytes e 52 4
def coE (e : Entry) : Nat := entBytes e 56 2
def coK (e : Entry) : Nat := entBytes e 58 1
def coC (e : Entry) : Nat := entBytes e 60 4
def coMken (e : Entry) : Bool := entOpx e 8 1 == 1
def coEf (e : Entry) : Bool := entOpx e 9 1 == 1
/-- The extension of an instruction, zeros where it has none. -/
def coExt (i : Fetched) : Entry := i.x.getD 0
def coMkaddr (i : Fetched) : DWord := ent64 (coExt i) 32
def coMkkey (i : Fetched) : Word := ent32 (coExt i) 40
def coReskey (i : Fetched) : Word := ent32 (coExt i) 44
def coResaddr (i : Fetched) : DWord := ent64 (coExt i) 48

/-- The format of a code, FP32 for a reserved one (those are rejected before). -/
def fmtOf (c : Nat) : EFmt := (eFmt c).getD (.fp fp32)
def Coll.ifmt (c : Coll) : EFmt := fmtOf (coIfmt c.ins.w)
def Coll.wfmt (c : Coll) : EFmt := fmtOf (coWfmt c.ins.w)
def Coll.ofmt (c : Coll) : EFmt := fmtOf (coOfmt c.ins.w)
def Coll.isInt (c : Coll) : Bool := c.wfmt.isInt

/-- PDIG: CRC-32C of the parameters of R73, each at its entry width in whole bytes (R273; DESIGN CHOICE, log entry 12). -/
def pdigOf (i : Fetched) (op : BitVec 8) (emap : List Nat) : Word :=
  let e := i.w
  let ed := op == 0x35 || op == 0x36
  crc32c ([op] ++ leSplit 5 (coCount e) ++ [BitVec.ofNat 8 (coIfmt e), BitVec.ofNat 8 (coWfmt e), BitVec.ofNat 8 (coOfmt e), BitVec.ofNat 8 (coOp e)]
    ++ leSplit 4 (if ed then coT e else 0) ++ leSplit 4 (if ed then coH e else 0) ++ leSplit 2 (if ed then coE e else 0)
    ++ leSplit 1 (if ed then coK e else 0) ++ leSplit 4 (if ed then coC e else 0) ++ leSplit 4 (if op == 0x34 then coT e else 0)
    ++ (if op == 0x37 then leSplit 4 (entBytes (coExt i) 24 4) else [])
    ++ (if ed then leSplit 4 (crc32c ((emap.map (leSplit 4)).flatten)).toNat else []))

/-! ## CSEQ order (R72) -/

/-- d(l, c): advances that lead from one CSEQ to another, 0 left out. -/
def advances (l c : Word) : Nat := (c.toNat + (2 ^ 32 - 1) - l.toNat) % (2 ^ 32 - 1)
def seqFollows (l c : Word) : Bool := decide (1 ≤ advances l c) && decide (advances l c < 2 ^ 31)

/-! ## Chunks (R153) and canonical trees (R155) -/

/-- Elements of a chunk. -/
def CH : Nat := 16384
def ceilDiv (a b : Nat) : Nat := (a + b - 1) / b

def tpos (p root r : Nat) : Nat := (r + p - root % p) % p
def rankAt (p root q : Nat) : Nat := (q + root) % p
def tparent (q : Nat) : Nat := (q - 1) / 8
def tchildren (p q : Nat) : List Nat := ((List.range 8).map (fun i => 8 * q + 1 + i)).filter (fun x => decide (x < p))

def Coll.p (c : Coll) : Nat := c.nodes.length
def Coll.count (c : Coll) : Nat := coCount c.ins.w
/-- Reduced up a tree; sent down a tree. -/
def Coll.isUp (c : Coll) : Bool := c.op == 0x30 || c.op == 0x32 || c.op == 0x37
def Coll.isDown (c : Coll) : Bool := c.op == 0x31 || c.op == 0x32 || c.op == 0x37
/-- B and CB. -/
def Coll.blk (c : Coll) : Nat := c.count / c.p
def Coll.cb (c : Coll) : Nat := ceilDiv c.blk CH
/-- Tree chunks of the transfer. -/
def Coll.chunks (c : Coll) : Nat :=
  if c.isUp || c.isDown then (if c.op == 0x32 then ceilDiv c.count CH else c.p * c.cb) else 0
def Coll.root (c : Coll) (g : Nat) : Nat := if c.op == 0x40 then c.cseq.toNat % c.p else if c.op == 0x32 then g % c.p else g / c.cb
/-- First element and number of elements of tree chunk g, within the COUNT elements. -/
def Coll.range (c : Coll) (g : Nat) : Nat × Nat :=
  if c.op == 0x32 then (g * CH, min CH (c.count - g * CH))
  else (g / c.cb * c.blk + g % c.cb * CH, min CH (c.blk - g % c.cb * CH))
def Coll.pos (c : Coll) (g : Nat) : Nat := tpos c.p (c.root g) c.rank
/-- Ranks of this position's children and of its parent in chunk g. -/
def Coll.kids (c : Coll) (g : Nat) : List Nat := (tchildren c.p (c.pos g)).map (rankAt c.p (c.root g))
def Coll.parent (c : Coll) (g : Nat) : Nat := rankAt c.p (c.root g) (tparent (c.pos g))
/-- The position is interior: the root, or one with a child (R155). -/
def Coll.interior (c : Coll) (g : Nat) : Bool := c.pos g == 0 || !(c.kids g).isEmpty
/-- Rank r is a leaf of chunk g. -/
def Coll.leafAt (c : Coll) (g r : Nat) : Bool := (tchildren c.p (tpos c.p (c.root g) r)).isEmpty && r != c.root g

/-- Chunks that this rank sends up, in order (R154). -/
def Coll.upChunks (c : Coll) : List Nat := if c.isUp then (List.range c.chunks).filter (fun g => c.pos g != 0) else []

/-! ## The capacity rule (R167, R168, R170) -/

/-- The largest l with the sum of min(n, l) at most x, by bits. -/
def fillLevel (n : List Nat) (x : Nat) : Nat → Nat → Nat
  | 0, l => l
  | b + 1, l => fillLevel n x b (if (n.map (fun v => min v (l + 2 ^ b))).sum ≤ x then l + 2 ^ b else l)

/-- One unit each to the demands above the level, in order, while any is left. -/
def fillRest (level : Nat) : List Nat → Nat → List Nat
  | [], _ => []
  | v :: vs, rest => if 0 < rest ∧ level < v then (level + 1) :: fillRest level vs (rest - 1) else min v level :: fillRest level vs rest

/-- fill(n, x) of R167. -/
def fill (n : List Nat) (x : Nat) : List Nat :=
  if n.sum ≤ x then n
  else
    let level := fillLevel n x 41 0
    fillRest level n (x - (n.map (fun v => min v level)).sum)

/-- Running sums: the base of each entry, from a start. -/
def bases : Nat → List Nat → List Nat
  | _, [] => []
  | b, v :: vs => b :: bases (b + v) vs

/-- Grants of one expert (R168): for each k the list over sources of (kept, base), and the rows used. -/
def expertGrants : List (List Nat) → Nat → Nat → List (List (Nat × Nat)) × Nat
  | [], _, row => ([], row)
  | n :: ns, remaining, row =>
    let a := fill n remaining
    let r := expertGrants ns (remaining - a.sum) (row + a.sum)
    (a.zip (bases row a) :: r.1, r.2)

/-- Experts of rank r, ascending (R153 L). -/
def expertsOf (emap : List Nat) (r : Nat) : List Nat := (List.range emap.length).filter (fun e => emap.getD e 0 == r)
/-- Tokens whose assignment (t, k) names expert e, ascending. -/
def pairsOf (assign : List (Nat × Word)) (kk e k : Nat) : List Nat :=
  (List.range (assign.length / kk)).filter (fun t => (assign.getD (t * kk + k) (0, 0)).1 == e)
/-- Ranks that own an expert. -/
def ownersOf (emap : List Nat) (p : Nat) : List Nat := (List.range p).filter (fun r => emap.contains r)

/-- The counts that this rank sends to owner o: its experts ascending, then k (R168). -/
def Coll.countsFor (c : Coll) (o : Nat) : List Nat :=
  if c.op == 0x34 then [c.sendCounts.getD o 0]
  else (expertsOf c.emap o).flatMap (fun e => (List.range (coK c.ins.w)).map (fun k => (pairsOf c.assign (coK c.ins.w) e k).length))

/-- Ranks that take part in the grant phase as owners. -/
def Coll.owners (c : Coll) : List Nat :=
  if c.op == 0x34 then List.range c.p else if c.op == 0x35 || c.op == 0x36 then ownersOf c.emap c.p else []

/-- The count of source r for local expert index l and k. -/
def Coll.countOf (c : Coll) (r l k : Nat) : Nat :=
  ((c.counts.find? (fun x => x.1 == r)).elim [] (fun x => x.2)).getD (l * coK c.ins.w + k) 0

/-- This owner's allocation (R168): per local expert, per k, per source (kept, base), with the rows used. -/
def Coll.alloc (c : Coll) : List (List (List (Nat × Nat)) × Nat) :=
  (List.range (expertsOf c.emap c.rank).length).map (fun l =>
    expertGrants ((List.range (coK c.ins.w)).map (fun k => (List.range c.p).map (fun r => c.countOf r l k))) (coC c.ins.w) 0)

/-- A2AV's allocation at this destination (R170): (kept, base) by source. -/
def Coll.allocV (c : Coll) : List (Nat × Nat) :=
  let a := fill ((List.range c.p).map (fun r => c.countOf r 0 0)) (coT c.ins.w)
  a.zip (bases 0 a)

/-- The grant message of this owner to source r (R168, R273). -/
def Coll.grantFor (c : Coll) (r : Nat) : List GrantE :=
  if c.op == 0x34 then let g := c.allocV.getD r (0, 0); [{ expert := 0, k := 0, a := g.1, base := g.2 }]
  else ((expertsOf c.emap c.rank).zip c.alloc).zipIdx.flatMap (fun x =>
    (x.1.2.1.zipIdx).filterMap (fun y =>
      let g := y.1.getD r (0, 0)
      if c.countOf r x.2 y.2 = 0 then none else some { expert := x.1.1, k := y.2, a := g.1, base := g.2 }))

/-- What owner o granted this rank for expert e and k. -/
def Coll.granted? (c : Coll) (o e k : Nat) : Nat × Nat :=
  (((c.grants.find? (fun x => x.1 == o)).elim [] (fun x => x.2)).find? (fun g => g.expert == e && g.k == k)).elim (0, 0) (fun g => (g.a, g.base))

/-! ## Operands (R71, R75 to R77) -/

/-- The key of the auxiliary arrays, and one of their addresses. -/
def auxKey (i : Fetched) : Word := ent32 (coExt i) 24
def auxAddr (i : Fetched) (n : Nat) : DWord := ent64 (coExt i) (8 * n)
def auxSpace (e : Entry) : Space := (spaceOf (entOpx e 10 2)).getD .pool

/-- DISP or COMB. -/
def isEd (op : BitVec 8) : Bool := op == 0x35 || op == 0x36
def hasAux (op : BitVec 8) : Bool := op == 0x34 || isEd op

/-- Elements at SADDR and at DADDR, with L local experts and P ranks (R71, R76, R77). -/
def coSrcLen (e : Entry) (op : BitVec 8) (p l : Nat) : Nat :=
  if op == 0x31 then coCount e / p else if op == 0x36 then l * coC e * coH e else if op == 0x35 then coT e * coH e else coCount e
def coDstLen (e : Entry) (op : BitVec 8) (p l : Nat) : Nat :=
  if op == 0x30 then coCount e / p
  else if op == 0x34 then coT e
  else if op == 0x35 then l * coC e * coH e
  else if op == 0x36 then coT e * coH e
  else coCount e
/-- Destination chunks (R153). -/
def coMarks (e : Entry) (op : BitVec 8) (p l : Nat) : Nat :=
  if op == 0x30 then ceilDiv (coCount e / p) CH
  else if op == 0x32 then ceilDiv (coCount e) CH
  else if op == 0x34 ∨ isEd op then ceilDiv (coDstLen e op p l) CH
  else p * ceilDiv (coCount e / p) CH

def coSrc (e : Entry) (op : BitVec 8) (p l : Nat) : Opnd :=
  opnd (entOpx e 0 2) (coSaddr e) (coSkey e) (coSrcLen e op p l * (fmtOf (coIfmt e)).size)
def coDst (e : Entry) (op : BitVec 8) (p l : Nat) : Opnd :=
  opnd (entOpx e 2 2) (coDaddr e) (coDkey e) (coDstLen e op p l * (fmtOf (coOfmt e)).size)
def coMk (i : Fetched) (op : BitVec 8) (p l : Nat) : Opnd :=
  opnd (entOpx i.w 4 2) (coMkaddr i) (coMkkey i) (8 * coMarks i.w op p l)
def coRes (i : Fetched) : Opnd := opnd (entOpx i.w 6 2) (coResaddr i) (coReskey i) (coCount i.w * (fmtOf (coIfmt i.w)).size)
/-- Array n of the extension's auxiliary arrays, of a length. -/
def coAux (i : Fetched) (n len : Nat) : Opnd := opnd (entOpx i.w 10 2) (auxAddr i n) (auxKey i) len
/-- The three arrays of DISP and COMB, and of A2AV. -/
def coArrays (i : Fetched) (op : BitVec 8) (p : Nat) : List Opnd :=
  let e := i.w
  if isEd op then [coAux i 0 (8 * coT e * coK e), coAux i 1 (4 * coE e), coAux i 2 ((coT e * coK e + 7) / 8)]
  else if op == 0x34 then [coAux i 0 (4 * p), coAux i 1 (4 * p), coAux i 2 (4 * p)]
  else []

/-- L: the experts that this rank owns (R153). -/
def Coll.ell (c : Coll) : Nat := (expertsOf c.emap c.rank).length

/-- The source of a collective, and its residual. -/
def Coll.srcOpnd (c : Coll) : Opnd := coSrc c.ins.w c.op c.p c.ell
def Coll.resOpnd (c : Coll) : Opnd := coRes c.ins

/-! ## Point-to-point segments -/

/-- Elements of the sender's source that go to consecutive elements of the destination. -/
structure Seg where
  dst : Nat
  len : Nat
  src : Nat
  deriving DecidableEq, Repr

/-- The part of a segment in destination chunk m. -/
def Seg.clip (x : Seg) (m : Nat) : Option Seg :=
  let lo := max x.dst (m * CH)
  let hi := min (x.dst + x.len) ((m + 1) * CH)
  if lo < hi then some { dst := lo, len := hi - lo, src := x.src + (lo - x.dst) } else none

/-- The parts of segments in a destination chunk, and the chunks that segments touch. -/
def clipAll (xs : List Seg) (m : Nat) : List Seg := xs.filterMap (fun x => x.clip m)
def chunksOf (xs : List Seg) : List Nat :=
  (xs.flatMap (fun x => if x.len = 0 then [] else (List.range ((x.dst + x.len - 1) / CH + 1 - x.dst / CH)).map (· + x.dst / CH))).dedup

/-- Segments of A2AV and DISP from source r at this owner; their sources are not known here (0). -/
def Coll.segsFrom (c : Coll) (r : Nat) : List Seg :=
  let h := coH c.ins.w
  if c.op == 0x34 then let g := c.allocV.getD r (0, 0); [{ dst := g.2, len := g.1, src := 0 }]
  else c.alloc.zipIdx.flatMap (fun x => x.1.1.flatMap (fun row =>
    let g := row.getD r (0, 0)
    (List.range g.1).map (fun i => { dst := (x.2 * coC c.ins.w + g.2 + i) * h, len := h, src := 0 })))

/-- Segments of this source toward owner o, once its grant is in. -/
def Coll.segsTo (c : Coll) (o : Nat) : List Seg :=
  let h := coH c.ins.w
  if c.op == 0x34 then
    let g := c.granted? o 0 0
    [{ dst := g.2, len := g.1, src := (c.sendCounts.take o).sum }]
  else (expertsOf c.emap o).zipIdx.flatMap (fun x => (List.range (coK c.ins.w)).flatMap (fun k =>
    let g := c.granted? o x.1 k
    ((pairsOf c.assign (coK c.ins.w) x.1 k).take g.1).zipIdx.map (fun t =>
      { dst := (x.2 * coC c.ins.w + g.2 + t.2) * h, len := h, src := t.1 * h })))

/-- Kept pairs of this source at owner o in the owner's order: (t, k, row element offset at the owner). -/
def Coll.keptAt (c : Coll) (o : Nat) : List (Nat × Nat × Nat) :=
  (expertsOf c.emap o).zipIdx.flatMap (fun x => (List.range (coK c.ins.w)).flatMap (fun k =>
    let g := c.granted? o x.1 k
    ((pairsOf c.assign (coK c.ins.w) x.1 k).take g.1).zipIdx.map (fun t => (t.1, k, (x.2 * coC c.ins.w + g.2 + t.2) * coH c.ins.w))))

/-- Pairs of this rank that were dropped, as t × K + k (R75). -/
def Coll.droppedPairs (c : Coll) : List Nat :=
  let kk := coK c.ins.w
  (List.range c.emap.length).flatMap (fun e => (List.range kk).flatMap (fun k =>
    ((pairsOf c.assign kk e k).drop (c.granted? (c.emap.getD e 0) e k).1).map (fun t => t * kk + k)))

/-- Pieces of one row of COMB: ⌈H / CH⌉ (log entry 13). -/
def Coll.rowPieces (c : Coll) : Nat := ceilDiv (coH c.ins.w) CH

/-- Rows that this owner returns to source r, in its order: element offset of each in SADDR (R169). -/
def Coll.rowsFor (c : Coll) (r : Nat) : List Nat := (c.segsFrom r).map (fun x => x.dst)

/-- The COMB rows that this rank sends, piece by piece: source, ordinal, first element, number of elements. R154's order is of destination chunks, which
an owner does not know: the model sends by ascending source rank, then local expert, k and index (DESIGN CHOICE, log entry 13). -/
def Coll.combSends (c : Coll) : List (Nat × Nat × Nat × Nat) :=
  ((List.range c.p).filter (· != c.rank)).flatMap (fun r =>
    (c.rowsFor r).zipIdx.flatMap (fun x => (List.range c.rowPieces).map (fun m =>
      (r, (x.2 * c.rowPieces + m) % 2 ^ 26, x.1 + m * CH, min CH (coH c.ins.w - m * CH)))))

/-! ## Destination chunks (R153) -/

def Coll.dstChunks (c : Coll) : Nat :=
  let e := c.ins.w
  if c.op == 0x30 then c.cb
  else if c.op == 0x32 then c.chunks
  else if c.op == 0x31 || c.op == 0x37 || c.op == 0x33 then c.p * c.cb
  else if c.op == 0x34 then ceilDiv (coT e) CH
  else if c.op == 0x35 then ceilDiv ((expertsOf c.emap c.rank).length * coC e * coH e) CH
  else if c.op == 0x36 then ceilDiv (coT e * coH e) CH
  else 0

/-- Elements of destination chunk m. -/
def Coll.dstLen (c : Coll) (m : Nat) : Nat :=
  let e := c.ins.w
  if c.op == 0x30 then min CH (c.blk - m * CH)
  else if c.op == 0x31 || c.op == 0x37 || c.op == 0x33 then (c.range m).2
  else if c.op == 0x32 then (c.range m).2
  else
    let total := if c.op == 0x34 then coT e
      else if c.op == 0x35 then (expertsOf c.emap c.rank).length * coC e * coH e else coT e * coH e
    min CH (total - m * CH)

/-- The sources whose data a destination chunk waits for: 0 stands for a result or a slot. -/
def Coll.expects (c : Coll) (m : Nat) : List Nat :=
  if c.op == 0x33 then [m / c.cb]
  else if c.op == 0x34 || c.op == 0x35 then (List.range c.p).filter (fun r => !(clipAll (c.segsFrom r) m).isEmpty)
  else [0]

/-- Unused rows of DISP at this owner, as element ranges (R168). -/
def Coll.padSegs (c : Coll) : List Seg :=
  if c.op == 0x35 then c.alloc.zipIdx.map (fun x =>
    { dst := (x.2 * coC c.ins.w + x.1.2) * coH c.ins.w, len := (coC c.ins.w - x.1.2) * coH c.ins.w, src := 0 })
  else []

/-! ## Chunk transfers (R150, R159, R165, R174) -/

/-- The CHUNK of a count message and of a grant message: numbers that no data of the pair bears, so that a NAK names one of them (DESIGN CHOICE, log
entry 66). -/
def countChunk : Nat := 2 ^ 26 - 2
def grantChunk : Nat := 2 ^ 26 - 3

/-- The class of a collective kind (R159). -/
def collClass (k : CollKind) : BitVec 3 :=
  match k with
  | .contrib | .count | .resendReq => 3
  | .result | .data | .grant => 2
  | .acceptAck | .nak | .resultAck | .notReady => 1
  | .chunkLoss => 0

/-- The map that a CSEQ uses: one out of use where it started under it, else the current one; of a vote (CSEQ 0) the current one (R85, R178). -/
def Comm.oldAt (x : Comm) (cseq : Word) : Option OldMap := if cseq = 0 then none else x.olds.find? (fun m => !seqFollows m.last cseq)
def Comm.ranksAt (x : Comm) (cseq : Word) : List Rank := (x.oldAt cseq).elim x.ranks (fun m => m.ranks)
def Comm.digestAt (x : Comm) (cseq : Word) : DWord := (x.oldAt cseq).elim x.digest (fun m => m.digest)

/-- A rank of a communicator as the map of a CSEQ has it. -/
def State.rankAt? (s : State) (comm : Nat) (cseq : Word) (rank : Nat) : Option Rank := (s.comm comm).bind (fun x => (x.ranksAt cseq)[rank]?)

/-- The claim generation of a rank as this node's map has it. -/
def State.cgenOf (s : State) (comm : Nat) (cseq : Word) (rank : Nat) : BitVec 16 := (s.rankAt? comm cseq rank).elim 0 (fun r => r.cgen)
def State.commTag (s : State) (comm : Nat) : BitVec 16 := (s.comm comm).elim 0 (fun x => x.tag)

/-- The packets of a transfer: at most 4,096 B each, the CRC-64 in the last (R174, R273). -/
def State.xferPackets (s : State) (x : Xfer) : List (CollF × List Byte) :=
  let ps := if x.bytes.isEmpty then [[]] else pieces 4096 x.bytes
  ps.zipIdx.map (fun b =>
    ({ opcode := x.op, comm := BitVec.ofNat 24 x.comm, npkt := BitVec.ofNat 6 ps.length, exc := x.exc, cgen := s.cgenOf x.comm x.cseq x.srank,
       cseq := x.cseq, chunk := BitVec.ofNat 26 x.chunk, pidx := BitVec.ofNat 6 b.2, srank := BitVec.ofNat 20 x.srank, pdig := x.pdig,
       tcrc := if b.2 + 1 = ps.length then crc64 x.bytes else 0 }, b.1))

/-- Sends the packets of a transfer to a node. Those of a contribution of queue g's collective hold a transaction each and are charged to the queue
(R111, R378). -/
def State.sendXferOf (s : State) (x : Xfer) (node : Nat) (g : Option Nat) : State :=
  (s.xferPackets x).foldl (fun s b =>
    let y := enginePkt (collClass x.kind) (s.commTag x.comm) (.coll x.kind b.1) b.2 false
    match g with
    | none => s.originate node y
    | some g => ({ s with txns := s.txns ++ [{ f := s.ownerOf g, q := some g, num := s.stamp }], stamp := s.stamp + 1 } : State).originate node
        { y with txn := some s.stamp, charge := some g }) s
def State.sendXfer (s : State) (x : Xfer) (node : Nat) : State := s.sendXferOf x node none

/-- A rank that can be sent to now: READY at a node that is not lost; the frog vote reaches CLAIMED ranks too (R121, R151, R310 step 4). -/
def State.rankReach (s : State) (comm : Nat) (cseq : Word) (rank node : Nat) : Bool :=
  !s.lost.contains node && (match s.rankAt? comm cseq rank with
    | some r => r.state == .ready || (cseq == 0 && r.state == .claimed)
    | none => false)

/-- Keeps a transfer and sends it to its receivers; a receiver that is lost holds it (R121, R165, R174). g is the queue whose collective contributes
it (R111). -/
def State.keepXferOf (s : State) (x : Xfer) (g : Option Nat) : State :=
  let x : Xfer := { x with
    crc := crc64 x.bytes
    peers := x.peers.map (fun p =>
      if s.rankReach x.comm x.cseq p.rank p.node then { p with tries := 1, held := false } else { p with held := true }) }
  x.peers.foldl (fun s p => if p.held then s else s.sendXferOf x p.node g) { s with xfers := s.xfers ++ [x] }
def State.keepXfer (s : State) (x : Xfer) : State := s.keepXferOf x none

/-- The nodes of a position's parent and children in a chunk's tree. -/
def Coll.treeKin (c : Coll) (g : Nat) : List Nat :=
  ((if c.pos g = 0 then [] else [c.parent g]) ++ c.kids g).map (fun r => c.nodes.getD r 0)

/-- A transfer of this rank's collective to some ranks. -/
def Coll.xfer (c : Coll) (kind : CollKind) (chunk : Nat) (bytes : List Byte) (exc : Bool) (ranks : List Nat) : Xfer :=
  { comm := c.comm, cseq := c.cseq, kind, op := c.op, chunk, srank := c.rank, bytes, exc, pdig := c.pdig,
    peers := ranks.map (fun r => { rank := r, node := c.nodes.getD r 0, tries := 0, held := false })
    kin := if c.isUp || c.isDown then c.treeKin chunk else ranks.map (fun r => c.nodes.getD r 0) }

/-- A header-only collective packet of this node's rank in answer to another, with the digest of what it answers (R73, R273). One that is addressed
to a rank is held for it while the rank is lost (R151). -/
def State.sendCollF (s : State) (node : Nat) (rank : Option Nat) (kind : CollKind) (f : CollF) : State :=
  let comm := f.comm.toNat
  s.originate node { enginePkt (collClass kind) (s.commTag comm) (.coll kind { f with cgen := s.cgenOf comm f.cseq f.srank.toNat }) [] false with
    addr := rankAddr (rank.getD 0), comm := rank.map (fun _ => f.comm) }
def headF (comm : Nat) (cseq : Word) (op : BitVec 8) (chunk srank : Nat) (pdig : Word) : CollF :=
  { opcode := op, comm := BitVec.ofNat 24 comm, npkt := 1, exc := false, cgen := 0, cseq, chunk := BitVec.ofNat 26 chunk, pidx := 0,
    srank := BitVec.ofNat 20 srank, pdig, tcrc := 0 }
def State.sendColl (s : State) (node : Nat) (rank : Option Nat) (kind : CollKind) (comm : Nat) (cseq : Word) (op : BitVec 8) (chunk srank : Nat)
    (pdig : Word) : State := s.sendCollF node rank kind (headF comm cseq op chunk srank pdig)

/-- This node's rank in a map, and in a communicator's current map, whatever the state of its claim. -/
def State.rankIn (s : State) (ranks : List Rank) : Option Nat := ranks.findIdx? (fun r => r.node == s.self && r.state != .abandoned)
def State.rankHere (s : State) (comm : Nat) : Option Nat := (s.comm comm).bind (fun x => s.rankIn x.ranks)
/-- This node's rank as the map of a CSEQ has it. -/
def State.rankHereAt (s : State) (comm : Nat) (cseq : Word) : Option Nat := (s.comm comm).bind (fun x => s.rankIn (x.ranksAt cseq))

/-- The CollF fields of a packet. -/
def collF (x : InPkt) : Option CollF := match x.pkt.body with
  | .coll _ c => some c
  | _ => none

/-- The digest that an arrival carries (R73). -/
def Arrival.pdig (a : Arrival) : Word := (a.pkts.head?.bind collF).elim 0 (fun c => c.pdig)

/-- Acknowledges an arrival to its sender: acceptance, or the placing of a result (R166, R174). -/
def State.ackArrival (s : State) (a : Arrival) : State :=
  match (a.pkts.head?).map (fun x => x.pkt.hdr.src.toNat) with
  | some n => s.sendColl n (some a.srank) (if a.kind = .result then .resultAck else .acceptAck) a.comm a.cseq a.op a.chunk
      ((s.rankHereAt a.comm a.cseq).getD 0) a.pdig
  | none => s

/-- The bytes of an arrival, in packet order. -/
def Arrival.bytes (a : Arrival) : List Byte :=
  ((List.range (a.pkts.length)).map (fun i =>
    ((a.pkts.find? (fun x => (collF x).elim false (fun c => c.pidx.toNat == i))).elim [] (fun x => x.pkt.payload)))).flatten

/-- Every packet of the transfer is there, and its CRC-64 verifies. -/
def Arrival.whole (a : Arrival) : Bool := (a.pkts.head?.bind collF).elim false (fun c => a.pkts.length == c.npkt.toNat)
def Arrival.crcOk (a : Arrival) : Bool :=
  (a.pkts.find? (fun x => (collF x).elim false (fun c => c.pidx + 1 == c.npkt))).elim false (fun x =>
    (collF x).elim false (fun c => c.tcrc == crc64 a.bytes))
def Arrival.exc (a : Arrival) : Bool := a.pkts.any (fun x => (collF x).elim false (fun c => c.exc))
def Arrival.cgen (a : Arrival) : BitVec 16 := (a.pkts.head?.bind collF).elim 0 (fun c => c.cgen)
def Arrival.src (a : Arrival) : Nat := (a.pkts.head?).elim 0 (fun x => x.pkt.hdr.src.toNat)

/-- Takes an arrival out of the store: its cells are freed (R164). -/
def State.dropArrival (s : State) (a : Arrival) : State :=
  a.pkts.foldl State.freePkt { s with arrivals := s.arrivals.erase a }

/-- The first whole arrival for a place. -/
def State.arrival? (s : State) (comm : Nat) (cseq : Word) (kind : CollKind) (chunk srank : Nat) : Option Arrival :=
  s.arrivals.find? (fun a => a.ok && a.comm == comm && a.cseq == cseq && a.kind == kind && a.chunk == chunk && a.srank == srank)

/-- A packet of a transfer joins those of its transfer that are in the store; a whole transfer is checked: a mismatch is counted, discarded and
answered with a NAK or a re-send request (R164, R174). -/
def State.storePacket (s : State) (x : InPkt) (kind : CollKind) (c : CollF) : State :=
  let mine := fun (a : Arrival) => !a.ok && a.comm == c.comm.toNat && a.cseq == c.cseq && a.kind == kind && a.op == c.opcode
    && a.chunk == c.chunk.toNat && a.srank == c.srank.toNat
    && !(a.pkts.any (fun y => (collF y).elim false (fun d => d.pidx == c.pidx || d.npkt != c.npkt)))
  let old := s.arrivals.find? mine
  let a : Arrival := match old with
    | some a => { a with pkts := a.pkts ++ [x] }
    | none => { comm := c.comm.toNat, cseq := c.cseq, kind, op := c.opcode, chunk := c.chunk.toNat, srank := c.srank.toNat, pkts := [x], ok := false }
  let s : State := { s with arrivals := (match old with | some b => s.arrivals.erase b | none => s.arrivals) ++ [a] }
  if !a.whole then s
  else if a.crcOk then { s with arrivals := s.arrivals.map (fun y => if y = a then { a with ok := true } else y) }
  else
    ((s.dropArrival a).count 0x260060).sendColl a.src (some a.srank) (if kind = .result then .resendReq else .nak) a.comm a.cseq a.op a.chunk
      ((s.rankHereAt a.comm a.cseq).getD 0) a.pdig

/-- An arrival is stale: its claim generation is below the map's (R166). -/
def State.staleArrival (s : State) (a : Arrival) : Bool := decide (a.cgen.toNat < (s.cgenOf a.comm a.cseq a.srank).toNat)

/-! ## The collectives of this node -/

def State.setColl (s : State) (c : Coll) : State := { s with colls := s.colls.map (fun x => if x.rid = c.rid then c else x) }
def State.coll? (s : State) (rid : Nat) : Option Coll := s.colls.find? (fun c => c.rid == rid)
/-- The collective in progress with a handle and CSEQ. -/
def State.collAt (s : State) (comm : Nat) (cseq : Word) : Option Coll := s.colls.find? (fun c => c.comm == comm && c.cseq == cseq)

/-- Exceptions of the node's own work on a chunk are counted once per kind (R192). -/
def State.noteExc (s : State) (c : Coll) (chunk : Nat) (e : Exc) : State × Coll :=
  let one := fun (x : State × Coll) (k : Nat) (on : Bool) =>
    if on && !x.2.excs.contains (chunk, k) then
      (x.1.count (0x260040 + 8 * k), { x.2 with excs := x.2.excs ++ [(chunk, k)] })
    else x
  one (one (one (one (s, c) 0 e.nanIn) 1 e.invalid) 2 e.overflow) 3 e.divZero

/-- The same, kept in the state. -/
def State.keepExc (s : State) (c : Coll) (chunk : Nat) (e : Exc) : State × Coll :=
  let r := s.noteExc c chunk e
  (r.1.setColl r.2, r.2)

/-- Elements lo to lo + n - 1 of a buffer in a format. -/
def elems (f : EFmt) (buf : List Byte) (lo n : Nat) : List DWord × Exc := f.widen n ((buf.drop (lo * f.size)).take (n * f.size))

/-- The PASID and function of a run's queue. -/
def State.runFunc (s : State) (r : Run) : Nat := s.ownerOf r.g
def State.runPasid (s : State) (r : Run) : BitVec 20 := qPasid (s.queue r.g).desc

/-- Something of member j has come, and with it j's digest: of AGTH, a chunk of its block; of A2A, its data. -/
def Coll.heard (c : Coll) (j : Nat) : Bool := j == c.rank || c.recv.any (fun x => (if c.op == 0x31 then c.root x.1 else x.2) == j)

/-- Every member is known to agree before anything is written at DADDR. A root of a tree and a grant need every member's packets in any case;
AGTH and A2A hold what comes first (R73; DESIGN CHOICE, log entry 20). -/
def Coll.agreed (c : Coll) : Bool := (c.op != 0x31 && c.op != 0x33) || (List.range c.p).all c.heard

/-- The number of writes into a chunk that are still to be placed grows by n. -/
def Coll.addWr (c : Coll) (m n : Nat) : Coll :=
  { c with wr := if c.wr.any (fun x => x.1 == m) then c.wr.map (fun x => if x.1 = m then (m, x.2 + n) else x) else c.wr ++ [(m, n)] }

/-- Writes elements at an element offset of DADDR, as part of destination chunk m (R144, R172). -/
def State.collPut (s : State) (r : Run) (c : Coll) (m off : Nat) (bytes : List Byte) : State × Coll :=
  let e := c.ins.w
  let w := s.writeLocal (s.runFunc r) (s.runPasid r) ((spaceOf (entOpx e 2 2)).getD .pool)
    (coDaddr e + BitVec.ofNat 64 (off * c.ofmt.size)) bytes (.coll c.rid m)
  let c : Coll := Coll.addWr { c with
    wrote := c.wrote + bytes.length } m w.1
  (w.2.setColl c, c)

/-- The same, or holds the elements until every member is known to agree (R73). -/
def State.collWrite (s : State) (r : Run) (c : Coll) (m off : Nat) (bytes : List Byte) : State × Coll :=
  if c.agreed then s.collPut r c m off bytes
  else
    let c : Coll := { c with hold := c.hold ++ [(m, off, bytes)] }
    (s.setColl c, c)

/-- Marks a source's data of a destination chunk as written, with the chunk's exception bit. -/
def Coll.took (c : Coll) (m src : Nat) (arith : Bool) : Coll :=
  { c with recv := c.recv ++ [(m, src)], arith := if arith && !c.arith.contains m then c.arith ++ [m] else c.arith }

/-- A retention ticket of chunk g waits no longer for the parent's acknowledgement, or for the children's; with neither to come it is released (R283). -/
def RTicket.acked (t : RTicket) (up : Bool) : Option RTicket :=
  let u : RTicket := if up then { t with up := false } else { t with down := false }
  if u.up || u.down then some u else none
def State.ackTicket (s : State) (comm : Nat) (cseq : Word) (g : Nat) (up : Bool) : State :=
  { s with rticks := s.rticks.filterMap (fun t => if t.comm = comm ∧ t.cseq = cseq ∧ t.chunk = g then t.acked up else some t) }

/-- The collective is over here: a ticket lasts on only for what is still retained. -/
def State.endTickets (s : State) (c : Coll) : State :=
  let kept := fun (t : RTicket) (k : CollKind) => s.xfers.any (fun x => x.comm == t.comm && x.cseq == t.cseq && x.chunk == t.chunk && x.kind == k)
  { s with rticks := s.rticks.filterMap (fun t =>
      if t.comm = c.comm ∧ t.cseq = c.cseq then
        let u : RTicket := { t with up := t.up && kept t .contrib, down := t.down && kept t .result }
        if u.up || u.down then some u else none
      else some t) }

/-- A collective that has no run any more is over: its slots are freed, its arrivals and what it kept for itself go. -/
def State.endColl (s : State) (c : Coll) : State :=
  let s := s.endTickets c
  { s with colls := s.colls.filter (fun x => x.rid != c.rid),
           mapDigs := s.mapDigs.filter (fun x => !(x.1 == c.comm && x.2.1 == c.cseq)),
           slots := s.slots.filter (fun x => match x.2 with | some y => !(y.comm == c.comm && y.cseq == c.cseq) | none => false),
           xfers := s.xfers.filter (fun x => !(x.comm == c.comm && x.cseq == c.cseq && (x.kind == .count || x.kind == .grant))),
           digests := s.digests.filter (fun x => !(x.1 == c.comm && x.2.1 == c.cseq)) }

end Sys2Proof.Machine
end

