-- ==== Sys2Proof/Machine/CollStep.lean ====
section
/-! DEFINITION. What a collective does next at this rank: contributions, slots, counts and grants, data, results, markers, completion
(R74 to R78, R154 to R172, R192 to R202). -/

namespace Sys2Proof.Machine

/-! ## Reading the source (R154) -/

/-- The contributions, data or rows of a collective have all been built: the next one of the communicator may read its source (R154). -/
def Coll.readsDone (c : Coll) : Bool :=
  if c.op == 0x40 then true
  else if c.isUp then decide (c.chunks ≤ c.built)
  else if c.op == 0x31 then decide (((List.range c.chunks).filter (fun g => c.pos g == 0)).length ≤ c.sent)
  else if c.op == 0x33 then decide (c.p * c.cb ≤ c.sent)
  else if c.op == 0x36 then
    (!(ownersOf c.emap c.p).contains c.rank || (c.granting && decide (c.combSends.length ≤ c.sent))) && c.grantsIn
      && (List.range c.dstChunks).all (fun m => c.recv.contains (m, 0))
  else c.grantsIn && c.todo.isEmpty

/-- A collective reads nothing of its source any more. -/
def State.readsOver (s : State) (d : Coll) : Bool :=
  match s.run? d.rid with
  | none => true
  | some r => r.phase == .ending || (r.phase == .coll && d.readsDone)

/-- No earlier collective of the communicator has its source still to read here (R154). -/
def State.srcTurn (s : State) (c : Coll) : Bool := s.colls.all (fun d => d.comm != c.comm || decide (c.rid ≤ d.rid) || s.readsOver d)

/-- Starts the read of a part of an operand into a free buffer of a run: the buffer's number. -/
def State.readPart (s : State) (rid : Nat) (o : Opnd) : State × Nat :=
  match s.run? rid with
  | none => (s, 0)
  | some r =>
    let n := (r.bufs.findIdx? (fun b => b.1 == noOpnd)).getD r.bufs.length
    let d := s.readOpnd (s.runFunc r) (s.runPasid r) o (.run rid n)
    (d.2.2.setRun { r with bufs := if n < r.bufs.length then r.bufs.set n (o, d.1, d.2.1) else r.bufs ++ [(o, d.1, d.2.1)] }, n)

/-- The buffers of a run are free again. -/
def Run.freeBufs (r : Run) (ns : List Nat) : Run := { r with bufs := ns.foldl (fun bs n => bs.set n (noOpnd, [], 0)) r.bufs }

/-- What is read for a key is all there. -/
def Coll.winIn (c : Coll) (r : Run) (key : Nat) : Bool :=
  (c.win.find? (fun w => w.1 == key)).elim false (fun w => w.2.all (fun n => (r.bufs[n]?).elim true (fun b => b.2.2 == 0)))

/-- Reads parts of operands once, for a key, when the collective's turn to read has come and MEMIN has cells for what lies in pooled memory (R154, R281);
k acts on the bytes when they are all there. -/
def State.withSrc (s : State) (r : Run) (c : Coll) (key : Nat) (os : List Opnd) (k : State → Coll → List (List Byte) → State) : Option State :=
  match c.win.find? (fun w => w.1 == key) with
  | some w =>
    if c.winIn r key then
      let c : Coll := { c with win := c.win.filter (fun x => x.1 != key) }
      some (k ((s.setRun (r.freeBufs w.2)).setColl c) c (w.2.map r.buf))
    else none
  | none =>
    if !s.srcTurn c || !s.canGrow 2 ((os.map (fun o => if o.space == .pool then (o.len + 255) / 256 else 0)).sum) then none
    else
      let x := os.foldl (fun (x : State × List Nat) o => let p := x.1.readPart r.rid o; (p.1, x.2 ++ [p.2])) (s, [])
      some (x.1.setColl { c with win := c.win ++ [(key, x.2)] })

/-- The part of the source, or of the residual, with elements lo to lo + n - 1. -/
def Coll.srcPart (c : Coll) (lo n : Nat) : Opnd := c.srcOpnd.part (lo * c.ifmt.size) (n * c.ifmt.size)
def Coll.resPart (c : Coll) (lo n : Nat) : Opnd := c.resOpnd.part (lo * c.ifmt.size) (n * c.ifmt.size)

/-! ## Contributions (R156, R161, R193, R194) -/

/-- A run waits for n more placements. -/
def State.addWrites (s : State) (rid n : Nat) : State :=
  match s.run? rid with
  | some r => s.setRun { r with writes := r.writes + n }
  | none => s

/-- Where the source elements of tree chunk g begin in SADDR: AGTH's source is the rank's own block. -/
def Coll.srcAt (c : Coll) (g : Nat) : Nat := if c.op == 0x31 then g % c.cb * CH else (c.range g).1

/-- The contribution of tree chunk g from its source and residual bytes: wire bytes, the new residual where EF is 1, and its exceptions. -/
def Coll.contribution (c : Coll) (g : Nat) (src resid : List Byte) : (List Byte × List Byte) × Exc :=
  let n := (c.range g).2
  let x := elems c.ifmt src 0 n
  if coEf c.ins.w then
    let r := elems c.ifmt resid 0 n
    let q := efChunk c.ifmt c.wfmt x.1 r.1
    (q.1, (x.2.join r.2).join q.2)
  else
    let q := c.wfmt.narrowTo x.1
    ((q.1, []), x.2.join q.2)

/-- Builds the contribution of a chunk once: exceptions counted, the residual rewritten (R194). -/
def State.buildContribution (s : State) (r : Run) (c : Coll) (g : Nat) (src resid : List Byte) : State × Coll × List Byte × Bool :=
  let q := c.contribution g src resid
  let k := s.keepExc c g q.2
  if coEf c.ins.w then
    let w := k.1.writeLocal (s.runFunc r) (s.runPasid r) ((spaceOf (entOpx c.ins.w 6 2)).getD .pool)
      (coResaddr c.ins + BitVec.ofNat 64 (c.srcAt g * c.ifmt.size)) q.1.2 (.run c.rid wResid)
    (w.2.addWrites c.rid w.1, k.2, q.1.1, q.2.any)
  else (k.1, k.2, q.1.1, q.2.any)

/-- The contribution of the next tree chunk in ascending order is read and built, and k acts on it (R154, R193). -/
def State.buildNext (s : State) (r : Run) (c : Coll) (g : Nat) (k : State → Coll → List Byte → Bool → State) : Option State :=
  if c.built != g then none
  else
    let n := (c.range g).2
    s.withSrc r c g ([c.srcPart (c.srcAt g) n] ++ if coEf c.ins.w then [c.resPart (c.srcAt g) n] else []) (fun s c ds =>
      let b := s.buildContribution r { c with built := g + 1 } g (ds.getD 0 []) (ds.getD 1 [])
      k b.1 b.2.1 b.2.2.1 b.2.2.2)

/-- Unacknowledged contributions, partials and COMB rows of this node's rank on a communicator (R165). -/
def State.unacked (s : State) (comm : Nat) : Nat := (s.xfers.filter (fun x => x.comm == comm && x.kind == .contrib && x.cseq != 0)).length

/-- SNAP: this member's index m, k, n and n_p (R313, R314), kept in sendCounts in that order; the ranks of the group stand in emap by index. -/
def Coll.snapM (c : Coll) : Nat := c.sendCounts.getD 0 0
def Coll.snapK (c : Coll) : Nat := c.sendCounts.getD 1 0
def Coll.snapN (c : Coll) : Nat := c.sendCounts.getD 2 0
def Coll.snapNp (c : Coll) : Nat := c.sendCounts.getD 3 0

/-- The holder of unit u of member m: (m − j − 1) mod (k + 1) (R314). -/
def holderOf (m k u : Nat) : Nat := (m + 2 * (k + 1) - u % k - 1) % (k + 1)
/-- The unit that member m contributes to stripe (b, h) (R314). -/
def unitOf (m h k b : Nat) : Nat := b * k + (m + 2 * (k + 1) - h - 1) % (k + 1)

/-- SNAP's contributions in ascending unit: the unit and the holder's rank (R316 step 2); none without a parity group. -/
def Coll.snapSends (c : Coll) : List (Nat × Nat) :=
  if c.snapK = 0 then [] else (List.range c.snapN).map (fun u => (u, c.emap.getD (holderOf c.snapM c.snapK u) 0))

/-- The collective has contributions or rows that have not left (R165). -/
def Coll.upLeft (c : Coll) : Bool :=
  if c.isUp then decide (c.sent < c.upChunks.length)
  else if c.op == 0x36 then ((ownersOf c.emap c.p).contains c.rank && !c.granting) || (c.granting && decide (c.sent < c.combSends.length))
  else if c.op == 0x40 then decide (c.sent < c.snapSends.length)
  else false

/-- RETC can take one more contribution or COMB row of a communicator: there is room, or its second reserved ticket covers none yet (R281, R283). -/
def State.retcRoom (s : State) (comm : Nat) : Bool :=
  s.canGrow 8 561 || !s.xfers.any (fun x => x.comm == comm && x.kind == .contrib && !s.ticketed x)

/-- Its turn to send has come: no earlier collective of the communicator has contributions left, and the window of 16 is open (R154, R165). -/
def State.upTurn (s : State) (c : Coll) : Bool :=
  decide (s.unacked c.comm < 16) && !s.colls.any (fun d => d.comm == c.comm && decide (d.rid < c.rid) && d.upLeft)

/-- Another queue that began to wait for transactions before queue g is to have the next ones (R112). -/
def State.collBarred (s : State) (g : Nat) : Bool :=
  s.txnBarred g || s.queues.any (fun q => q.1 != g && q.2.noted == .txn && (s.holdOf q.1 == .nothing || s.holdOf q.1 == .txn)
    && decide (s.txnsOf (s.ownerOf q.1) < s.grant (s.ownerOf q.1) 0x14 0 19)
    && (match q.2.txnWait, (s.queue g).txnWait with
      | some a, some b => decide (a < b)
      | some _, none => true
      | none, _ => false))

/-- The n packets of a contribution take their transactions together, at least as many as its function may hold at all (R111, R112; log entry 65). -/
def State.contribRoom (s : State) (r : Run) (n : Nat) : Bool :=
  let f := s.runFunc r
  s.txnRoom f (min n (max 1 (s.grant f 0x14 0 19))) && !s.collBarred r.g

/-- Packets of a transfer of n bytes. -/
def packetsOf (n : Nat) : Nat := max 1 (ceilDiv n 4096)

/-- A contribution of n bytes that is ready to leave takes its transactions, or its queue waits for them (R111, R112). -/
def State.gateTxns (s : State) (r : Run) (n : Nat) (k : Option State) : Option State :=
  if s.contribRoom r (packetsOf n) then k else if (s.queue r.g).txnColl then none else some (s.waitTxn r.g true)

/-- A contribution of this rank leaves with its transactions. -/
def State.sendContrib (s : State) (r : Run) (c : Coll) (x : Xfer) : State :=
  ((s.setColl { c with sent := c.sent + 1 }).keepXferOf x (some r.g)).modQueue r.g Queue.endTxnWait

/-- Sends the next contribution or partial up, where it is ready (R154, R165). -/
def State.upStep (s : State) (r : Run) (c : Coll) : Option State :=
  if !c.isUp || !s.upTurn c then none
  else (c.upChunks[c.sent]?).bind (fun g =>
    if c.interior g then
      (c.partials.find? (fun x => x.1 == g)).map (fun x =>
        let c : Coll := { c with sent := c.sent + 1, partials := c.partials.erase x }
        (s.setColl c).keepXfer (c.xfer .contrib g x.2.1 x.2.2 [c.parent g]))
    else if !s.retcRoom c.comm then none
    else
      let go := s.buildNext r c g (fun s c bytes exc => s.sendContrib r c (c.xfer .contrib g bytes exc [c.parent g]))
      if c.winIn r g then s.gateTxns r (c.wfmt.wireLen (c.range g).2) go else go)

/-! ## Slots (R160 to R166) -/

/-- The chunks for which this position needs a slot, in order (R160, R162). -/
def Coll.slotChunks (c : Coll) : List Nat :=
  if c.isUp then (List.range c.chunks).filter c.interior
  else if c.op == 0x36 then List.range c.dstChunks
  else if c.op == 0x40 then List.range c.snapNp
  else []

/-- The requests of this position: for slots, or of AGTH for retention tickets (R162, R283). -/
def Coll.requests (c : Coll) : List Nat :=
  if c.op == 0x31 then (List.range c.chunks).filter (fun g => !(c.kids g).isEmpty) else c.slotChunks

/-- The request for chunk g has been granted. -/
def Coll.hasRequest (c : Coll) (g : Nat) : Bool := (c.requests.take c.granted).contains g

/-- The slot of a chunk. -/
def State.slotOf (s : State) (c : Coll) (g : Nat) : Option (Nat × RSlot) :=
  s.slots.findSome? (fun x => match x.2 with
    | some y => if y.comm == c.comm && y.cseq == c.cseq && y.chunk == g then some (x.1, y) else none
    | none => none)
def State.setSlot (s : State) (n : Nat) (x : Option RSlot) : State := { s with slots := Tab.put (fun _ => none) s.slots n x }

/-- The format in which rank k's input to chunk g travels: a leaf's contribution or an interior position's partial (R156). -/
def Coll.inputFmt (c : Coll) (g k : Nat) : EFmt := if c.leafAt g k then c.wfmt else c.wfmt.partialFmt

/-- The own contribution enters a granted slot, once those of the earlier chunks are built (R154, R156, R160). -/
def State.slotOwn (s : State) (r : Run) (c : Coll) (n : Nat) (y : RSlot) : Option State :=
  s.buildNext r c y.chunk (fun s c bytes exc =>
    let w := c.wfmt.widen (c.range y.chunk).2 bytes
    let k := s.keepExc c y.chunk w.2
    k.1.setSlot n (some { y with acc := w.1, bits := y.mark, exc := exc || w.2.any }))

/-- A child's input is combined and accepted (R156, R166). -/
def State.slotCombine (s : State) (c : Coll) (n : Nat) (y : RSlot) (a : Arrival) : State :=
  let w := (c.inputFmt y.chunk a.srank).widen (c.range y.chunk).2 a.bytes
  let o := opList c.isInt (coOp c.ins.w) y.acc w.1
  let k := s.keepExc c y.chunk (w.2.join o.2)
  ((k.1.setSlot n (some { y with acc := o.1, bits := y.mark, exc := y.exc || a.exc || w.2.any || o.2.any })).ackArrival a).dropArrival a

/-- The kept pairs of this rank in the order of R169: t, k, owner, index in the owner's order, row offset. -/
def Coll.combKept (c : Coll) : List (Nat × Nat × Nat × Nat × Nat) :=
  (c.owners).flatMap (fun o => (c.keptAt o).zipIdx.map (fun x => (x.1.1, x.1.2.1, o, x.2, x.1.2.2)))

/-- The pairs that touch destination chunk m, by token and then k. -/
def Coll.combInputs (c : Coll) (m : Nat) : List (Nat × Nat × Nat × Nat × Nat) :=
  let h := coH c.ins.w
  let kept := c.combKept
  let lo := m * CH / h
  let n := (m * CH + c.dstLen m + h - 1) / h - lo
  (List.range n).flatMap (fun i => (List.range (coK c.ins.w)).filterMap (fun k => kept.find? (fun x => x.1 == lo + i && x.2.1 == k)))

/-- Pieces of token t's row that overlap chunk m. -/
def Coll.combPieces (c : Coll) (m t : Nat) : List Nat :=
  let h := coH c.ins.w
  (List.range c.rowPieces).filter (fun q => decide (t * h + q * CH < (m + 1) * CH) && decide (m * CH < t * h + min h ((q + 1) * CH)))

/-- The destination chunks that piece q of token t's row touches. -/
def Coll.pieceChunks (c : Coll) (t q : Nat) : List Nat :=
  let h := coH c.ins.w
  let lo := (t * h + q * CH) / CH
  (List.range ((t * h + min h ((q + 1) * CH) - 1) / CH + 1 - lo)).map (· + lo)

/-- The CHUNK of piece q of the row with an index in its owner's order (log entry 13). -/
def Coll.pieceNo (c : Coll) (idx q : Nat) : Nat := (idx * c.rowPieces + q) % 2 ^ 26

/-- Chunk m has combined the pair (t, k): its bit is set, or the chunk is finished (R166). -/
def State.pairIn (s : State) (c : Coll) (m t k : Nat) : Bool :=
  c.recv.contains (m, 0) || (match s.slotOf c m with
    | some (_, y) => ((c.combInputs m).findIdx? (fun x => x.1 == t && x.2.1 == k)).elim false (fun i => y.bits.testBit i)
    | none => false)

/-- Every chunk that a piece touches has combined it: it can be accepted (R166, R169). -/
def State.pieceIn (s : State) (c : Coll) (t k q : Nat) : Bool := (c.pieceChunks t q).all (fun m => s.pairIn c m t k)

/-- acc + fp32(gate × v) on the elements of token t in chunk m (R169). -/
def combAdd (acc : List DWord) (gate : Word) (at_ : Nat) (vs : List DWord) : List DWord × Exc :=
  let r := Sys2Proof.Machine.collect (List.zipWith (fun a v =>
    let p := fmul gate (e2f v)
    let q := fadd (e2f a) p.1
    (f2e q.1, p.2.join q.2)) (acc.drop at_) vs)
  (acc.take at_ ++ r.1 ++ acc.drop (at_ + vs.length), r.2)

/-- A row of token t with choice k enters a COMB slot from element lo on (R169). -/
def State.combTake (s : State) (c : Coll) (n : Nat) (y : RSlot) (t k lo : Nat) (row : List DWord × Exc) (exc : Bool) : State :=
  let a := combAdd y.acc ((c.assign.getD (t * coK c.ins.w + k) (0, 0)).2) (lo - y.chunk * CH) row.1
  let e := s.keepExc c y.chunk (row.2.join a.2)
  e.1.setSlot n (some { y with acc := a.1, bits := y.mark, exc := y.exc || exc || row.2.any || a.2.any })

/-- The next pair of a COMB slot is combined, where its row is at hand. A piece that reaches into another chunk stays until that chunk has combined
it too (R166, R169). -/
def State.slotComb (s : State) (r : Run) (c : Coll) (n : Nat) (y : RSlot) : Option State :=
  match (c.combInputs y.chunk)[y.got]? with
  | none => none
  | some (t, k, o, idx, off) =>
    let h := coH c.ins.w
    let lo := max (t * h) (y.chunk * CH)
    let len := min ((t + 1) * h) (y.chunk * CH + c.dstLen y.chunk) - lo
    if o = c.rank then
      s.withSrc r c (2 ^ 61 + y.chunk * 2 ^ 26 + y.got) [c.srcPart (off + (lo - t * h)) len] (fun s c ds =>
        let x := elems c.ifmt (ds.getD 0 []) 0 len
        let w := c.wfmt.narrowTo x.1
        let v := c.wfmt.widen len w.1
        s.combTake c n y t k lo (v.1, (x.2.join w.2).join v.2) false)
    else
      let ps := c.combPieces y.chunk t
      let arr := ps.map (fun q => s.arrival? c.comm c.cseq .contrib (c.pieceNo idx q) o)
      if arr.any Option.isNone then none
      else
        let q0 := ps.headD 0
        let l := Sys2Proof.Machine.collect ((ps.zip arr).map (fun x => c.wfmt.widen (min CH (h - x.1 * CH)) (x.2.elim [] Arrival.bytes)))
        let row := (l.1.flatten.drop (lo - t * h - q0 * CH)).take len
        let s := s.combTake c n y t k lo (row, l.2) (arr.any (fun x => x.elim false Arrival.exc))
        some ((ps.zip arr).foldl (fun s x => match x.2, s.coll? c.rid with
          | some z, some c => if s.pieceIn c t k x.1 then (s.ackArrival z).dropArrival z else s
          | _, _ => s) s)

/-- Inputs that a slot waits for in all (R156, R169). -/
def Coll.slotTotal (c : Coll) (g : Nat) : Nat :=
  if c.isUp then 1 + (c.kids g).length
  else if c.op == 0x36 then (c.combInputs g).length
  else 0

/-- A slot takes its next input, in order (R156, R166). -/
def State.slotStep (s : State) (r : Run) (c : Coll) : Option State :=
  c.slotChunks.findSome? (fun g => match s.slotOf c g with
    | none => none
    | some (n, y) =>
      if c.isUp then
        if y.got = 0 then s.slotOwn r c n y
        else ((c.kids g)[y.got - 1]?).bind (fun k => (s.arrival? c.comm c.cseq .contrib g k).map (fun a => s.slotCombine c n y a))
      else if c.op == 0x36 && c.grantsIn then s.slotComb r c n y
      else none)

/-- An input whose claim generation is below the map's is stale: discarded, counted and not acknowledged (R166, R178). -/
def State.staleStep (s : State) (c : Coll) : Option State :=
  (s.arrivals.find? (fun a => a.ok && a.comm == c.comm && a.cseq == c.cseq && s.staleArrival a)).map (fun a => (s.dropArrival a).count 0x260038)

/-- An input to a tree chunk that has been combined before, or that no input of the chunk is. -/
def State.dupUp (s : State) (c : Coll) (a : Arrival) : Bool :=
  match c.slotChunks.findIdx? (· == a.chunk) with
  | none => true
  | some i => decide (i < c.granted) && (match s.slotOf c a.chunk with
    | none => true
    | some (_, y) => ((c.kids a.chunk).findIdx? (· == a.srank)).elim true (fun j => y.bits.testBit (j + 1)))

/-- A piece of a COMB row that every chunk it touches has combined before. -/
def State.dupRow (s : State) (c : Coll) (a : Arrival) : Bool :=
  c.grantsIn && c.combKept.any (fun x => x.2.2.1 == a.srank
    && (List.range c.rowPieces).any (fun q => c.pieceNo x.2.2.2.1 q == a.chunk && s.pieceIn c x.1 x.2.1 q))

/-- An input that has been combined before: discarded, counted and acknowledged again (R166). -/
def State.dupStep (s : State) (c : Coll) : Option State :=
  (s.arrivals.find? (fun a => a.ok && a.comm == c.comm && a.cseq == c.cseq && a.kind == .contrib
      && ((c.isUp && s.dupUp c a) || (c.op == 0x36 && s.dupRow c a)))).map (fun a => ((s.count 0x260030).ackArrival a).dropArrival a)

/-- The next slot request of a communicator, in the order of R154: the collective and chunk. -/
def State.nextRequest (s : State) (comm : Nat) : Option (Coll × Nat) :=
  (s.colls.filter (fun c => c.comm == comm)).findSome? (fun c => (c.requests[c.granted]?).map (fun g => (c, g)))

/-- Slots that a function holds: one reserved for each communicator, and shared ones (R163). -/
def State.slotsHeld (s : State) (f : Nat) : Nat :=
  (s.comms.filter (fun x => match x.2 with | some c => c.creator == f | none => false)).length
    + (s.slots.filter (fun x => match x.2 with
        | some y => !y.reserved && (s.comm y.comm).elim false (fun c => c.creator == f)
        | none => false)).length

/-- A slot number that is FREE. -/
def State.freeSlotNo (s : State) : Option Nat := (List.range 4096).find? (fun n => Tab.get (fun _ => none) s.slots n == none)

/-- The accumulator of a granted slot is cleared (R160). -/
def Coll.clearAcc (c : Coll) (g : Nat) : List DWord :=
  if c.op == 0x36 then List.replicate (c.dstLen g) 0 else if c.op == 0x40 then List.replicate 8192 0 else List.replicate (c.range g).2 0

/-- The retention ticket of a position for a chunk: the larger of its transfers in PFMT and OFMT, at most 561 cells; none where it retains nothing
(R283). Slots of COMB and SNAP are at no tree position. -/
def Coll.ticket (c : Coll) (g : Nat) (reserved : Bool) : List RTicket :=
  let n := (c.range g).2
  let up := c.isUp && c.pos g != 0
  let down := c.isDown && !(c.kids g).isEmpty
  if up || down then
    [{ comm := c.comm, cseq := c.cseq, chunk := g, reserved, up, down
       cells := min 561 (pieceCells (max (c.wfmt.partialFmt.wireLen n) (c.ofmt.wireLen n))) }]
  else []

/-- A slot and its ticket are granted to a request (R162, R283). -/
def State.grantSlot (s : State) (c : Coll) (g : Nat) (reserved : Bool) : State :=
  match s.freeSlotNo with
  | none => s
  | some n => { (s.setColl { c with granted := c.granted + 1 }).setSlot n
      (some { comm := c.comm, cseq := c.cseq, chunk := g, reserved, acc := c.clearAcc g, bits := 0, exc := false }) with
    rticks := s.rticks ++ c.ticket g reserved }

/-- The reserved ticket that goes with a communicator's reserved slot is free (R283). -/
def State.ticketFree (s : State) (comm : Nat) : Bool := !s.rticks.any (fun t => t.comm == comm && t.reserved)

/-- RETC has room for the ticket of a request. -/
def State.ticketRoom (s : State) (c : Coll) (g : Nat) : Bool := (c.ticket g false).all (fun t => s.canGrow 8 t.cells)

/-- SLOT_GRANT: a communicator's free reserved slot goes to its next request; a shared slot to the request of the collective that started earliest,
functions at their grant passed over. Each comes with a ticket of RETC, and neither is granted without the other (R162, R163, R283). -/
def State.slotGrant (s : State) : State :=
  let handles := s.comms.map (·.1)
  let busy := fun (h : Nat) => s.slots.any (fun x => match x.2 with | some y => y.comm == h && y.reserved | none => false)
  let next := fun (h : Nat) => (s.nextRequest h).filter (fun q => q.1.op != 0x31)
  match handles.findSome? (fun h => if busy h || !s.ticketFree h then none else next h) with
  | some (c, g) => s.grantSlot c g true
  | none =>
    let shared := (s.slots.filter (fun x => match x.2 with | some y => !y.reserved | none => false)).length
    if shared ≥ 4096 - handles.length then s
    else
      let reqs := handles.filterMap (fun h => match s.comm h, next h with
        | some k, some q => if s.slotsHeld k.creator < s.grant k.creator 0x1C 0 13 then some q else none
        | _, _ => none)
      match reqs.foldl (fun b q => match b with
        | none => some q
        | some x => if q.1.rid < x.1.rid then some q else some x) none with
      | some (c, g) => if s.ticketRoom c g then s.grantSlot c g false else (c.ticket g false).foldl (fun s t => s.noteBorrow 8 t.cells) s
      | none => s

/-- A position of AGTH, which needs no slot, is granted the ticket of its next request (R283). -/
def State.ticketStep (s : State) (c : Coll) : Option State :=
  if c.op != 0x31 then none
  else (s.nextRequest c.comm).bind (fun q =>
    let give := fun (reserved : Bool) => some { s.setColl { c with granted := c.granted + 1 } with rticks := s.rticks ++ c.ticket q.2 reserved }
    if q.1.rid != c.rid then none
    else if s.ticketFree c.comm then give true
    else if s.ticketRoom c q.2 then give false
    else none)

/-! ## The update program at a block's owner (R200 to R202) -/

def rugShard (i : Fetched) : Nat := (ent64 (coExt i) 0).toNat
def rugStride (i : Fetched) : Nat := (ent64 (coExt i) 8).toNat
def rugSlot (i : Fetched) : Nat := entBits (coExt i) 160 6
def rugNstr (i : Fetched) : Nat := entBits (coExt i) 168 3
def rugScal (i : Fetched) (n : Nat) : Word := ent32 (coExt i) (56 + 4 * n)

/-- The global number of program slot n of function f, and the program of a slot: empty where none is loaded (R195, R374). -/
def State.progSlot (s : State) (f n : Nat) : Option Nat := if n < s.grant f 0x20 8 7 then some (s.grant f 0x20 0 6 + n) else none
def State.progAt (s : State) (n : Nat) : List Byte := Tab.get (fun _ => []) s.progs n

/-- The pooled-memory range of stream k for elements j to j + n - 1. -/
def streamRange (img : List Byte) (i : Fetched) (k j n : Nat) : Nat × Nat :=
  let z := (streamFmt img k).size
  (rugShard i + k * rugStride i + j * z, n * z)

/-- Runs the program over the elements of a chunk: pooled memory with the streams written, the output values and the exceptions. -/
def State.runProgram (s : State) (img : List Byte) (i : Fetched) (j0 : Nat) (acc : List DWord) : State × List DWord × Exc :=
  (acc.zipIdx).foldl (fun (x : State × List DWord × Exc) v =>
    let rd := (List.range (imgNstr img)).map (fun k => let q := streamRange img i k (j0 + v.2) 1; x.1.pread q.1 q.2)
    let r := runElem img (e2f v.1) (rugScal i 0) (rugScal i 1) rd
    (r.1.1.foldl (fun s w => s.pwrite (streamRange img i w.1 (j0 + v.2) 1).1 w.2) x.1, x.2.1 ++ [f2e r.1.2], x.2.2.join r.2)) (s, [], Exc.none)

/-! ## Finishing a slot (R160) -/

/-- The result of a root chunk is written, and goes down where the opcode gathers it. -/
def State.rootResult (s : State) (r : Run) (c : Coll) (g : Nat) (bytes : List Byte) (exc : Bool) : State :=
  let m := if c.op == 0x30 then g % c.cb else g
  let off := if c.op == 0x30 then m * CH else (c.range g).1
  let w := s.collWrite r c m off bytes
  let c := w.2.took m 0 exc
  let s := w.1.setColl c
  if c.op == 0x30 || (c.kids g).isEmpty then s else s.keepXfer (c.xfer .result g bytes exc (c.kids g))

/-- The update programs of the earlier chunks of this block have run, and those of the communicator's earlier collectives (R154, R202). -/
def State.programTurn (s : State) (c : Coll) (g : Nat) : Bool :=
  (List.range g).all (fun h => c.root h != c.rank || c.recv.contains (h, 0))
    && s.colls.all (fun d => d.comm != c.comm || decide (c.rid ≤ d.rid) || d.op != 0x37 || (s.run? d.rid).isNone
      || (List.range d.chunks).all (fun h => d.root h != d.rank || d.recv.contains (h, 0)))

/-- A full slot finishes: it rounds to PFMT or OFMT, runs the update program, or forms COMB's outputs; then it is free (R157, R160, R169, R202).
Streams that cannot be written yet leave it in FINISHING. -/
def State.finishSlot (s : State) (r : Run) (c : Coll) (n : Nat) (y : RSlot) : State :=
  let g := y.chunk
  let free := fun (s : State) => s.setSlot n none
  if c.op == 0x36 then
    let o := c.ofmt.narrowTo y.acc
    let k := s.keepExc c g o.2
    let w := (free k.1).collWrite r k.2 g (g * CH) o.1
    w.1.setColl (w.2.took g 0 (y.exc || o.2.any))
  else if c.pos g != 0 then
    let o := c.wfmt.partialFmt.narrowTo y.acc
    let k := s.keepExc c g o.2
    (free k.1).setColl { k.2 with partials := k.2.partials ++ [(g, o.1, y.exc || o.2.any)] }
  else if c.op == 0x37 then
    let img := c.prog
    let j0 := g % c.cb * CH
    let busy := (List.range (imgNstr img)).filter (fun k => let q := streamRange img c.ins k j0 (c.range g).2; s.poolBusy q.1 q.2)
    if !s.programTurn c g then s
    else if !busy.isEmpty then
      busy.foldl (fun s k => let q := streamRange img c.ins k j0 (c.range g).2; s.snoopRange q.1 q.2) s
    else
      let x := s.runProgram img c.ins j0 y.acc
      let o := c.ofmt.narrowTo x.2.1
      let k := x.1.keepExc c g (x.2.2.join o.2)
      (free k.1).rootResult r k.2 g o.1 (y.exc || x.2.2.any || o.2.any)
  else
    let o := c.ofmt.narrowTo y.acc
    let k := s.keepExc c g o.2
    (free k.1).rootResult r k.2 g o.1 (y.exc || o.2.any)

/-! ## Results down the tree (R158, R174) -/

/-- AGTH's owner converts its next chunk, places it and sends it down (R158). -/
def State.agthStep (s : State) (r : Run) (c : Coll) : Option State :=
  if c.op != 0x31 then none
  else (((List.range c.chunks).filter (fun g => c.pos g == 0))[c.sent]?).bind (fun g =>
    if !(c.kids g).isEmpty && !c.hasRequest g then none
    else s.withSrc r c g [c.srcPart (c.srcAt g) (c.range g).2] (fun s c ds =>
      let x := elems c.ifmt (ds.getD 0 []) 0 (c.range g).2
      let w := c.wfmt.narrowTo x.1
      let v := c.wfmt.widen (c.range g).2 w.1
      let o := c.ofmt.narrowTo v.1
      let e := ((x.2.join w.2).join v.2).join o.2
      let k := s.keepExc { c with sent := c.sent + 1 } g e
      let d := k.1.collWrite r k.2 g (c.range g).1 o.1
      let c := d.2.took g 0 e.any
      if (c.kids g).isEmpty then d.1.setColl c else (d.1.setColl c).keepXfer (c.xfer .result g w.1 e.any (c.kids g))))

/-- A verified result is placed, forwarded to this position's children and acknowledged; a further copy is discarded. One that is to be forwarded waits
in the store for its position's ticket (R174, R283). -/
def State.resultStep (s : State) (r : Run) (c : Coll) : Option State :=
  if !c.isDown then none
  else (s.arrivals.find? (fun a => a.ok && a.comm == c.comm && a.cseq == c.cseq && a.kind == .result
      && (c.op != 0x31 || (c.kids a.chunk).isEmpty || c.hasRequest a.chunk))).map (fun a =>
    let g := a.chunk
    if c.recv.contains (g, 0) || decide (c.chunks ≤ g) || c.pos g == 0 then (s.ackArrival a).dropArrival a
    else
      let v := if c.op == 0x31 then
          let v := c.wfmt.widen (c.range g).2 a.bytes
          let o := c.ofmt.narrowTo v.1
          (o.1, v.2.join o.2)
        else (a.bytes, Exc.none)
      let k := s.keepExc c g v.2
      let d := k.1.collWrite r k.2 g (c.range g).1 v.1
      let exc := a.exc || v.2.any
      let c := d.2.took g 0 exc
      let s := d.1.setColl c
      let s := if (c.kids g).isEmpty then s else s.keepXfer (c.xfer .result g a.bytes a.exc (c.kids g))
      (s.ackArrival a).dropArrival a)

/-! ## Point-to-point data (R158, R168, R170) -/

/-- Writes received elements at the segments of a destination chunk, converting WFMT to OFMT. m is the marker's chunk, src the source rank. -/
def State.placeSegs (s : State) (r : Run) (c : Coll) (m src : Nat) (segs : List Seg) (bytes : List Byte) (exc : Bool) : State :=
  let total := (segs.map (fun x => x.len)).sum
  let v := c.wfmt.widen total bytes
  let w := segs.foldl (fun (x : State × Coll × List DWord × Exc) g =>
    let o := c.ofmt.narrowTo (x.2.2.1.take g.len)
    let d := x.1.collWrite r x.2.1 m g.dst o.1
    (d.1, d.2, x.2.2.1.drop g.len, x.2.2.2.join o.2)) (s, c, v.1, v.2)
  let k := w.1.keepExc w.2.1 m w.2.2.2
  k.1.setColl (k.2.took m src (exc || w.2.2.2.any))

/-- Source bytes of some segments, in order, converted to WFMT. -/
def Coll.pack (c : Coll) (ds : List (List Byte)) : List Byte × Exc :=
  let x := elems c.ifmt ds.flatten 0 (ds.flatten.length / c.ifmt.size)
  let w := c.wfmt.narrowTo x.1
  (w.1, x.2.join w.2)

/-- Reads this source's data for one destination chunk of rank o, and sends them, or places them here. Point-to-point sends wait while RETC cannot
grow (R283). -/
def State.sendSegs (s : State) (r : Run) (c : Coll) (key o wire m : Nat) (segs : List Seg) (next : Coll → Coll) : Option State :=
  if o != c.rank && !s.canGrow 8 561 then none
  else s.withSrc r c key (segs.map (fun x => c.srcPart x.src x.len)) (fun s c ds =>
    let b := c.pack ds
    let k := s.keepExc (next c) (if o = c.rank then m else wire + 2 ^ 26 * (o + 1)) b.2
    if o = c.rank then k.1.placeSegs r k.2 m c.rank segs b.1 b.2.any
    else k.1.keepXfer (k.2.xfer .data wire b.1 b.2.any [o]))

/-- A2A sends its next chunk: chunk j × CB + c of the block for rank j (R153, R158). -/
def State.a2aStep (s : State) (r : Run) (c : Coll) : Option State :=
  if c.op != 0x33 || decide (c.p * c.cb ≤ c.sent) then none
  else
    let g := c.sent
    let j := g / c.cb
    let m := c.rank * c.cb + g % c.cb
    s.sendSegs r c g j g m [{ dst := if j = c.rank then (c.range m).1 else 0, len := (c.range g).2, src := (c.range g).1 }]
      (fun c => { c with sent := c.sent + 1 })

/-- The data that a grant brings about: each destination chunk that the kept elements or rows touch (R168, R170). -/
def Coll.grantTodo (c : Coll) (o : Nat) : List (Nat × Nat) :=
  if c.op == 0x36 then [] else (chunksOf (c.segsTo o)).map (fun m => (m, o))

/-- A2AV and DISP send their next data: of the grants that are in, the lowest destination chunk, and of that the lowest owner (R154, R168, R170). -/
def State.todoStep (s : State) (r : Run) (c : Coll) : Option State :=
  let first := c.todo.foldl (fun (b : Option (Nat × Nat)) x => match b with
    | none => some x
    | some y => if x.1 < y.1 ∨ (x.1 = y.1 ∧ x.2 < y.2) then some x else some y) none
  first.bind (fun x =>
    s.sendSegs r c (2 ^ 60 + x.2 * 2 ^ 26 + x.1) x.2 x.1 x.1 (clipAll (c.segsTo x.2) x.1) (fun c => { c with todo := c.todo.erase x }))

/-- Data of a source are placed and accepted; a further copy is acknowledged again (R166, R174). -/
def State.dataStep (s : State) (r : Run) (c : Coll) : Option State :=
  if c.op == 0x33 || ((c.op == 0x34 || c.op == 0x35) && c.granting) then
    (s.arrivals.find? (fun a => a.ok && a.comm == c.comm && a.cseq == c.cseq && a.kind == .data)).map (fun a =>
      let m := if c.op == 0x33 then a.srank * c.cb + a.chunk % c.cb else a.chunk
      let segs := if c.op == 0x33 then [{ dst := (c.range m).1, len := (c.range m).2, src := 0 }] else clipAll (c.segsFrom a.srank) m
      if c.recv.contains (m, a.srank) then ((s.count 0x260030).ackArrival a).dropArrival a
      else ((s.placeSegs r c m a.srank segs a.bytes a.exc).ackArrival a).dropArrival a)
  else none

/-- DISP's unused rows are written as +0 once every kept row has been placed (R168). Source P stands for them. -/
def State.padStep (s : State) (r : Run) (c : Coll) : Option State :=
  let pads := c.padSegs
  let left := (chunksOf pads).filter (fun m => !c.recv.contains (m, c.p))
  if c.op != 0x35 || !c.granting || left.isEmpty then none
  else if c.wr.all (fun w => w.2 == 0) && (List.range c.dstChunks).all (fun m => (c.expects m).all (fun r => c.recv.contains (m, r))) then
    some (left.foldl (fun s m => match s.coll? c.rid with
      | none => s
      | some c =>
        let w := (clipAll pads m).foldl (fun (x : State × Coll) g => x.1.collWrite r x.2 m g.dst (List.replicate (g.len * c.ofmt.size) 0)) (s, c)
        w.1.setColl (w.2.took m c.p false)) s)
  else none

/-! ## Counts and grants (R168, R170) -/

/-- 32-bit numbers of a payload, and the entries of a grant message (R273). -/
def words32 (bs : List Byte) : List Nat := (pieces 4 bs).map leVal
def grantBytes (gs : List GrantE) : List Byte := (gs.map (fun g => leSplit 2 g.expert ++ leSplit 1 g.k ++ [0] ++ leSplit 4 g.a ++ leSplit 4 g.base)).flatten
def parseGrants (bs : List Byte) : List GrantE :=
  (pieces 12 bs).map (fun b => { expert := leVal (b.take 2), k := leVal ((b.drop 2).take 1), a := leVal ((b.drop 4).take 4), base := leVal ((b.drop 8).take 4) })

/-- A count message is counted (R168). -/
def State.countStep (s : State) (c : Coll) : Option State :=
  (s.arrivals.find? (fun a => a.ok && a.comm == c.comm && a.cseq == c.cseq && a.kind == .count)).map (fun a =>
    let s := s.dropArrival a
    if c.counts.any (fun x => x.1 == a.srank) then s else s.setColl { c with counts := c.counts ++ [(a.srank, words32 a.bytes)] })

/-- The drop mask of a run is written. -/
def State.auxWrite (s : State) (r : Run) (addr : DWord) (bs : List Byte) : State :=
  let w := s.writeLocal (s.runFunc r) (s.runPasid r) (auxSpace r.ins.w) addr bs (.run r.rid wAux)
  w.2.addWrites r.rid w.1

/-- The number that stands for A2AV's arrays among the chunks with writes. -/
def arrayChunk : Nat := 2 ^ 26

/-- An array of A2AV is written, before any marker (R170). -/
def State.arrayWrite (s : State) (r : Run) (addr : DWord) (bs : List Byte) : State :=
  let w := s.writeLocal (s.runFunc r) (s.runPasid r) (auxSpace r.ins.w) addr bs (.coll r.rid arrayChunk)
  match w.2.coll? r.rid with
  | some c => w.2.setColl (c.addWr arrayChunk w.1)
  | none => w.2

/-- A grant is in: the owner's count message is done with, and the data phase toward it begins (R159, R168). -/
def State.grantIn (s : State) (rid o : Nat) (gs : List GrantE) : State :=
  match s.coll? rid with
  | none => s
  | some c =>
    if c.grants.any (fun x => x.1 == o) then s
    else
      let s := s.setColl { c with grants := c.grants ++ [(o, gs)] }
      let s : State := { s with xfers := s.xfers.filter (fun x =>
        !(x.comm == c.comm && x.cseq == c.cseq && x.kind == .count && x.peers.any (fun p => p.rank == o))) }
      (s.coll? rid).elim s (fun c => s.setColl { c with todo := c.todo ++ c.grantTodo o })

/-- The owner has every count: A2AV writes its arrays, and each source gets its grant (R168, R170). -/
def State.grantStep (s : State) (r : Run) (c : Coll) : Option State :=
  if c.granting || !c.owners.contains c.rank || c.counts.length != c.p then none
  else
    let c : Coll := { c with granting := true }
    let s := s.setColl c
    let s := if c.op == 0x34 then
        (s.arrayWrite r (auxAddr c.ins 1) (((List.range c.p).map (fun q => leSplit 4 (c.countOf q 0 0))).flatten)).arrayWrite r (auxAddr c.ins 2)
          ((c.allocV.map (fun g => leSplit 4 g.1)).flatten)
      else s
    let s := ((List.range c.p).filter (· != c.rank)).foldl (fun s q => s.keepXfer (c.xfer .grant grantChunk (grantBytes (c.grantFor q)) false [q])) s
    some (s.grantIn c.rid c.rank (c.grantFor c.rank))

/-- The next grant that has come in (R168, R170). -/
def State.grantArrives (s : State) (c : Coll) : Option State :=
  (s.arrivals.find? (fun a => a.ok && a.comm == c.comm && a.cseq == c.cseq && a.kind == .grant)).map (fun a =>
    (s.dropArrival a).grantIn c.rid a.srank (parseGrants a.bytes))

/-- Pairs of DISP or elements of A2AV that this source lost (R75, R76). -/
def Coll.lostHere (c : Coll) : Nat :=
  if c.op == 0x35 then c.droppedPairs.length
  else if c.op == 0x34 then ((List.range c.p).map (fun o => c.sendCounts.getD o 0 - (c.granted? o 0 0).1)).sum
  else 0

/-- Every grant is in: what was dropped is known, and the drop mask of DISP is written (R75, R168). -/
def State.grantsDone (s : State) (r : Run) (c : Coll) : Option State :=
  if c.grantsIn || c.owners.isEmpty || c.grants.length != c.owners.length then none
  else
    let s := s.setColl { c with grantsIn := true, drops := c.lostHere }
    if c.op == 0x35 then
      let ds := c.droppedPairs
      let n := coT c.ins.w * coK c.ins.w
      some (s.auxWrite r (auxAddr c.ins 2) ((List.range ((n + 7) / 8)).map (fun i =>
        (List.range 8).foldl (fun b j => if ds.contains (8 * i + j) then b ||| BitVec.ofNat 8 (2 ^ j) else b) 0)))
    else some s

/-- COMB's owner sends its next row piece (R165, R169). -/
def State.rowStep (s : State) (r : Run) (c : Coll) : Option State :=
  if c.op != 0x36 || !c.granting || !s.upTurn c || !s.retcRoom c.comm then none
  else (c.combSends[c.sent]?).bind (fun x =>
    let key := 2 ^ 60 + c.sent
    let go := s.withSrc r c key [c.srcPart x.2.2.1 x.2.2.2] (fun s c ds =>
      let b := c.pack ds
      let k := s.keepExc c (x.2.1 + 2 ^ 26 * (x.1 + 1)) b.2
      k.1.sendContrib r k.2 (k.2.xfer .contrib x.2.1 b.1 b.2.any [x.1]))
    if c.winIn r key then s.gateTxns r (c.wfmt.wireLen x.2.2.2) go else go)

/-! ## Markers and completion (R74 to R76, R171, R172) -/

/-- The whole of destination chunk m is in. -/
def Coll.chunkIn (c : Coll) (m : Nat) : Bool :=
  ((c.op != 0x34 && c.op != 0x35) || c.granting) && (c.expects m).all (fun r => c.recv.contains (m, r))
    && (!(chunksOf c.padSegs).contains m || c.recv.contains (m, c.p)) && !c.hold.any (fun x => x.1 == m)
    && c.wr.all (fun w => (w.1 != m && w.1 != arrayChunk) || w.2 == 0)

/-- The stitch marker of destination chunk m (R171). -/
def Coll.marker (c : Coll) (m : Nat) : DWord :=
  let bit := fun (b : Bool) (n : Nat) => if b then 2 ^ n else 0
  let h := coH c.ins.w
  let empty := c.op == 0x34 && (c.expects m).isEmpty
  let padded := (c.op == 0x35 && (chunksOf c.padSegs).contains m)
    || (c.op == 0x36 && (List.range ((m * CH + c.dstLen m + h - 1) / h - m * CH / h)).any (fun i => !(c.combKept.any (fun x => x.1 == m * CH / h + i))))
  BitVec.ofNat 64 (c.cseq.toNat + m % 2 ^ 26 * 2 ^ 32 + bit (c.arith.contains m) 58 + bit empty 59 + bit padded 60)

/-- The next finished chunk gets its marker (R172). -/
def State.markStep (s : State) (r : Run) (c : Coll) : Option State :=
  ((List.range c.dstChunks).find? (fun m => !c.done.contains m && c.chunkIn m)).map (fun m =>
    let s := s.setColl { c with done := c.done ++ [m] }
    if coMken c.ins.w then
      let w := s.writeLocal (s.runFunc r) (s.runPasid r) ((spaceOf (entOpx c.ins.w 4 2)).getD .pool)
        (coMkaddr c.ins + BitVec.ofNat 64 (8 * m)) (leSplit 8 (c.marker m).toNat) (.run c.rid wMark)
      w.2.addWrites c.rid w.1
    else s)

/-- The conditions of R74: everything is placed and marked, every contribution and row is acknowledged, and of R85 that every member's map digest
has been compared. -/
def State.collDone (s : State) (r : Run) (c : Coll) : Bool :=
  decide (c.done.length = c.dstChunks) && r.writes == 0 && c.wr.all (fun w => w.2 == 0)
    && (if c.op == 0x31 || c.op == 0x33 then c.readsDone else !c.upLeft) && (!c.isUp || c.readsDone) && c.todo.isEmpty
    && (c.owners.isEmpty || c.grantsIn) && (!c.owners.contains c.rank || c.granting)
    && !s.xfers.any (fun x => x.comm == c.comm && x.cseq == c.cseq && x.kind == .contrib)
    && !s.slots.any (fun x => match x.2 with | some y => y.comm == c.comm && y.cseq == c.cseq | none => false)
    && (!c.mapCmp || (List.range c.p).all (fun q => q == c.rank || s.mapDigs.any (fun d => d.1 == c.comm && d.2.1 == c.cseq && d.2.2.1 == q)))

/-- The status of a collective that has done everything (R74, R75, R76, R88); its flags and INFO are those of any record (State.report). -/
def State.collComplete (s : State) (r : Run) (c : Coll) : State :=
  s.complete { r with
    status := if c.drops > 0 then stDropped else if !c.arith.isEmpty then stArith else stOk
    result := BitVec.ofNat 64 c.drops }

/-- Every member is known to agree: what was held is written (R73). -/
def State.holdStep (s : State) (r : Run) (c : Coll) : Option State :=
  if c.hold.isEmpty || !c.agreed then none
  else some (c.hold.foldl (fun x h => x.1.collPut r x.2 h.1 h.2.1 h.2.2) (s.setColl { c with hold := [] }, { c with hold := [] })).1

/-- Tells every other member a digest of a collective: a NAK that carries it (DESIGN CHOICE, log entry 20). -/
def State.tellDigest (s : State) (c : Coll) (d : Word) : State :=
  (c.nodes.zipIdx.filter (fun n => n.1 != s.self)).foldl (fun s n => s.sendColl n.1 (some n.2) .nak c.comm c.cseq c.op 0 c.rank d) s

/-- The collective completes with CHECK_MISMATCH; what it has sent is kept no longer (R73). -/
def State.mismatch (s : State) (r : Run) (c : Coll) : State :=
  ({ s with xfers := s.xfers.filter (fun x => !(x.comm == c.comm && x.cseq == c.cseq)) } : State).completeWith r stMismatch

/-- A digest other than this member's own, told by another member or carried by an arrival: the members disagree. Whoever finds it tells the
others both digests, of which each of them holds at most one, and every member completes with CHECK_MISMATCH (R73; log entry 20). So does one that is
told the digest of another map than its own (R85; log entry 21). -/
def State.digestStep (s : State) (r : Run) (c : Coll) : Option State :=
  if s.digests.any (fun x => x.1 == c.comm && x.2.1 == c.cseq && x.2.2 != c.pdig)
      || s.mapDigs.any (fun x => x.1 == c.comm && x.2.1 == c.cseq && x.2.2.2 != c.map) then some (s.mismatch r c)
  else (s.arrivals.find? (fun a => a.ok && a.comm == c.comm && a.cseq == c.cseq && (a.pdig != c.pdig || a.op != c.op))).map (fun a =>
    (((s.dropArrival a).tellDigest c c.pdig).tellDigest c a.pdig).mismatch r c)

/-- What a collective in progress does next, if anything. -/
def State.collStep (s : State) (r : Run) : Option State :=
  match s.coll? r.rid with
  | none => none
  | some c =>
    s.digestStep r c <|> s.staleStep c <|> s.dupStep c <|> s.countStep c <|> s.grantStep r c <|> s.grantArrives c <|> s.grantsDone r c
      <|> s.ticketStep c <|> s.agthStep r c <|> s.a2aStep r c <|> s.todoStep r c <|> s.resultStep r c <|> s.dataStep r c <|> s.padStep r c <|> s.holdStep r c <|> s.upStep r c <|> s.rowStep r c
      <|> s.slotStep r c <|> s.markStep r c <|> (if s.collDone r c then some (s.collComplete r c) else none)

/-- A collective whose run is over leaves (R176 to R178). -/
def State.tryEndColl (s : State) : Option State := (s.colls.find? (fun c => (s.run? c.rid).isNone)).map s.endColl

/-- An arrival for a collective that is over here: stale, or a duplicate and acknowledged again (R166, R174). -/
def State.tryOldArrival (s : State) : Option State :=
  (s.arrivals.find? (fun a => a.ok && a.cseq != 0 && (s.collAt a.comm a.cseq).isNone
      && (s.comm a.comm).elim false (fun c => !seqFollows c.seq a.cseq))).map (fun a =>
    let s := if s.staleArrival a then s.count 0x260038
      else if a.kind = .contrib ∨ a.kind = .data then (s.count 0x260030).ackArrival a else if a.kind = .result then s.ackArrival a else s
    s.dropArrival a)

end Sys2Proof.Machine
end

