-- ==== Sys2Proof/Machine/Snap.lean ====
section
/-! DEFINITION. The commit area, its journal, and SNAP at a member (R79, R313 to R319, R336). -/

namespace Sys2Proof.Machine

/-- A unit of a commit area (R313). -/
def UNIT : Nat := 65536

/-! ## The commit area (R313, R318) -/

/-- Offsets in pooled memory of the journal header, the saved-unit bitmap and the undo copies. -/
def Journal.header (j : Journal) : Nat := j.base + (j.n + j.np) * UNIT
def Journal.bitmap (j : Journal) : Nat := j.header + UNIT
def Journal.mapLen (j : Journal) : Nat := ceilDiv (j.n + j.np) 524288 * UNIT
def Journal.undo (j : Journal) (u : Nat) : Nat := j.bitmap + j.mapLen + u * UNIT
/-- Bytes of the whole commit area from SHARD on. -/
def areaLen (n np : Nat) (jmode : Bool) : Nat :=
  (n + np + 1) * UNIT + ceilDiv (n + np) 524288 * UNIT + (if jmode then 0 else (n + np) * UNIT)

def JState.code : JState → Nat
  | .idle => 0
  | .active => 1
  | .prepared => 2
  | .restoring => 3

/-- The journal header (R318). -/
def Journal.headerBytes (j : Journal) : List Byte :=
  leBytes 2 j.st.code ++ leBytes 2 (if j.parityValid then 1 else 0) ++ leBytes 4 0 ++ leBytes 8 j.cstep.toNat ++ leBytes 4 j.ccseq.toNat ++ leBytes 4 0
    ++ leBytes 8 j.pstep.toNat ++ leBytes 8 j.saved.length ++ leBytes 24 0

def State.journal? (s : State) (comm : Nat) : Option Journal := s.journals.find? (fun j => j.comm == comm)

/-- Puts a journal in place of the one of its communicator; its header is written where it has a commit area. -/
def State.putJournal (s : State) (j : Journal) : State :=
  let s : State := { s with journals := s.journals.filter (fun x => x.comm != j.comm) ++ [j] }
  if j.n = 0 then s else s.engineWrite j.header j.headerBytes

/-- A journal of a communicator with nothing committed and no area. -/
def newJournal (comm : Nat) (jmode : Bool) : Journal :=
  { comm, st := .idle, parityValid := false, cstep := 0, ccseq := 0, pstep := 0, jmode, committed := false, base := 0, n := 0, np := 0, saved := [] }

/-- Byte k of the saved-unit bitmap (R313). -/
def Journal.mapByte (j : Journal) (k : Nat) : Byte :=
  (j.saved.filter (fun u => u / 8 == k)).foldl (fun b u => b ||| BitVec.ofNat 8 (2 ^ (u % 8))) 0

/-- Saves a unit: its contents go to its undo copy and its bitmap bit is set (R319). -/
def State.saveUnit (s : State) (j : Journal) (u : Nat) : State :=
  let j : Journal := { j with saved := j.saved ++ [u], st := if j.st = .idle then .active else j.st }
  let s := (s.pwrite (j.undo u) (s.pread (j.base + u * UNIT) UNIT)).engineWrite (j.bitmap + u / 8) [j.mapByte (u / 8)]
  (s.putJournal j).count 0x230020

/-- Clears the saved-unit bitmap. -/
def State.clearBitmap (s : State) (j : Journal) : State :=
  if j.n = 0 then s else s.engineWrite j.bitmap (List.replicate ((j.n + j.np + 7) / 8) 0)

/-! ## Background copies (R336) -/

/-- The copy of a committed step to the buddy's tier: read as one at the commit. With no READY buddy it cannot complete (R336; log entry 14). -/
def State.ckptCopy (s : State) (j : Journal) (rank : Nat) : State :=
  match s.comm j.comm with
  | none => s
  | some c =>
    if c.ckptEvery = 0 || j.cstep.toNat % c.ckptEvery != 0 || c.ranks.isEmpty then s
    else
      let obj := 2 ^ 63 + c.job * 2 ^ 20 + rank
      match (c.ranks[(rank + c.ckptStride) % c.ranks.length]?).filter (fun r => r.state == .ready && !s.lost.contains r.node) with
      | some b => s.emit (.ckptCopy b.node (BitVec.ofNat 64 obj) j.cstep (s.pread j.base (j.n * UNIT)))
      | none => s.raise c.creator ckptCopyFailed noQueue 0 obj j.cstep.toNat 0

/-! ## SNAP (R316) -/

/-- The CHUNK of SNAP's vote and of its COMMIT (DESIGN CHOICE, log entry 15). -/
def voteChunk : Nat := 2 ^ 26 - 1

def snapShard (e : Entry) : Nat := entBytes e 24 8
def snapLen (e : Entry) : Nat := entBytes e 32 8
def snapStep_ (e : Entry) : DWord := ent64 e 16

/-- SNAP's digest: the opcode and SHLEN (DESIGN CHOICE, log entry 15). -/
def snapPdig (e : Entry) : Word := crc32c (0x40 :: leSplit 8 (snapLen e))

/-- The ranks of rank r's parity group by PMEMBER, none for 0xF_FFFF (R305). -/
def Comm.group (c : Comm) (r : Nat) : List Nat :=
  match c.ranks[r]? with
  | none => []
  | some x =>
    if x.pgroup = 2 ^ 20 - 1 then []
    else
      let mine := (List.range c.ranks.length).filter (fun i => (c.ranks[i]?).elim false (fun y => y.pgroup == x.pgroup))
      (List.range mine.length).filterMap (fun m => mine.find? (fun i => (c.ranks[i]?).elim false (fun y => y.pmember == m)))

/-- The registrations bound to a rank, in ascending INDEX (R315). -/
def State.rankedKeys (s : State) (comm rank : Nat) : List (Nat × KeyEnt) :=
  s.keys.filter (fun k => k.2.state == .valid && k.2.right 7 && k.2.comm == comm && k.2.rank == rank)

/-- The rank record of a SNAP, a whole unit (R315). -/
def State.rankRecord (s : State) (comm rank : Nat) (step : DWord) : List Byte :=
  let ks := (s.rankedKeys comm rank).take 2046
  let b := leBytes 2 1 ++ leBytes 2 ks.length ++ leBytes 3 comm ++ [0] ++ leBytes 4 rank ++ leBytes 4 0 ++ leBytes 8 step.toNat ++ leBytes 40 0
    ++ (ks.map (fun k => leBytes 28 k.2.desc.toNat ++ leBytes 4 (k.1 * 4096 + k.2.gen.toNat))).flatten
  b ++ List.replicate (UNIT - b.length) 0

/-- Parity contributions of SNAP that are not acknowledged. -/
def State.snapUnacked (s : State) (c : Coll) : Bool :=
  s.xfers.any (fun x => x.comm == c.comm && x.cseq == c.cseq && x.kind == .contrib && x.chunk != voteChunk)

/-- Commits a step here: CSTEP, CCSEQ, STATE IDLE, the bitmap cleared, and the SNAP completes with OK (R316 step 7). -/
def State.commitStep (s : State) (comm rank : Nat) (step : DWord) (seq : Word) (rid : Option Nat) : State :=
  let s := match s.journal? comm with
    | some j =>
      let j := { j with st := .idle, cstep := step, ccseq := seq, committed := true, parityValid := true, saved := [] }
      ((s.clearBitmap j).putJournal j).ckptCopy j rank
    | none => s
  match rid.bind s.run? with
  | some r => s.completeWith r stOk
  | none => s

/-- SNAP sends its next unit, which has no lost line (R291, R316 step 2). -/
def State.snapSend (s : State) (r : Run) (c : Coll) : Option State :=
  if r.writes != 0 || !s.upTurn c || !s.retcRoom c.comm then none
  else (c.snapSends[c.sent]?).bind (fun x =>
    if s.lineLost (snapShard c.ins.w + x.1 * UNIT) UNIT then none
    else s.gateTxns r UNIT (some (s.sendContrib r c (c.xfer .contrib (x.1 / c.snapK) (s.pread (snapShard c.ins.w + x.1 * UNIT) UNIT) false [x.2]))))

/-- The members that contribute to this holder's stripe b, ascending, with units below n (R314). -/
def Coll.stripe (c : Coll) (b : Nat) : List Nat :=
  (List.range c.emap.length).filter (fun m => m != c.snapM && decide (unitOf m c.snapM c.snapK b < c.snapN))

/-- A contribution to a stripe is combined by XOR; it is acknowledged once the parity is written (R316 step 3). -/
def State.snapCombine (s : State) (c : Coll) : Option State :=
  c.slotChunks.findSome? (fun b => match s.slotOf c b with
    | none => none
    | some (n, y) => ((c.stripe b)[y.got]?).bind (fun m =>
        (s.arrival? c.comm c.cseq .contrib b (c.emap.getD m 0)).map (fun a =>
          s.setSlot n (some { y with bits := y.mark, acc := List.zipWith (fun (u v : DWord) => u ^^^ v) y.acc ((pieces 8 a.bytes).map (fun w => BitVec.ofNat 64 (leVal w))) }))))

/-- The parity unit of a stripe is placed: its slot is free, and its contributions are acknowledged; a second one of a member is a duplicate (R166,
R316 step 3). -/
def State.stripePlaced (s : State) (c : Coll) (n : Nat) (y : RSlot) : State :=
  let s := (s.setSlot n none).setColl { c with parity := c.parity ++ [y.chunk] }
  ((s.arrivals.filter (fun a => a.ok && a.comm == c.comm && a.cseq == c.cseq && a.kind == .contrib && a.chunk == y.chunk)).foldl
    (fun (x : List Nat × State) a =>
      let s := if x.1.contains a.srank then x.2.count 0x260030 else x.2
      (a.srank :: x.1, (s.ackArrival a).dropArrival a)) ([], s)).2

/-- A full stripe: the new parity unit is written, and the stripe is over at once where the write waits for nothing (R316 step 3). -/
def State.finishStripe (s : State) (c : Coll) (n : Nat) (y : RSlot) : State :=
  if y.written || decide (y.got < (c.stripe y.chunk).length) then s
  else
    let off := snapShard c.ins.w + (c.snapN + y.chunk) * UNIT
    let w := s.poolWrite off ((y.acc.map (fun v => leSplit 8 v.toNat)).flatten) (.run c.rid wOther)
    if w.1 then w.2.stripePlaced c n y
    else (w.2.addWrites c.rid 1).setSlot n (some { y with written := true })

/-- The stripes whose parity waited are over once every write of the SNAP is placed. -/
def State.snapRetire (s : State) (r : Run) (c : Coll) : Option State :=
  if r.writes != 0 then none
  else c.slotChunks.findSome? (fun b => match s.slotOf c b with
    | some (n, y) => if y.written then some (s.stripePlaced c n y) else none
    | none => none)

/-- This member is PREPARED (R316 step 4). -/
def State.snapPrepare (s : State) (r : Run) (c : Coll) : Option State :=
  if c.prepared || decide (c.sent < c.snapSends.length) || s.snapUnacked c || decide (c.parity.length < c.snapNp) || r.writes != 0 then none
  else
    let s := s.setColl { c with prepared := true }
    some (match s.journal? c.comm with
      | some j => s.putJournal { j with st := .prepared, pstep := snapStep_ c.ins.w }
      | none => s)

/-- The root commits the step and sends COMMIT down (R316 steps 6 and 7). -/
def State.snapDecide (s : State) (c : Coll) : State :=
  let s := if (c.kids 0).isEmpty then s else s.keepXfer (c.xfer .result voteChunk [] false (c.kids 0))
  s.commitStep c.comm c.rank (snapStep_ c.ins.w) c.cseq (some c.rid)

/-- The vote of this position, once it and its children are PREPARED (R316 step 5). granting marks a vote sent. -/
def State.snapVote (s : State) (c : Coll) : Option State :=
  if !c.prepared || c.granting || !(c.kids 0).all (fun k => c.votes.contains k) then none
  else
    let c : Coll := { c with granting := true }
    let s := s.setColl c
    some (if c.pos 0 = 0 then s.snapDecide c else s.keepXfer (c.xfer .contrib voteChunk [] false [c.parent 0]))

/-- Votes and COMMIT of other members (R316). -/
def State.snapArrivals (s : State) (c : Coll) : Option State :=
  (s.arrivals.find? (fun a => a.ok && a.comm == c.comm && a.cseq == c.cseq && a.op == 0x40
      && ((a.chunk == voteChunk) || (a.kind == .contrib && c.parity.contains a.chunk)))).map (fun a =>
    let s := (s.ackArrival a).dropArrival a
    if a.chunk != voteChunk then s.count 0x260030
    else if a.kind = .contrib then (if c.votes.contains a.srank then s.count 0x260030 else s.setColl { c with votes := c.votes ++ [a.srank] })
    else s.snapDecide c)

/-- What SNAP does next, if anything; members whose SHLEN differs end with CHECK_MISMATCH (R79). -/
def State.snapStep (s : State) (r : Run) : Option State :=
  match s.coll? r.rid with
  | none => none
  | some c => s.digestStep r c <|> s.staleStep c <|> s.snapArrivals c <|> s.snapSend r c <|> s.snapCombine c <|> s.snapRetire r c <|> s.snapPrepare r c <|> s.snapVote c

/-! ## SLOT_FINISH (R160) -/

/-- A full slot finishes. -/
def State.slotFinish (s : State) (n : Nat) : State :=
  match Tab.get (fun _ => none) s.slots n with
  | none => s
  | some y => match s.collAt y.comm y.cseq with
    | none => s
    | some c =>
      if c.op == 0x40 then s.finishStripe c n y
      else match s.run? c.rid with
        | none => s
        | some r => if y.got < c.slotTotal y.chunk || (c.op == 0x36 && !c.grantsIn) then s else s.finishSlot r c n y

end Sys2Proof.Machine
end

