-- ==== Sys2Proof/Machine/Setup.lean ====
section
/-! DEFINITION. Starting the collectives and SNAP, and the set-up and integrity instructions: their decode checks, their reads and their effects
(R67 to R73, R77 to R85, R305 to R308, R394 to R398). -/

namespace Sys2Proof.Machine

/-! ## Reading operands -/

/-- Reads more operands into further buffers of a run, and holds others that it will write, so that their keys stay in use (R132). -/
def State.readMore (s : State) (rid : Nat) (reads keeps : List Opnd) : State :=
  let s := reads.foldl (fun s o => match s.run? rid with
    | none => s
    | some r =>
      let d := s.readOpnd (s.runFunc r) (s.runPasid r) o (.run rid r.bufs.length)
      d.2.2.setRun { r with bufs := r.bufs ++ [(o, d.1, d.2.1)] }) s
  match s.run? rid with
  | none => s
  | some r => s.setRun { r with bufs := r.bufs ++ keeps.map (fun o => (o, [], 0)) }

/-! ## Decode checks of the collectives (R67 to R72, R76, R77, R152) -/

def isSb (c : Nat) : Bool := decide (8 ≤ c ∧ c ≤ 10)
def isIntF (c : Nat) : Bool := decide (5 ≤ c ∧ c ≤ 7)

/-- Fields of the entry and of the extension that an opcode uses (R67, R70, R75, R76, R78). -/
def coFields (op : BitVec 8) : List (Nat × Nat) :=
  [(17, 10), (32, 24), (64, 32), (96, 32), (128, 64), (192, 64), (256, 55), (320, 32)]
    ++ (if hasAux op then [(27, 2), (384, 32)] else []) ++ (if isEd op then [(416, 32), (448, 16), (464, 8), (480, 32)] else [])
def coExtFields (op : BitVec 8) : List (Nat × Nat) :=
  [(256, 64), (320, 32), (352, 32), (384, 64)] ++ (if hasAux op then [(0, 64), (64, 64), (128, 64), (192, 32)] else [])
    ++ (if op == 0x37 then [(0, 64), (64, 64), (128, 32), (160, 6), (168, 3), (192, 32), (448, 64)] else [])

/-- The decode reasons of a local operand that is given. -/
def opndReasons (c : Nat) (o : Opnd) : List Nat := localReasons c o.addr o.key o.len

/-- The rules of R71 and R152 on OP, formats, EF and sizes, for P ranks. -/
def coRules (i : Fetched) (op : BitVec 8) (p : Nat) : List Nat :=
  let e := i.w
  let three := op == 0x33 || op == 0x34
  let blkd := op == 0x30 || op == 0x31 || op == 0x33 || op == 0x37
  reasons [(coOp e != 0 && op != 0x30 && op != 0x32, 3), (op == 0x31 && coWfmt e != coIfmt e, 3),
    (three && (coIfmt e != coWfmt e || coWfmt e != coOfmt e), 3), (coEf e && (op == 0x31 || three || isEd op), 4),
    (blkd && p != 0 && coCount e % p != 0, 4),
    (isSb (coWfmt e) && (op == 0x30 || op == 0x31 || op == 0x37) && coCount e / p % 32 != 0, 4),
    (isSb (coWfmt e) && op == 0x32 && coCount e % 32 != 0, 4),
    (isEd op && (coCount e != coT e * coH e || decide (coH e < 256) || (isSb (coWfmt e) && coH e % 32 != 0) || coE e == 0 || coK e == 0
      || decide (8 < coK e)), 4),
    (op == 0x37 && (rugNstr i == 0 || decide (6 < rugNstr i)), 4), (op == 0x37 && decide (2 ^ 40 ≤ rugShard i), 2)]

/-- A slot that has changed hands and that instructions of its former function still use: to any other run it is empty (R195, R376, R394). -/
def State.slotEmptied (s : State) (isKey : Bool) (n rid : Nat) : Bool :=
  s.slotWaits.any (fun w => w.1 == isKey && w.2.1 == n && !w.2.2.contains rid)

/-- The update program in function-relative slot n for a run, empty where there is none (R195). -/
def State.runImage (s : State) (r : Run) (n : Nat) : List Byte :=
  match s.progSlot (s.runFunc r) n with
  | some k => if s.slotEmptied false k r.rid then [] else s.progAt k
  | none => []
def State.rugImage (s : State) (r : Run) : List Byte := s.runImage r (rugSlot r.ins)

/-- SADDR and DADDR overlap where they may not (R71). -/
def coOverlap (e : Entry) (op : BitVec 8) (p l : Nat) : Bool :=
  overlaps (coSrc e op p l) (coDst e op p l) && !((op == 0x32 || op == 0x37) && coSaddr e == coDaddr e)


/-- Unknown handle, no rank here, a CSEQ that is 0 or does not follow (R72). -/
def State.seqReasons (s : State) (g c : Nat) (seq : Word) : List Nat :=
  match s.ownComm g c with
  | none => [9]
  | some x => reasons [((s.rankHere c).isNone, 9), (seq == 0 || !seqFollows x.seq seq, 0xB)]

/-- Every reason to reject a collective at decode; of an unknown handle no rule applies that needs P, which is 0 then. A reserved space is one whatever
MKEN and EF say (R6), and RUG's NSTR is compared with the program in its slot (R201). -/
def State.coReasons (s : State) (r : Run) : List Nat :=
  let i := r.ins
  let e := i.w
  let op := entOpcode e
  let p := (s.ownComm r.g (coComm e)).elim 0 (fun c => c.ranks.length)
  let f := fun (c : Nat) => decide (0xA < c)
  s.headReasons r.g i (hasAux op || op == 0x37 || coMken e || coEf e)
    ++ reasons [(resvSet e (coFields op) || (coExt i &&& ~~~ fieldMask (coExtFields op)) != 0
        || (!coMken e && (coMkaddr i != 0 || coMkkey i != 0)) || (!coEf e && (coResaddr i != 0 || coReskey i != 0)), 2),
      (f (coIfmt e) || f (coWfmt e) || f (coOfmt e) || decide (5 < coOp e), 3), (entOpx e 4 2 == 3 || entOpx e 6 2 == 3, 3),
      (op == 0x37 && !(s.rugImage r).isEmpty && imgNstr (s.rugImage r) != rugNstr i, 4)]
    ++ s.seqReasons r.g (coComm e) (coSeq e)
    ++ coRules i op p
    ++ (if isEd op then localReasons (entOpx e 0 2) (coSaddr e) (coSkey e) 0 ++ localReasons (entOpx e 2 2) (coDaddr e) (coDkey e) 0
          ++ (if op == 0x35 then opndReasons (entOpx e 0 2) (coSrc e op p 0) ++ sizedReasons (entOpx e 0 2) (coSaddr e) (coSrc e op p 0).len
            else opndReasons (entOpx e 2 2) (coDst e op p 0) ++ sizedReasons (entOpx e 2 2) (coDaddr e) (coDst e op p 0).len)
        else opndReasons (entOpx e 0 2) (coSrc e op p 0) ++ opndReasons (entOpx e 2 2) (coDst e op p 0)
          ++ reasons [(coOverlap e op p 0, 4)])
    ++ (if coMken e then localReasons (entOpx e 4 2) (coMkaddr i) (coMkkey i) (if isEd op then 0 else 8 * coMarks e op p 0) else [])
    ++ (if coEf e then opndReasons (entOpx e 6 2) (coRes i) else [])
    ++ (coArrays i op p).flatMap (fun o => opndReasons (entOpx e 10 2) o ++ sizedReasons (entOpx e 10 2) o.addr o.len)
    ++ (if op == 0x34 then sizedReasons (entOpx e 2 2) (coDaddr e) (coDst e op p 0).len else [])

/-- Combinations of defined formats that the node does not support (R69). -/
def coUnsupported (e : Entry) (op : BitVec 8) : Bool :=
  let i := coIfmt e
  let w := coWfmt e
  let o := coOfmt e
  let ints := [isIntF i, isIntF w, isIntF o]
  isSb i || isSb o || (isSb w && isIntF i) || (decide (3 ≤ coOp e) && ints.any (!·)) || (ints.any id && ints.any (!·))
    || (coEf e && !(isSb w || w == 3 || w == 4)) || ((op == 0x37 || op == 0x36) && ints.any id)

/-! ## Starting a collective or SNAP (R72, R152, R311, R322) -/

def State.job (s : State) (j : Nat) : Job := Tab.get (fun _ => {}) s.jobs j
def State.setJob (s : State) (j : Nat) (x : Job) : State := { s with jobs := Tab.put (fun _ => {}) s.jobs j x }

/-- The communicators of a job that were created here. -/
def State.jobComms (s : State) (j : Nat) : List (Nat × Comm) :=
  s.comms.filterMap (fun x => x.2.bind (fun c => if c.job = j then some (x.1, c) else none))
/-- The job has an ABANDONED rank (R311). -/
def State.jobAbandoned (s : State) (j : Nat) : Bool := (s.jobComms j).any (fun x => x.2.ranks.any (fun r => r.state == .abandoned))

/-- The instruction's turn on its communicator has come: the next CSEQ, or any that follows after a frog; a READY rank; fewer than 64 in progress;
no frog (R72, R152, R322, R324). -/
def State.turnOn (s : State) (c : Nat) (x : Comm) (seq : Word) : Bool :=
  s.jobAbandoned x.job
    || ((x.anySeq || advances x.seq seq == 1)
      && (s.rankHere c).elim false (fun r => (x.ranks[r]?).elim false (fun k => k.state == .ready))
      && decide ((s.colls.filter (fun k => k.comm == c)).length < 64) && (s.job x.job).frog.isNone)

/-- A collective that is well formed waits for its turn. -/
def State.collReady (g : Nat) (s : State) (i : Fetched) : Bool :=
  let r := s.newRun g i 0
  i.frogged || !(s.coReasons r).isEmpty || coUnsupported i.w (entOpcode i.w)
    || (s.ownComm g (coComm i.w)).elim true (fun x => s.turnOn (coComm i.w) x (coSeq i.w))

/-- A fresh collective of a run. -/
def State.newColl (s : State) (r : Run) (comm : Nat) (x : Comm) : Coll :=
  { rid := r.rid, comm, cseq := coSeq r.ins.w, op := entOpcode r.ins.w, ins := r.ins, rank := (s.rankHere comm).getD 0,
    nodes := x.ranks.map (fun k => k.node), map := x.digest, mapCmp := x.fresh && entOpcode r.ins.w != 0x40,
    pdig := 0, assign := [], emap := [], sendCounts := [], sent := 0, granted := 0,
    partials := [], counts := [], grants := [], granting := false, grantsIn := false, recv := [], wr := [], done := [], arith := [],
    excs := [], parity := [], votes := [], prepared := false, hold := [], wrote := 0, prog := [] }

/-- The CSEQ is admitted and the collective is in progress (R72, R154). -/
def State.admitColl (s : State) (r : Run) (comm : Nat) (x : Comm) : State :=
  let k := s.newColl r comm x
  { s.setComm comm (some { x with seq := coSeq r.ins.w, anySeq := false, fresh := x.fresh && k.op == 0x40 }) with colls := s.colls ++ [k] }

/-- The range of SHKEY over RUG's streams (R201). -/
def rugStreams (i : Fetched) (img : List Byte) (b : Nat) : Opnd :=
  let z := (streamFmt img (rugNstr i - 1)).size
  { space := .pool, addr := BitVec.ofNat 64 (rugShard i), len := (rugNstr i - 1) * rugStride i + b * z, key := ent32 (coExt i) 16 }

/-- Translates a HOSTVA operand that the run reads or writes later (R77). -/
def State.probeOpnd (s : State) (rid : Nat) (o : Opnd) (write : Bool) : State :=
  match o.space, s.run? rid with
  | .hostva, some r =>
    let w := s.xlateAll (o.len / 4096 + 2) (s.runFunc r) (s.runPasid r) o.addr o.len write (.run rid wOther)
    (w.2.run? rid).elim w.2 (fun r => w.2.setRun { r with writes := r.writes + w.1 })
  | _, _ => s

/-- The operands whose keys a collective checks before its exchange, with L of R153 and, for RUG, the program and B. -/
def collOpnds (i : Fetched) (op : BitVec 8) (p l : Nat) (img : List Byte) (b : Nat) : List Opnd :=
  [coSrc i.w op p l] ++ (if coEf i.w then [coRes i] else []) ++ [coDst i.w op p l] ++ (if coMken i.w then [coMk i op p l] else [])
    ++ coArrays i op p ++ (if op == 0x37 then [rugStreams i img b] else [])

/-- The last checks of a collective: its keys, RUG's program, and for DISP and COMB the translations of SADDR and DADDR (R74, R77 step 5, R78, R201).
The source itself is read chunk by chunk (R154). -/
def State.collRead (s : State) (r : Run) (c : Coll) : State :=
  let i := r.ins
  let img := s.rugImage r
  let os := collOpnds i c.op c.p c.ell img c.blk
  if c.op == 0x37 && img.isEmpty then s.completeWith r stAccessLocal
  else s.orLocalFail r os (fun s =>
    if c.op == 0x37 && crc32c img != ent32 (coExt i) 24 then s.completeWith r stMismatch
    else
      let s := (s.setColl { c with prog := img, opnds := os }).setRun { r with phase := .reading, aux := 1 }
      if isEd c.op then (s.probeOpnd r.rid c.srcOpnd false).probeOpnd r.rid (coDst i.w c.op c.p c.ell) true else s)

/-- A collective starts: malformed, unsupported, FROGGED for an ABANDONED rank, or admitted (R47, R69, R72, R311). -/
def State.startColl (s : State) (r : Run) : State :=
  let i := r.ins
  let e := i.w
  let r : Run := { r with slot := if entOpcode e == 0x37 then (s.progSlot (s.ownerOf r.g) (rugSlot i)).getD 0 else 0 }
  (s.chargeStart r.g).orMalformed r (s.coReasons r) (fun s =>
    if coUnsupported e (entOpcode e) then s.completeWith r stFormat
    else match s.ownComm r.g (coComm e) with
      | none => s
      | some x =>
        if i.frogged || s.jobAbandoned x.job then s.completeWith r stFrogged
        else
          let c := s.newColl r (coComm e) x
          let s := s.admitColl r (coComm e) x
          let a := coArrays i c.op c.p
          if isEd c.op then
            s.orLocalFail r a (fun s =>
              ((s.setRun { r with phase := .reading, aux := 0 }).readMore r.rid (a.take 2) (a.drop 2)).probeOpnd r.rid (coAux i 2 ((coT e * coK e + 7) / 8)) true)
          else if c.op == 0x34 then
            s.orLocalFail r (a.take 1) (fun s => (s.setRun { r with phase := .reading, aux := 0 }).readMore r.rid (a.take 1) [])
          else s.collRead r c)

/-- Entries of the assignment array (R75). -/
def parseAssign (bs : List Byte) : List (Nat × Word) := (pieces 8 bs).map (fun b => (leVal (b.take 4), BitVec.ofNat 32 (leVal (b.drop 4))))

/-- The CHUNK of a NAK that tells a rank map's digest, which stands in TCRC (DESIGN CHOICE, log entry 21). -/
def mapChunk : Nat := 2 ^ 26 - 1

/-- Tells a rank the digest of this member's map for a collective; reply says that this member does not compare (R85, log entry 21). -/
def State.tellMap (s : State) (comm : Nat) (cseq : Word) (op : BitVec 8) (q node : Nat) (reply : Bool) : State :=
  s.sendCollF node (some q) .nak { headF comm cseq op mapChunk ((s.rankHereAt comm cseq).getD 0) 0 with
    exc := reply, tcrc := (s.comm comm).elim 0 (fun x => x.digestAt cseq) }

/-- The collective begins its exchange: its digest, the digest of its map where it compares it, and its count messages (R73, R85, R158, R168, R170). -/
def State.collBegin (s : State) (r : Run) (c : Coll) : State :=
  let c : Coll := { c with pdig := pdigOf c.ins c.op c.emap }
  let c : Coll := if c.owners.contains c.rank then { c with counts := [(c.rank, c.countsFor c.rank)] } else c
  let s := (s.setColl c).setRun { r with phase := .coll }
  let told := fun (q : Nat) => s.mapDigs.any (fun d => d.1 == c.comm && d.2.1 == c.cseq && d.2.2.1 == q)
  let s := (c.nodes.zipIdx.filter (fun n => n.2 != c.rank && (c.mapCmp || told n.2))).foldl
    (fun s n => s.tellMap c.comm c.cseq c.op n.2 n.1 (!c.mapCmp)) s
  ((c.owners).filter (· != c.rank)).foldl (fun s o =>
    s.keepXfer (c.xfer .count countChunk (((c.countsFor o).map (leSplit 4)).flatten) false [o])) s

/-- The arrays of DISP and COMB have been read: their contents and the ranges that L sizes are checked (R75, R77 steps 3 and 4). -/
def State.arraysRead (s : State) (r : Run) (c : Coll) : State :=
  let e := r.ins.w
  let assign := parseAssign (r.buf 0)
  let emap := words32 (r.buf 1)
  let c : Coll := { c with assign, emap }
  let dst := coDst e c.op c.p c.ell
  if assign.any (fun a => decide (coE e ≤ a.1)) || emap.any (fun q => decide (c.p ≤ q)) then s.completeWith r stMalformed 4
  else if !(opndReasons (entOpx e 0 2) c.srcOpnd ++ sizedReasons (entOpx e 0 2) c.srcOpnd.addr c.srcOpnd.len ++ opndReasons (entOpx e 2 2) dst
      ++ sizedReasons (entOpx e 2 2) dst.addr dst.len
      ++ (if coMken e then opndReasons (entOpx e 4 2) (coMk r.ins c.op c.p c.ell) else [])).isEmpty || coOverlap e c.op c.p c.ell then
    s.completeWith r stMalformed 4
  else (s.setColl c).collRead r c

/-- The reads of a collective before its exchange are over: arrays, or A2AV's send counts, then the translations (R75 to R77). -/
def State.collReadOver (s : State) (r : Run) : State :=
  match s.coll? r.rid with
  | none => s
  | some c =>
    if r.aux = 1 then s.collBegin r c
    else if isEd c.op then s.arraysRead r c
    else
      let counts := words32 (r.buf 0)
      if counts.sum != coCount r.ins.w then s.completeWith r stMalformed 4 else s.collRead r { c with sendCounts := counts }

/-! ## SNAP (R79, R313, R315 to R317) -/

/-- n and n_p of a commit area (R313). -/
def snapUnits (e : Entry) (k : Nat) : Nat × Nat :=
  let n := snapLen e / UNIT + 1
  (n, if k = 0 then 0 else ceilDiv n k)

/-- k of a rank's group: its size less 1, 0 where it has none. -/
def Comm.groupK (c : Comm) (r : Nat) : Nat := (c.group r).length - 1

def snapArea (e : Entry) (k : Nat) (jmode : Bool) : Opnd :=
  { space := .pool, addr := ent64 e 24, len := areaLen (snapUnits e k).1 (snapUnits e k).2 jmode, key := ent32 e 12 }

def State.snapReasons (s : State) (r : Run) : List Nat :=
  let e := r.ins.w
  s.headReasons r.g r.ins false
    ++ reasons [(resvSet e [(32, 24), (64, 32), (96, 32), (128, 64), (192, 64), (256, 64)], 2), (snapLen e == 0 || snapLen e % UNIT != 0, 4)]
    ++ localReasons 2 (ent64 e 24) (ent32 e 12) (snapLen e) ++ s.seqReasons r.g (coComm e) (coSeq e)
    ++ (match s.ownComm r.g (coComm e) with
        | none => []
        | some x => reasons [((s.job x.job).commit.elim false (fun c => c != coComm e), 9),
            (snapStep_ e != ((s.journal? (coComm e)).elim 0 (fun j => j.cstep)) + 1, 0xB)])

def State.snapReady (g : Nat) (s : State) (i : Fetched) : Bool :=
  i.frogged || !(s.snapReasons (s.newRun g i 0)).isEmpty || (s.ownComm g (coComm i.w)).elim true (fun x => s.turnOn (coComm i.w) x (coSeq i.w))

/-- The journal of a SNAP's commit area: what was saved is kept where the area is the same (R313, R319). -/
def State.snapJournal (s : State) (e : Entry) (k : Nat) (jmode : Bool) : Journal :=
  let j := (s.journal? (coComm e)).getD (newJournal (coComm e) jmode)
  let u := snapUnits e k
  if j.base = snapShard e ∧ j.n = u.1 ∧ j.np = u.2 then j
  else { j with base := snapShard e, n := u.1, np := u.2, jmode, saved := [] }

/-- SNAP starts: the commit communicator is recorded and the rank record is written (R315 to R317). -/
def State.startSnap (s : State) (r : Run) : State :=
  let e := r.ins.w
  let comm := coComm e
  (s.chargeStart r.g).orMalformed r (s.snapReasons r) (fun s => match s.ownComm r.g comm with
    | none => s
    | some x =>
      if r.ins.frogged || s.jobAbandoned x.job then s.completeWith r stFrogged
      else
        let c := s.newColl r comm x
        let k := x.groupK c.rank
        let u := snapUnits e k
        let grp := if k = 0 then [] else x.group c.rank
        let c : Coll := { c with pdig := snapPdig e, emap := grp, sendCounts := [(grp.findIdx? (· == c.rank)).getD 0, k, u.1, u.2] }
        let s := s.admitColl r comm x
        let s := (s.setColl c).setJob x.job { s.job x.job with commit := some comm }
        let area := snapArea e k x.jmode
        s.orLocalFail r [area] (fun s =>
          let j := s.snapJournal e k x.jmode
          let s := s.putJournal { j with st := if j.st = .idle then .active else j.st }
          let n := (s.rankedKeys comm c.rank).length
          let s := if n > 2046 then s.raise (s.ownerOf r.g) rankRecordFull (s.relQ r.g) r.ins.pos comm c.rank (n - 2046) else s
          let w := s.poolWrite (snapShard e + snapLen e) (s.rankRecord comm c.rank (snapStep_ e)) (.run r.rid wOther)
          w.2.setRun { r with phase := .coll, writes := if w.1 then 0 else 1, bufs := [(area, [], 0)] }))

/-! ## PERS (R80, R334, R335) -/

/-- The object of a function, and its replacement. -/
def State.tobj? (s : State) (f obj : Nat) : Option TObj := s.tier.find? (fun o => o.obj == obj && o.owner == f)
def State.setTobj (s : State) (o : TObj) : State :=
  { s with tier := if (s.tobj? o.owner o.obj).isSome then s.tier.map (fun x => if x.obj == o.obj && x.owner == o.owner then o else x) else s.tier ++ [o] }

def TObj.bytes (o : TObj) : Nat :=
  o.cur.elim 0 (fun v => v.data.length) + o.prev.elim 0 (fun v => v.data.length) + (o.writing.map (fun w => w.2.data.length)).sum
/-- Bytes charged to a function's checkpoint quota, and held in all (R335). -/
def State.tierOf (s : State) (f : Nat) : Nat := ((s.tier.filter (fun o => o.owner == f)).map TObj.bytes).sum
def State.tierAll (s : State) : Nat := (s.tier.map TObj.bytes).sum

def persOpnd (e : Entry) : Opnd := { space := .pool, addr := entQ1 e, len := entBytes e 16 8, key := entW1 e }

def State.persReasons (s : State) (r : Run) : List Nat :=
  let e := r.ins.w
  let len := entBytes e 16 8
  let obj := entBytes e 24 8
  s.headReasons r.g r.ins false
    ++ reasons [(resvSet e [(32, 32), (64, 64), (128, 64), (192, 64)], 2), (len == 0 || len % 4096 != 0 || decide (2 ^ 40 < len), 4),
        (obj == 0 || decide (2 ^ 63 ≤ obj), 4)]
    ++ localReasons 2 (entQ1 e) (entW1 e) len

/-- PERS has its source: it starts a new version, and waits until that is durable (R80, R335). -/
def State.persVersion (s : State) (r : Run) : State :=
  let obj := entBytes r.ins.w 24 8
  let f := s.ownerOf r.g
  let o := (s.tobj? f obj).getD { obj, owner := f, cur := none, prev := none, writing := [] }
  let v : TVer := { step := 0, data := r.buf 0 }
  ((s.setTobj { o with writing := o.writing ++ [(r.rid, v)] }).count 0x230038 (r.buf 0).length).setRun
    { r with phase := .tier, bufs := [(persOpnd r.ins.w, [], 0)] }

/-- PERS reads its source and starts a new version (R80, R335); PERS_DURABLE ends it. An OBJ out of its range has DETAIL 0x04, and INFO of a PERS that
fails its quota is SRC (DESIGN CHOICE, log entry 68). -/
def State.startPers (s : State) (r : Run) : State :=
  let e := r.ins.w
  let len := entBytes e 16 8
  let f := s.ownerOf r.g
  (s.chargeStart r.g).orMalformed r (s.persReasons r)
    (fun s => s.orLocalFail r [persOpnd e] (fun s =>
      if s.tierOf f + len > s.grant f 0x28 0 14 * 2 ^ 30 ∨ s.tierAll + len > s.fld 0x18000C 0 16 * 2 ^ 30 then s.completeWith r stAccessLocal 0 (entQ1 e)
      else
        let d := s.readOpnd f (s.runPasid r) (persOpnd e) (.run r.rid 0)
        let r := { r with phase := .reading, bufs := [(persOpnd e, d.1, d.2.1)] }
        if d.2.1 = 0 then d.2.2.persVersion r else d.2.2.setRun r))

/-! ## DIGEST and TAG (R81, R83, R394 to R398) -/

def digestSrc (e : Entry) : Opnd := opnd (entOpx e 0 2) (entQ1 e) (entW1 e) (entBytes e 16 8)
def digestOut (e : Entry) : Opnd := opnd (entOpx e 10 2) (ent64 e 24) (ent32 e 32) 64

def State.digestReasons (s : State) (r : Run) : List Nat :=
  let e := r.ins.w
  s.headReasons r.g r.ins false
    ++ reasons [(resvSet e [(17, 12), (32, 32), (64, 64), (128, 64), (192, 64), (256, 32), (320, 64)], 2), (decide (2 ^ 40 < entBytes e 16 8), 4),
        (decide (8 < entOpx e 2 4), 4), (decide (10 < entOpx e 6 4), 3), (((leBytes 8 (entBytes e 40 8)).drop (entOpx e 2 4)).any (· != 0), 2)]
    ++ opndReasons (entOpx e 0 2) (digestSrc e) ++ opndReasons (entOpx e 10 2) (digestOut e)

def State.startDigest (s : State) (r : Run) : State :=
  let e := r.ins.w
  (s.chargeStart r.g).orMalformed r (s.digestReasons r)
    (fun s => s.orLocalFail r [digestSrc e, digestOut e] (fun s =>
      (s.setRun { r with phase := .reading }).readMore r.rid [digestSrc e] [digestOut e]))

/-- Writes the output of a run and waits for its placing; INFO counts the bytes read (DESIGN CHOICE, log entry 46). -/
def State.placeOut (s : State) (r : Run) (o : Opnd) (bs : List Byte) (result : DWord) : State :=
  let w := s.writeLocal (s.runFunc r) (s.runPasid r) o.space o.addr bs (.run r.rid 1)
  w.2.setRun { r with phase := .placing, writes := w.1, result, info := BitVec.ofNat 64 (r.buf 0).length }

def State.digestOver (s : State) (r : Run) : State :=
  let e := r.ins.w
  let d := parallelHash256 (r.buf 0) (2 ^ (entOpx e 6 4 + 10)) ((leBytes 8 (entBytes e 40 8)).take (entOpx e 2 4))
  (s.count 0x250008 (r.buf 0).length).placeOut r (digestOut e) d (BitVec.ofNat 64 (leVal (d.take 8)))

/-- The key slot of a function, none outside its grant (R83, R373). -/
def State.kslotOf (s : State) (f n : Nat) : Option Nat := if n < s.grant f 0x24 8 9 then some (s.grant f 0x24 0 8 + n) else none
def State.kslot (s : State) (n : Nat) : KSlot := Tab.get (fun _ => {}) s.kslots n
def State.setKslot (s : State) (n : Nat) (k : KSlot) : State := { s with kslots := Tab.put (fun _ => {}) s.kslots n k }

def tagLen (e : Entry) : Nat := if entOpx e 10 1 = 1 then 64 else 32
def tagSrc (e : Entry) : Opnd := opnd (entOpx e 8 2) (entQ1 e) (entW1 e) (entBytes e 16 8)
def tagOut (e : Entry) : Opnd := opnd (entOpx e 12 2) (ent64 e 24) (ent32 e 32) (tagLen e)
def tagCmp (e : Entry) : Bool := entOpx e 11 1 == 1

def State.tagReasons (s : State) (r : Run) : List Nat :=
  let e := r.ins.w
  s.headReasons r.g r.ins false
    ++ reasons [(resvSet e [(17, 14), (32, 32), (64, 64), (128, 64), (192, 64), (256, 32)], 2), (decide (2 ^ 40 < entBytes e 16 8), 4)]
    ++ opndReasons (entOpx e 8 2) (tagSrc e) ++ opndReasons (entOpx e 12 2) (tagOut e)

/-- TAG starts; upset is what will go wrong: 1 the first run, 2 both runs, 3 the compare results, 4 a copy of the key (R394, R398). -/
def State.startTag (s : State) (upset : Nat) (r : Run) : State :=
  let e := r.ins.w
  let f := s.ownerOf r.g
  (s.chargeStart r.g).orMalformed r (s.tagReasons r)
    (fun s => match s.kslotOf f (entOpx e 0 8) with
      | none => s.completeWith r stAccessLocal
      | some n =>
        if s.kslot n = {} ∨ s.slotEmptied true n r.rid = true then s.completeWith r stAccessLocal
        else if upset = 4 then
          (((s.setKslot n {}).raise f keySlotLost noQueue 0 (entOpx e 0 8) 0 0).count 0x250050).completeWith r stAccessLocal
        else s.orLocalFail r [tagSrc e, tagOut e] (fun s =>
          (s.setRun { r with phase := .reading, aux := upset, slot := n }).readMore r.rid (tagSrc e :: (if tagCmp e then [tagOut e] else []))
            (if tagCmp e then [] else [tagOut e])))

/-- The tag of a key copy over the source. -/
def tagValue (e : Entry) (key bs : List Byte) : List Byte := kmac256 key bs (tagLen e) (ascii "QN4096TAG")

/-- TAG has read its source: both instances agree, or it fails (R398). -/
def State.tagOver (s : State) (r : Run) : State :=
  let e := r.ins.w
  let f := s.runFunc r
  let k := s.kslot r.slot
  let a := tagValue e k.a (r.buf 0)
  let s := s.count 0x250010 (r.buf 0).length
  let s := if r.aux = 1 ∨ r.aux = 2 then s.count 0x250018 else s
  let why := if r.aux = 2 ∨ a ≠ tagValue e k.b (r.buf 0) then 1 else if r.aux = 3 ∧ tagCmp e then 2 else 0
  if why ≠ 0 then ((s.raise 0 keyedCheckDisagree (s.relQ r.g) r.ins.pos f (entOpx e 0 8) why).count 0x250020).completeWith r stMismatch
  else if tagCmp e then (if a = r.buf 1 then s.completeWith r stOk else s.completeWith r stMismatch)
  else s.placeOut r (tagOut e) a 0

/-! ## UPROG (R84, R195, R199) -/

def uprogSrc (e : Entry) : Opnd := opnd (entOpx e 6 2) (entQ1 e) (entW1 e) (entBytes e 16 4)

/-- LEN is one that some NOPS of R196 gives. -/
def uprogLenOk (n : Nat) : Bool := decide (52 ≤ n) && decide (n ≤ 176) && n % 4 == 0

def State.uprogReasons (s : State) (r : Run) : List Nat :=
  let e := r.ins.w
  s.headReasons r.g r.ins false ++ reasons [(resvSet e [(17, 8), (32, 32), (64, 64), (128, 32)], 2), (!uprogLenOk (entBytes e 16 4), 4)]
    ++ opndReasons (entOpx e 6 2) (uprogSrc e)

/-- UPROG reads its image, whose rules stand before the grant of its slot (R88, R195, R199); aux 1 says that the slot lies outside the grant. -/
def State.startUprog (s : State) (r : Run) : State :=
  let e := r.ins.w
  let n := s.progSlot (s.ownerOf r.g) (entOpx e 0 6)
  (s.chargeStart r.g).orMalformed r (s.uprogReasons r) (fun s => s.orLocalFail r [uprogSrc e] (fun s =>
    (s.setRun { r with phase := .reading, slot := n.getD 0, aux := if n.isSome then 0 else 1 }).readMore r.rid [uprogSrc e] []))

/-- A RUG that started before a run and names its slot is incomplete (R84). -/
def State.rugBefore (s : State) (r : Run) : Bool :=
  s.runs.any (fun x => decide (x.rid < r.rid) && entOpcode x.ins.w == 0x37 && x.slot == r.slot)

/-- The image has been read: refused, or loaded once no RUG that started before, and no instruction of a former grantee, uses the slot (R84, R199, R376). -/
def State.uprogOver (s : State) (r : Run) : Option State :=
  let img := r.buf 0
  if !imgOk img img.length then some (s.completeWith r stMalformed 4)
  else if r.aux = 1 then some (s.completeWith r stAccessLocal)
  else if s.rugBefore r || s.slotEmptied false r.slot r.rid then none
  else
    some (({ s with progs := Tab.put (fun _ => []) s.progs r.slot img } : State).complete { r with
      result := (crc32c img).setWidth 64, info := BitVec.ofNat 64 img.length })

/-! ## COMM (R85, R149, R152, R305 to R308) -/

def commP (e : Entry) : Nat := entBytes e 20 4
def commMap (e : Entry) (len : Nat) : Opnd := opnd (entOpx e 2 2) (entQ1 e) (ent32 e 16) len

/-- Fields of a rank map (R305). -/
def mapNum (bs : List Byte) (k n : Nat) : Nat := leVal ((bs.drop k).take n)
def mapSpares (bs : List Byte) : Nat := mapNum bs 8 2
def mapLen (p nspare : Nat) : Nat := 64 + 8 * p + 4 * nspare

def mapRank (bs : List Byte) (r : Nat) : Rank :=
  let v := mapNum bs (64 + 8 * r) 8
  { node := v % 2 ^ 20, cgen := BitVec.ofNat 16 (v / 2 ^ 20), pgroup := v / 2 ^ 36 % 2 ^ 20, pmember := v / 2 ^ 56 % 2 ^ 5 }

/-- The communicator that a rank map describes. -/
def parseMap (bs : List Byte) (p : Nat) (creator : Nat) (tag : BitVec 16) : Comm :=
  { creator, tag, ranks := (List.range p).map (mapRank bs),
    spares := (List.range (mapSpares bs)).map (fun i => mapNum bs (64 + 8 * p + 4 * i) 4 % 2 ^ 20),
    job := mapNum bs 12 3, jmode := mapNum bs 2 1 % 2 == 1, ckptEvery := mapNum bs 10 2, ckptStride := mapNum bs 16 4 % 2 ^ 20 }

/-- A reserved field of a rank map is not 0 (R305). -/
def mapResv (bs : List Byte) (p : Nat) : Bool :=
  mapNum bs 2 1 / 2 != 0 || mapNum bs 3 1 != 0 || decide (2 ^ 21 ≤ mapNum bs 4 4) || mapNum bs 15 1 != 0 || decide (2 ^ 20 ≤ mapNum bs 16 4)
    || ((bs.drop 20).take 44).any (· != 0) || (List.range p).any (fun r => decide (2 ^ 61 ≤ mapNum bs (64 + 8 * r) 8))
    || (List.range (mapSpares bs)).any (fun i => decide (2 ^ 20 ≤ mapNum bs (64 + 8 * p + 4 * i) 4))

/-- A parity group whose size is not 5 to 17, or whose PMEMBER values are not 0 to size − 1 (R307). -/
def Comm.badGroups (c : Comm) : Bool :=
  ((c.ranks.filter (fun r => r.pgroup != 2 ^ 20 - 1)).map (fun r => r.pgroup)).dedup.any (fun g =>
    let ms := (c.ranks.filter (fun r => r.pgroup == g)).map (fun r => r.pmember)
    decide (ms.length < 5) || decide (17 < ms.length) || !(List.range ms.length).all (fun m => ms.contains m))

/-- CKPT_STRIDE is out of range, or puts a buddy into a rank's own group (R305, R307). -/
def Comm.badStride (c : Comm) : Bool :=
  let p := c.ranks.length
  if c.ckptEvery = 0 then c.ckptStride != 0
  else c.ckptStride == 0 || decide (p ≤ c.ckptStride) || (List.range p).any (fun r =>
    match c.ranks[r]?, c.ranks[(r + c.ckptStride) % p]? with
    | some a, some b => a.pgroup != 2 ^ 20 - 1 && a.pgroup == b.pgroup
    | _, _ => false)

/-- R307's cases, handle being the communicator acted on. -/
def State.badMap (s : State) (bs : List Byte) (p handle : Nat) (create : Bool) (c : Comm) : Bool :=
  let nodes := c.ranks.map (fun r => r.node)
  mapNum bs 0 2 != 1 || mapNum bs 4 4 != p || c.job == 0 || !nodes.Nodup || (create && !(nodes ++ c.spares).Nodup)
    || c.ranks.any (fun r => r.cgen == 0xFFFE || (create && r.cgen.getLsbD 0)) || c.badGroups || c.badStride
    || (s.jobComms c.job).any (fun x => x.1 != handle && x.2.spares != c.spares) || mapResv bs p

/-- The map names this node as a rank or a spare (R85). -/
def State.namedIn (s : State) (c : Comm) : Bool := c.ranks.any (fun r => r.node == s.self) || c.spares.contains s.self

/-- Checks the key of a rank map; a wrong handle stands before its failure (R88). -/
def State.orMapFail (s : State) (r : Run) (os : List Opnd) (k : State → State) : State :=
  if (s.localFail (s.ownerOf r.g) os).isSome && s.wrongHandle r then s.completeWith r stMalformed 9 else s.orLocalFail r os k

/-- This node or the function has no room for one more communicator (R152). -/
def State.commsFull (s : State) (f : Nat) : Bool :=
  decide (2048 ≤ (s.comms.filter (fun x => x.2.isSome)).length)
    || decide (s.grant f 0x1C 0 13 ≤ (s.comms.filter (fun x => x.2.elim false (fun c => c.creator == f))).length)

def State.commReasons (s : State) (r : Run) : List Nat :=
  let e := r.ins.w
  let act := commAction e
  s.headReasons r.g r.ins false
    ++ reasons [(resvSet e [(17, 4), (32, 24), (64, 64), (128, 64)], 2), (act == 3, 3), (entOpx e 2 2 == 3, 3)]
    ++ (if act = 2 then [] else reasons [(commP e == 0 || decide (2 ^ 20 < commP e), 4)] ++ opndReasons (entOpx e 2 2) (commMap e (mapLen (commP e) 0)))
    ++ reasons [(act == 2 && s.wrongHandle r, 9)]

/-- COMM starts (R85): the header of the map is read first, then the whole map. Destroy uses neither RMADDR, RMKEY nor P, and its RESULT is 0 (DESIGN
CHOICE, log entry 67). -/
def State.startComm (s : State) (r : Run) : State :=
  let e := r.ins.w
  let act := commAction e
  (s.chargeStart r.g).orMalformed r (s.commReasons r)
    (fun s =>
      if act = 2 then s.setRun { r with phase := .coll }
      else s.orMapFail r [commMap e 64] (fun s => (s.setRun { r with phase := .reading, aux := 0 }).readMore r.rid [commMap e 64] []))

/-- A SNAP that is PREPARED no more: its journal is IDLE. -/
def State.unprepare (s : State) (comm : Nat) : State :=
  match s.journal? comm with
  | some j => if j.st = .prepared then s.putJournal { j with st := .idle } else s
  | none => s

/-- The ranks that a replace has made READY end the stop of an ABANDONED rank (R311). -/
def State.endStopped (s : State) (j : Nat) (was : Bool) : State :=
  if was && !s.jobAbandoned j && (s.job j).frog.isSome then
    let s := (s.job j).commit.elim s (fun c => s.unprepare c)
    (s.setJob j { s.job j with frog := none, frogs := (s.job j).frogs + 1 }).count 0x230018
  else s

/-- CLAIMING shows whether this node holds a claim that is not yet ready (R340). -/
def State.showClaiming (s : State) : State :=
  let v := if s.claims.isEmpty then 0 else 1
  if s.fld 0x170004 17 1 = v then s else (s.setFld 0x170004 17 1 v).bumpSeq 0x170004

/-- A replace ends the claims of this node that the new map does not show as CLAIMED by it; with its last claim of the job its part in the job's frog
ends too (R307, R310, R340; DEDUCED, log entry 39). -/
def State.mapClaims (s : State) (h : Nat) (n : Comm) : State :=
  let stands := fun (x : Claim) => x.comm != h || (n.ranks[x.rank]?).elim false (fun r => r.node == s.self && r.cgen == x.cgen)
  if s.claims.all stands then s
  else
    let s : State := { s with claims := s.claims.filter stands }
    let job := s.job n.job
    let rank := (s.jobComms n.job).any (fun x => x.2.ranks.any (fun r => r.node == s.self && r.state == .ready))
    let s := if rank || s.claims.any (fun x => x.job == n.job) then s
      else s.setJob n.job { job with frog := none, again := false, heard := max job.heard (job.frog.elim 0 (fun f => f.number)) }
    s.showClaiming

/-- The maps that started collectives and kept transfers of a communicator still use when its map is replaced (R178). -/
def State.oldMaps (s : State) (h : Nat) (x : Comm) : List OldMap :=
  let now : OldMap := { last := x.seq, ranks := x.ranks, digest := x.digest }
  (x.olds ++ [now]).filter (fun m =>
    s.colls.any (fun c => c.comm == h && !seqFollows m.last c.cseq) || s.xfers.any (fun y => y.comm == h && y.cseq != 0 && !seqFollows m.last y.cseq))

/-- The map is read: create or replace applies, or is refused (R85, R307). -/
def State.commApply (s : State) (r : Run) (bs : List Byte) : State :=
  let e := r.ins.w
  let h := coComm e
  let create := commAction e == 0
  let f := s.ownerOf r.g
  let digest := BitVec.ofNat 64 (leVal ((sha3_512 bs).take 8))
  let c : Comm := { parseMap bs (commP e) f (s.ttagOf f) with digest, fresh := true }
  let done := fun (s : State) => s.complete { r with result := digest, info := 0 }
  if s.badMap bs (commP e) h create c then s.completeWith r stMalformed 4
  else if !s.namedIn c || s.wrongHandle r then s.completeWith r stMalformed 9
  else if create then (if s.commsFull f then s.completeWith r stAccessLocal else done (s.setComm h (some c)))
  else match s.ownComm r.g h with
    | none => s.completeWith r stMalformed 9
    | some old =>
      let n : Comm := { c with tag := old.tag, seq := old.seq, anySeq := old.anySeq, olds := s.oldMaps h old }
      done (((s.setComm h (some n)).endStopped c.job (s.jobAbandoned c.job)).mapClaims h n)

/-- A part of the map has been read. -/
def State.commReadOver (s : State) (r : Run) : State :=
  let e := r.ins.w
  if r.aux = 0 then
    let b := r.buf 0
    if mapNum b 0 2 != 1 || mapNum b 4 4 != commP e || decide (1024 < mapSpares b) then s.completeWith r stMalformed 4
    else
      let o := commMap e (mapLen (commP e) (mapSpares b))
      if !(opndReasons (entOpx e 2 2) o).isEmpty then s.completeWith r stMalformed 4
      else s.orMapFail r [o] (fun s => (s.setRun { r with aux := 1 }).readMore r.rid [o] [])
  else s.commApply r (r.buf 1)

/-- Transfers parked for a handle that is destroyed go, counted and answered as for an unknown handle (R150, R178). -/
def State.dropParked (s : State) (h : Nat) : State :=
  (s.arrivals.filter (fun a => a.comm == h)).foldl (fun s a =>
    ((s.count 0x260070).sendColl a.src none .notReady a.comm a.cseq a.op a.chunk 0 a.pdig).dropArrival a) s

/-- Destroy waits for every collective started on the handle (R85); one that starts while it waits is admitted, and waited for (DESIGN CHOICE, log
entry 67). -/
def State.tryDestroy (s : State) (r : Run) : Option State :=
  let h := coComm r.ins.w
  if s.colls.any (fun c => c.comm == h) then none
  else match s.ownComm r.g h with
    | none => some (s.completeWith r stMalformed 9)
    | some x =>
      let s := (s.dropParked h).setComm h none
      let s := if (s.job x.job).commit = some h then s.setJob x.job { s.job x.job with commit := none } else s
      let s : State := { s with
        journals := s.journals.filter (fun j => j.comm != h)
        xfers := s.xfers.filter (fun y => y.comm != h)
        digests := s.digests.filter (fun y => y.1 != h)
        mapDigs := s.mapDigs.filter (fun y => y.1 != h)
        rticks := s.rticks.filter (fun y => y.comm != h) }
      some (s.completeWith r stOk)

/-! ## What these runs do next -/

/-- The next action of a run of this file's opcodes, if any. -/
def State.advanceSetup (s : State) (r : Run) : Option State :=
  let op := entOpcode r.ins.w
  if r.phase = .placing then (if r.writes = 0 then some (s.complete r) else none)
  else if r.phase = .reading then
    if !r.readDone || r.writes != 0 then none
    else if op == 0x41 then some (s.persVersion r)
    else if op == 0x48 then some (s.digestOver r)
    else if op == 0x4A then some (s.tagOver r)
    else if op == 0x50 then s.uprogOver r
    else if op == 0x58 then some (s.commReadOver r)
    else some (s.collReadOver r)
  else if r.phase = .coll then (if op == 0x58 then s.tryDestroy r else if op == 0x40 then s.snapStep r else s.collStep r)
  else none

end Sys2Proof.Machine
end

