-- ==== Sys2Proof/Machine/Frog.lean ====
section
/-! DEFINITION. The parts of a frog and of darning that run by themselves: FROGGED completions, the vote, darning reads (R322 to R328). -/

namespace Sys2Proof.Machine

/-! ## Step 1 (R322) -/

/-- A collective or SNAP instruction on one of some communicators. -/
def namesComm (cs : List Nat) (i : Fetched) : Bool :=
  let op := entOpcode i.w
  ((decide (0x30 ≤ op.toNat) && decide (op.toNat ≤ 0x37)) || op == 0x40) && cs.contains (coComm i.w)

/-- Marks an accepted instruction that has not started. -/
def frogMark (cs : List Nat) (i : Fetched) : Fetched := if namesComm cs i then { i with frogged := true } else i

def Queue.frogMark (cs : List Nat) (q : Queue) : Queue :=
  { q with
    held := q.held.map (fun a => { a with ins := Sys2Proof.Machine.frogMark cs a.ins, body := a.body.map (Sys2Proof.Machine.frogMark cs) })
    rep := q.rep.map (fun r => { r with body := r.body.map (Sys2Proof.Machine.frogMark cs) }) }

/-- Completes with FROGGED what the job has accepted and not completed; a PREPARED SNAP is kept (R322 step 1). -/
def State.frogRuns (s : State) (j : Nat) : State :=
  let cs := (s.jobComms j).map (fun x => x.1)
  let mine := s.colls.filter (fun c => cs.contains c.comm && !(c.op == 0x40 && c.prepared))
  let s := mine.foldl (fun s c => match s.run? c.rid with
    | some r => s.completeWith r stFrogged
    | none => s) s
  { s with queues := s.queues.map (fun q => (q.1, q.2.frogMark cs)) }

/-! ## Step 2 -/

/-- A rank of the job whose node is lost and that is not ABANDONED (R309). -/
def State.openRank (s : State) (r : Rank) : Bool := s.lost.contains r.node && r.state != .abandoned

/-- Every lost rank of the job is CLAIMED with its claim settled, or ABANDONED (R322 step 2). -/
def State.claimsSettled (s : State) (j : Nat) : Bool :=
  let rs := (s.jobComms j).flatMap (fun x => x.2.ranks)
  !rs.any s.openRank && (!rs.any (fun r => r.state == .claimed) || (s.job j).settled)

/-- Step 5: the frog is counted, and the job goes on; a further frog that waited is left to start (R322, R324, R332). -/
def State.frogDone (s : State) (j : Nat) (f : Frog) : State :=
  let s := (s.setJob j { s.job j with frog := none, frogs := f.number }).count 0x230018
  { s with comms := s.comms.map (fun x => (x.1, x.2.map (fun c => if c.job = j then { c with anySeq := true } else c))) }

/-! ## The vote (R325) -/

/-- The larger CSTEP with its CCSEQ. -/
def voteMax (a b : DWord × Word) : DWord × Word := if a.1.toNat < b.1.toNat then b else a
def voteBytes (a : DWord × Word) : List Byte := leBytes 8 a.1.toNat ++ leBytes 4 a.2.toNat ++ leBytes 4 0
def parseVote (bs : List Byte) : DWord × Word := (BitVec.ofNat 64 (leVal (bs.take 8)), BitVec.ofNat 32 (leVal ((bs.drop 8).take 4)))

/-- The state of this node's rank in a communicator. -/
def State.myState (s : State) (comm rank : Nat) : RankState :=
  ((s.comm comm).bind (fun c => c.ranks[rank]?)).elim .ready (fun r => r.state)

/-- This position's input: zeros for a CLAIMED rank. -/
def State.voteInput (s : State) (comm rank : Nat) : DWord × Word :=
  if s.myState comm rank == .claimed then (0, 0) else (s.journal? comm).elim (0, 0) (fun j => (j.cstep, j.ccseq))

/-- This rank's position, children and parent in the vote's tree. -/
def voteKids (p number rank : Nat) : List Nat := (tchildren p (tpos p (number % p) rank)).map (rankAt p (number % p))
def voteParent (p number rank : Nat) : Nat := rankAt p (number % p) (tparent (tpos p (number % p) rank))

/-- A vote packet of this rank. -/
def State.voteXfer (s : State) (comm number rank : Nat) (kind : CollKind) (v : DWord × Word) (ranks : List Nat) : Xfer :=
  let c := s.comm comm
  { comm, cseq := 0, kind, op := 0x40, chunk := number % 2 ^ 26, srank := rank, bytes := voteBytes v, exc := false, pdig := 0,
    peers := ranks.map (fun r => { rank := r, node := (c.bind (fun x => x.ranks[r]?)).elim 0 (fun x => x.node), tries := 0, held := false }) }

/-! ## Darning at the spare (R326 to R328) -/

/-- The group of a rank has lost another member: it cannot be darned (R326, R332). -/
def State.groupBroken (s : State) (c : Comm) (rank : Nat) : Bool :=
  (c.group rank).any (fun i => i != rank && (c.ranks[i]?).elim false (fun r => r.state != .ready || s.lost.contains r.node))

/-- The REQUEST of a darning read: COMM, INSTID the rank, the offset of the unit within the commit area (R326). -/
def darnReq (comm rank off : Nat) (arg key : Word) : ReqF :=
  { opcode := 0x40, iqueue := 0, placed := false, instid := BitVec.ofNat 32 rank, addr := BitVec.ofNat 64 off, key, comm := BitVec.ofNat 24 comm,
    size := false, fetch := false, seterr := false, clrerr := false, arg }

/-- The member that serves a unit: a stripe holder for a protected unit, the lowest other member for a parity unit. -/
def darnServer (grp : List Nat) (m k n u : Nat) : Nat :=
  if u < n then grp.getD (holderOf m k u) 0 else (grp.filter (fun r => r != grp.getD m 0)).headD 0

/-- Sends the darning reads of a claim. -/
def State.sendDarning (s : State) (c : Comm) (x : Claim) : State :=
  let grp := c.group x.rank
  let m := (grp.findIdx? (· == x.rank)).getD 0
  (List.range (x.n + x.np)).foldl (fun s u =>
    let node := (c.ranks[darnServer grp m (grp.length - 1) x.n u]?).elim 0 (fun r => r.node)
    s.originate node (enginePkt 5 c.tag (.request (darnReq x.comm x.rank (u * UNIT) 0 0)) [] true)) s

def State.setClaim (s : State) (x : Claim) : State :=
  { s with claims := s.claims.map (fun y => if y.comm = x.comm ∧ y.rank = x.rank then x else y) }

/-- The vote has ended at a claiming spare: darning begins; without a commit or a group the area is zeroed (R313, R317, R326). -/
def State.startDarning (s : State) (x : Claim) (t : DWord × Word) : State :=
  match s.comm x.comm with
  | none => s
  | some c =>
    let k := c.groupK x.rank
    let np := if k = 0 then 0 else ceilDiv x.n k
    let x : Claim := { x with phase := .darning, target := t, np, todo := (List.range (x.n + np)).map (fun u => (u, 16)) }
    if t.1 = 0 ∨ k = 0 then
      ((s.setClaim { x with todo := [] }).engineWrite x.base (List.replicate ((x.n + np) * UNIT) 0)).raise c.creator parityNone
        noQueue 0 x.comm x.rank 0
    else if s.groupBroken c x.rank then s.setClaim { x with phase := .halted, todo := [] }
    else (s.setClaim x).sendDarning c x

/-! ## Step 3: the vote runs -/

/-- The target is known: a claiming spare counts the frog and darns; a member goes to step 4 (R322, R325). -/
def State.voteOver (s : State) (j comm rank : Nat) (f : Frog) (t : DWord × Word) : State :=
  let p := (s.comm comm).elim 1 (fun c => c.ranks.length)
  let kids := voteKids p f.number rank
  let s := if kids.isEmpty then s else s.keepXfer (s.voteXfer comm f.number rank .result t kids)
  if s.myState comm rank == .claimed then
    let s := s.setJob j { s.job j with frog := none, frogs := f.number }
    (s.claims.filter (fun x => x.job == j && x.phase == .settled)).foldl (fun s x => if x.comm = comm then s.startDarning x t else s.setClaim { x with phase := .darning }) s
  else
    let s := match s.journal? comm with
      | some k => if k.cstep = t.1 then s.putJournal { k with st := .restoring } else s
      | none => s
    s.setJob j { s.job j with frog := some { f with phase := .restore, target := some t } }

/-- Every input of this position is in: the maximum goes up, or is the target at the root. -/
def State.voteSend (s : State) (j comm rank : Nat) (f : Frog) : Option State :=
  let p := (s.comm comm).elim 1 (fun c => c.ranks.length)
  let kids := voteKids p f.number rank
  if f.voted || f.number == 0 || !kids.all (fun k => f.votes.any (fun v => v.1 == k)) then none
  else
    let v := f.votes.foldl (fun a b => voteMax a b.2) (s.voteInput comm rank)
    let f : Frog := { f with voted := true }
    let s := s.setJob j { s.job j with frog := some f }
    some (if rank = f.number % p then s.voteOver j comm rank f v
      else s.keepXfer (s.voteXfer comm f.number rank .contrib v [voteParent p f.number rank]))

/-- A vote packet that its frog can take now (R325); one of a frog that is over is acknowledged again. -/
def State.tryVote (s : State) : Option State :=
  s.arrivals.findSome? (fun a =>
    if !(a.ok && a.cseq == 0 && a.op == 0x40) then none
    else match s.comm a.comm with
      | none => none
      | some c =>
        let j := s.job c.job
        let take := fun (s : State) => (s.ackArrival a).dropArrival a
        if decide (a.chunk ≤ j.frogs % 2 ^ 26) then some (take s)
        else match j.frog, s.rankHere a.comm with
          | some f, some rank =>
            let s := if j.commit.isNone then s.setJob c.job { j with commit := some a.comm } else s
            let f : Frog := if f.number = 0 then { f with number := a.chunk } else f
            if f.number % 2 ^ 26 != a.chunk then none
            else if a.kind = .contrib then
              let f : Frog := if f.votes.any (fun v => v.1 == a.srank) then f else { f with votes := f.votes ++ [(a.srank, parseVote a.bytes)] }
              some (take (s.setJob c.job { s.job c.job with frog := some f }))
            else if f.phase = .vote ∧ f.target = none then some (take (s.voteOver c.job a.comm rank f (parseVote a.bytes)))
            else if f.target = none then none
            else some (take s)
          | _, _ => none)

/-- The kept SNAP of a commit communicator, by its run. -/
def State.keptSnap (s : State) (comm : Nat) : Option Nat := (s.colls.find? (fun c => c.comm == comm && c.op == 0x40 && c.prepared)).map (fun c => c.rid)

/-- The kept SNAP of a job that an ABANDONED rank has stopped completes with FROGGED (R311; DEDUCED, log entry 39). -/
def State.endKept (s : State) (j : Nat) : Option State :=
  ((s.job j).commit.bind s.keptSnap).bind (fun rid => (s.run? rid).map (fun r => s.completeWith r stFrogged))

/-- The next step of a job's frog that needs no command (R322 steps 2, 3 and 5). -/
def State.frogStep (s : State) (j : Nat) : Option State :=
  (s.job j).frog.bind (fun f =>
    let go := fun (c : Nat) => match s.rankHere c with
      | some _ => some (s.setJob j { s.job j with frog := some { f with phase := .vote } })
      | none => some (s.frogDone j f)
    match f.phase with
    | .claims =>
      if s.jobAbandoned j then s.endKept j
      else if !s.claimsSettled j then none
      else (match (s.job j).commit with
        | some c => go c
        | none => some (s.setJob j { s.job j with frog := some { f with phase := .noCommit } }))
    | .noCommit => (s.job j).commit.bind go
    | .vote => (s.job j).commit.bind (fun c => (s.rankHere c).bind (fun r => s.voteSend j c r f))
    | .restore => none)

/-- The bytes of a unit of this node's commit area. -/
def State.unitBytes (s : State) (j : Journal) (u : Nat) : List Byte := s.pread (j.base + u * UNIT) UNIT

/-! ## Serving darning reads (R326) -/

/-- Members of a stripe other than some, with their units below n (R314). -/
def stripeOf (p k h b n : Nat) (except : List Nat) : List Nat :=
  (List.range p).filter (fun m => m != h && !except.contains m && decide (unitOf m h k b < n))

/-- Answers a darning read or a unit read with a unit, in 16 packets (R272). -/
def State.darnAnswer (s : State) (p : Packet) (bytes : List Byte) : State :=
  match p.body with
  | .request r =>
    let src := p.hdr.src.toNat
    let xs := ((pieces 4096 bytes).zipIdx).map (fun b => { enginePkt 1 p.hdr.ttag (.response {
      opcode := r.opcode, iqueue := r.iqueue, instid := r.instid, rpsn := p.hdr.psn, roff := BitVec.ofNat 32 (b.2 * 4096), result := 0, swapped := false })
      b.1 false with reply := some p.hdr.psn })
    xs.foldl (fun s x => s.originate src x) s
  | _ => s

/-- XOR of equal byte lists. -/
def xorBytes (a b : List Byte) : List Byte := List.zipWith (fun x y => x ^^^ y) a b

/-- A darning read whose frog is over here: it is answered, or its other units are read (R326 step 2). -/
def State.serveDarning (s : State) (p : Packet) (r : ReqF) (c : Comm) (j : Journal) (me : Nat) : State :=
  let grp := c.group r.instid.toNat
  let k := grp.length - 1
  let x := (grp.findIdx? (· == r.instid.toNat)).getD 0
  let h := (grp.findIdx? (· == me)).getD 0
  let u := (raOffset r.addr) / UNIT
  let b := if u < j.n then u / k else u - j.n
  let others := if u < j.n then stripeOf grp.length k h b j.n [x] else stripeOf grp.length k x b j.n [h]
  let own := if u < j.n then j.n + b else unitOf h x k b
  let mine := if u < j.n ∨ unitOf h x k b < j.n then s.unitBytes j own else List.replicate UNIT 0
  if others.isEmpty then s.darnAnswer p mine
  else
    let s : State := { s with darnReads := s.darnReads ++ [{
      pkt := p, units := (pieces 4096 mine).zipIdx.map (fun y => (h, y.2 * 4096, y.1)),
      missing := others.flatMap (fun m => (List.range 16).map (fun i => (m, i * 4096))) }] }
    others.foldl (fun s m =>
      let unit := if u < j.n then unitOf m h k b else unitOf m x k b
      let node := (c.ranks[grp.getD m 0]?).elim 0 (fun y => y.node)
      s.originate node (enginePkt 4 c.tag (.request (darnReq r.comm.toNat m (unit * UNIT) (BitVec.ofNat 32 (1 + 2 * p.hdr.src.toNat)) p.hdr.psn)) [] true)) s

/-- The next waiting darning read that can be served: this member's frog is over, so that its units are those of the commit (R326; for a holder's
read of one unit DEDUCED, log entry 17) and MEMIN has cells for a unit (R281). -/
def State.tryDarnServe (s : State) : Option State :=
  (s.darnWait.find? (fun p => match p.body with
    | .request r => (s.comm r.comm.toNat).elim true (fun c => (s.job c.job).frog.isNone) && s.canGrow 2 256
    | _ => true)).map (fun p =>
      let s : State := { s with darnWait := s.darnWait.erase p }
      match p.body with
      | .request r => (match s.comm r.comm.toNat, s.journal? r.comm.toNat, s.rankHere r.comm.toNat with
        | some c, some j, some me =>
          if r.arg = 0 then s.serveDarning p r c j me else s.darnAnswer p (s.pread (j.base + raOffset r.addr) UNIT)
        | _, _, _ => s)
      | _ => s)

/-- The retained request of a read whose last piece has come is done with. -/
def State.darnReadOver (s : State) (q : ReqF) (src : Nat) : State :=
  match (s.path src).retained.find? (fun x => x.pkt.body == .request q) with
  | some x => s.packetOver src x stOk 0
  | none => s

/-- A piece of a unit comes in at the spare: it is written and counted (R326, R328). -/
def State.darnPiece (s : State) (q : ReqF) (src roff : Nat) (bytes : List Byte) : State :=
  match s.claims.find? (fun x => x.comm == q.comm.toNat && x.rank == q.instid.toNat && x.phase == .darning) with
  | none => s
  | some x =>
    let u := raOffset q.addr / UNIT
    let left := (x.todo.find? (fun t => t.1 == u)).elim 0 (fun t => t.2)
    if left = 0 then s
    else
      let s := ((s.engineWrite (x.base + raOffset q.addr + roff) bytes).count 0x230030 bytes.length).setClaim { x with
        todo := if left = 1 then x.todo.filter (fun t => t.1 != u) else x.todo.map (fun t => if t.1 = u then (u, left - 1) else t) }
      if left = 1 then s.darnReadOver q src else s

/-- A piece of another member's unit comes in at a holder; with the last, the XOR in ascending member index is returned (R326 step 3). -/
def State.darnUnit (s : State) (q : ReqF) (src roff : Nat) (bytes : List Byte) : State :=
  let want := q.arg.toNat / 2
  match s.darnReads.find? (fun d => d.pkt.hdr.src.toNat == want && d.pkt.hdr.psn == q.key) with
  | none => s
  | some d =>
    let m := q.instid.toNat
    let e : DarnRead := { d with units := d.units ++ [(m, roff, bytes)], missing := d.missing.erase (m, roff) }
    let s := if e.missing.any (fun y => y.1 == m) then s else s.darnReadOver q src
    if e.missing.isEmpty then
      let all := (List.range 16).map (fun i => ((e.units.filter (fun y => y.2.1 == i * 4096)).map (fun y => y.2.2)).foldl xorBytes (List.replicate 4096 0))
      ({ s with darnReads := s.darnReads.erase d } : State).darnAnswer d.pkt all.flatten
    else { s with darnReads := s.darnReads.map (fun y => if y = d then e else y) }

/-- The next piece that has come in is used. -/
def State.tryDarnIn (s : State) : Option State :=
  match s.darnIn with
  | [] => none
  | (q, src, roff, bytes) :: rest =>
    let s : State := { s with darnIn := rest }
    some (if q.arg = 0 then s.darnPiece q src roff bytes else s.darnUnit q src roff bytes)

/-! ## Registrations of the rank record (R315, R323, R327) -/

/-- Re-creates one recorded registration in function f: skipped where it still stands or its accelerator is absent, and with
DARN_KEY_CONFLICT where its INDEX is in use (R323, R327). -/
def State.recreateKey (s : State) (comm rank f : Nat) (desc : BitVec 256) (key : Word) : State :=
  let i := keyIndex key
  let k := s.key i
  let n : KeyEnt := { gen := keyGen key, state := .valid, owner := f, desc }
  if k.state == .valid && k.gen == keyGen key && k.desc == desc && k.owner == f then s
  else if k.state != .free then s.raise f darnKeyConflict noQueue 0 comm rank key.toNat
  else if n.space = 1 && !s.accPresent (n.base / 2 ^ 38 % 4) then s
  else { s.setKey i n with freedKeys := s.freedKeys.filter (· != i) }

/-- Re-creates the registrations of a rank record. -/
def State.recreateKeys (s : State) (comm rank f : Nat) (bs : List Byte) : State :=
  (List.range (leVal ((bs.drop 2).take 2))).foldl (fun s i =>
    let b := bs.drop (64 + 32 * i)
    s.recreateKey comm rank f (BitVec.ofNat 256 (leVal (b.take 28))) (BitVec.ofNat 32 (leVal ((b.drop 28).take 4)))) s

/-- The registrations of function f's last commits can be re-created: its reset has ended, the revoked ones are gone, no frog runs (R323). -/
def State.mayRekey (s : State) (f : Nat) : Bool :=
  !s.resetting f && !s.keys.any (fun k => k.2.owner == f && k.2.autoRelease && k.2.state != .free)
    && s.comms.all (fun x => x.2.elim true (fun c => c.creator != f || (s.job c.job).frog.isNone))

def State.tryRekey (s : State) : Option State :=
  (s.rekey.find? s.mayRekey).map (fun f =>
    let s : State := { s with rekey := s.rekey.erase f }
    s.journals.foldl (fun s j => match s.comm j.comm with
      | some c => if c.creator = f ∧ j.committed ∧ j.n ≠ 0 then s.recreateKeys j.comm ((s.rankHere j.comm).getD 0) f (s.unitBytes j (j.n - 1)) else s
      | none => s) s)

/-! ## RESTORE of the tier (R343) -/

/-- Asks the target of a RESTORE whether its writes have been placed (R143, R343). -/
def State.askRestore (s : State) (x : Restore) : State :=
  let s : State := { s with restores := s.restores.map (fun y => if y = x then { x with left := 1, asked := true } else y) }
  if s.lost.contains x.node then s.restoreOver x.f stTargetLost
  else s.originate x.node { enginePkt 5 (s.ttagOf x.f) (.request {
    opcode := 0x14, iqueue := BitVec.ofNat 14 x.f, placed := false, instid := restoreInst, addr := 0, key := 0, comm := 0, size := false
    fetch := false, seterr := false, clrerr := false, arg := 0 }) [] true with addr := BitVec.ofNat 64 (x.node * 2 ^ 42) }

/-- A RESTORE whose writes have all been acknowledged asks for their placement, and ends once they are placed or one has failed. -/
def State.tryRestores (s : State) : Option State :=
  (s.restores.find? (fun x => x.left == 0)).map (fun x =>
    if x.fail.isNone && !x.asked then s.askRestore x
    else
      let s : State := { s with restores := s.restores.erase x }
      let s := match x.fail with
        | some st => s.setReg64 (page x.f 0x1228) (st.setWidth 64)
        | none => s
      (s.setFld (page x.f 0x1214) 31 1 0).setResult (page x.f 0x1218) (if x.fail.isSome then 4 else 1))

/-- Internal actions of failure and recovery. -/
def State.tryRecovery (s : State) : Option State :=
  s.tryDarnIn <|> s.tryDarnServe <|> s.tryVote <|> (s.jobs.map (fun x => x.1)).findSome? s.frogStep <|> s.tryRestores <|> s.tryRekey

end Sys2Proof.Machine
end

