-- ==== Sys2Proof/Machine/KeySlots.lean ====
section
/-! DEFINITION. The TAG key slots and their commands (R394 to R396). -/

namespace Sys2Proof.Machine

open Host (Outcome)

/-- The key check value of a loaded slot (R396). -/
def keyCheckValue (key : List Byte) : DWord := BitVec.ofNat 64 (leVal ((kmac256 key [] 32 (ascii "QN4096KCV")).take 8))

/-- KEYSLOT_DATA as bytes (R395). -/
def State.keyData (s : State) (f : Nat) : List Byte := (List.range 16).flatMap (fun i => leBytes 4 (s.reg (page f (0x1300 + 4 * i))).toNat)

/-- A command completes: KEYSLOT_DATA is zero, GO is 0, RESULT, SEQ and KCV are set (R395). -/
def State.keyslotDone (s : State) (f res : Nat) (kcv : DWord) : State :=
  let s := (List.range 16).foldl (fun s i => s.setReg (page f (0x1300 + 4 * i)) 0) s
  ((s.setFld (page f 0x1340) 31 1 0).setReg64 (page f 0x1348) kcv).setResult (page f 0x1344) res

/-- TAGs that have started and name global slot n. -/
def State.tagsOn (s : State) (n : Nat) : List Nat :=
  (s.runs.filter (fun r => entOpcode r.ins.w == 0x4A && r.slot == n)).map (·.rid)

/-- The action of a command whose wait is over: op 1 LOAD, 2 CLEAR. A slot that has left the grant meanwhile is NOT_GRANTED. -/
def State.keyslotAct (s : State) (f op : Nat) : State :=
  match s.kslotOf f (s.fld (page f 0x1340) 0 8) with
  | none => s.keyslotDone f 2 0
  | some n =>
    if op = 1 then
      let k := (s.keyData f).take (s.fld (page f 0x1340) 8 7)
      (s.setKslot n { a := k, b := k }).keyslotDone f 1 (keyCheckValue k)
    else (s.setKslot n {}).keyslotDone f 1 0

/-- KEYSLOT_CMD is written with an OP: ignored and counted while GO reads 1. -/
def State.keyslotCmd (s : State) (f op : Nat) (k : State → Nat → State) : State :=
  if s.bit (page f 0x1340) 31 then s.count (page f 0x2010)
  else
    let s := s.setFld (page f 0x1340) 16 2 op
    match s.kslotOf f (s.fld (page f 0x1340) 0 8) with
    | none => s.keyslotDone f 2 0
    | some n => k s n

/-- LOAD and CLEAR wait for the TAGs that started before them on the slot (R395). -/
def State.keyslotWait (s : State) (f op n : Nat) : State :=
  if (s.tagsOn n).isEmpty then s.keyslotAct f op
  else { s.setFld (page f 0x1340) 31 1 1 with keyCmds := s.keyCmds ++ [(f, op, s.tagsOn n)] }

def execKeyslotQuery (f : Nat) (s : State) : Outcome State Fault Refusal :=
  .next (s.keyslotCmd f 0 (fun s n => if s.kslot n = {} ∨ s.slotEmptied true n s.nextRid = true then s.keyslotDone f 4 0 else s.keyslotDone f 1 (keyCheckValue (s.kslot n).a)))

def execKeyslotLoad (f : Nat) (s : State) : Outcome State Fault Refusal :=
  .next (s.keyslotCmd f 1 (fun s n =>
    let len := s.fld (page f 0x1340) 8 7
    if len < 32 ∨ 64 < len then s.keyslotDone f 3 0 else s.keyslotWait f 1 n))

def execKeyslotClear (f : Nat) (s : State) : Outcome State Fault Refusal :=
  .next (s.keyslotCmd f 2 (fun s n => s.keyslotWait f 2 n))

/-- A slot that a COMMIT took from a grant is emptied once every instruction that started with it has completed (R376). -/
def State.trySlots (s : State) : Option State :=
  (s.slotWaits.find? (fun c => !s.runs.any (fun r => c.2.2.contains r.rid))).map (fun c =>
    let s : State := { s with slotWaits := s.slotWaits.erase c }
    if c.1 then s.setKslot c.2.1 {} else { s with progs := Tab.put (fun _ => []) s.progs c.2.1 [] })

/-- A command whose TAGs have completed acts. -/
def State.tryKeyCmds (s : State) : Option State :=
  (s.keyCmds.find? (fun c => !s.runs.any (fun r => c.2.2.contains r.rid))).map (fun c =>
    ({ s with keyCmds := s.keyCmds.erase c } : State).keyslotAct c.1 c.2.1)

end Sys2Proof.Machine
end

