-- ==== Sys2Proof/Machine/Store.lean ====
section
/-! DEFINITION. The allocator of the central store: banks, free lists, chains and what they hold (R277, R278, R30, R281); the map of pooled memory to
packages and channels (R287, R288). -/

namespace Sys2Proof.Machine

/-! ## Banks (R277, R278) -/

def storeBanks : Nat := 128
def bankCells : Nat := 2 ^ 18

def Store.bank (st : Store) (b : Nat) : Bank := Tab.get (fun _ => {}) st.banks b
def Store.setBank (st : Store) (b : Nat) (x : Bank) : Store := { st with banks := Tab.put (fun _ => {}) st.banks b x }

/-- A bank has a free cell. -/
def Bank.hasFree (b : Bank) : Bool := !b.freed.isEmpty || decide (b.fresh < bankCells)

/-- Takes the first cell of a bank's free list, which is then queued for writing. -/
def Bank.take (b : Bank) : Option (Nat × Bank) :=
  match b.freed with
  | c :: rest => some (c, { b with freed := rest, queued := b.queued + 1 })
  | [] => if b.fresh < bankCells then some (b.fresh, { b with fresh := b.fresh + 1, queued := b.queued + 1 }) else none

/-- The bank with the fewest cells queued for writing, of those in a list, the lower number where two tie (R278). -/
def Store.emptiest (st : Store) : List Nat → Option Nat
  | [] => none
  | b :: bs => match st.emptiest bs with
    | none => some b
    | some c => if (st.bank b).queued ≤ (st.bank c).queued then some b else some c

/-- The first bank from one on, modulo 128, that has a free cell (R278). -/
def Store.nextBank (st : Store) (from_ : Nat) : Option Nat :=
  ((List.range storeBanks).map (fun i => (from_ + i) % storeBanks)).find? (fun b => (st.bank b).hasFree)

/-- Takes n cells for a chain, the first from a bank on, each of the others from the next bank that has a free one (R278). -/
def Store.grow (st : Store) : Nat → Nat → List (Nat × Nat) × Store
  | 0, _ => ([], st)
  | n + 1, from_ => match st.nextBank from_ with
    | none => ([], st)
    | some b => match (st.bank b).take with
      | none => ([], st)
      | some (c, x) =>
        let r := (st.setBank b x).grow n ((b + 1) % storeBanks)
        ((b, c) :: r.1, r.2)

/-- Frees cells: each goes to the end of its bank's free list (R30). -/
def Store.release (st : Store) (cs : List (Nat × Nat)) : Store :=
  cs.foldl (fun st c => st.setBank c.1 { st.bank c.1 with freed := (st.bank c.1).freed ++ [c.2] }) st

/-- The first bank of a new chain: the emptiest with a free cell, and for a second copy not that of the first (R278, R280). -/
def Store.firstBank (st : Store) (w : Need) : Nat :=
  let other := if w.copy then (st.chains.find? (fun c => c.use == w.use && !c.copy)).bind (fun c => c.cells.head?.map (·.1)) else none
  (st.emptiest ((List.range storeBanks).filter (fun b => (st.bank b).hasFree && other != some b))).getD 0

/-- Allocates a chain. -/
def Store.alloc (st : Store) (w : Need) : Store :=
  let r := st.grow w.cells (st.firstBank w)
  { r.2 with chains := r.2.chains ++ [{ use := w.use, copy := w.copy, cells := r.1 }] }

/-- A chain made as long as what it holds: it goes on in the bank after its last, or its last cells are freed. -/
def Store.fit (st : Store) (c : Chain) (n : Nat) : Chain × Store :=
  if c.cells.length ≤ n then
    let r := st.grow (n - c.cells.length) (c.cells.getLast?.elim 0 (fun x => (x.1 + 1) % storeBanks))
    ({ c with cells := c.cells ++ r.1 }, r.2)
  else ({ c with cells := c.cells.take n }, st.release (c.cells.drop n))

/-- The cells that the banks have written since they were last looked at, a free number of those queued (log entry 69). -/
def Store.look (st : Store) : Store :=
  { st with looks := st.looks + 1, banks := st.banks.map (fun b => (b.1, { b.2 with queued := b.2.queued - Config.cellsWritten st.looks b.1 })) }

/-- Chains that stay, in the order of the needs, the chains that nothing needs any more, and the needs that have no chain. -/
def matchChains : List Need → List Chain → List (Need × Chain) × List Chain × List Need
  | [], cs => ([], cs, [])
  | w :: ws, cs => match cs.find? (fun c => c.use == w.use && c.copy == w.copy) with
    | some c => let r := matchChains ws (cs.erase c); ((w, c) :: r.1, r.2)
    | none => let r := matchChains ws cs; (r.1, r.2.1, w :: r.2.2)

/-- The chains follow what is held: what is held no longer is freed once, what has grown or shrunk is fitted, and what is new is allocated (R30, R278). -/
def Store.follow (st : Store) (needs : List Need) : Store :=
  let m := matchChains needs st.chains
  let st := m.2.1.foldl (fun st c => st.release c.cells) { st.look with chains := [] }
  let st := m.1.foldl (fun st x => let r := st.fit x.2 x.1.cells; { r.2 with chains := r.2.chains ++ [r.1] }) st
  m.2.2.foldl Store.alloc st

/-! ## What is held in the cells (R281) -/

/-- A need in one copy, and in as many as its packet is retained in. -/
def need (region : Nat) (use : HeldAs) (cells : Nat) : List Need := if cells = 0 then [] else [{ region, use, cells }]
def need2 (region : Nat) (use : HeldAs) (pkt : Packet) : List Need :=
  (List.range (bodyCopies pkt.body)).map (fun i => { region, use, copy := i == 1, cells := cellsOf pkt })

/-- What a packet in the store is known by. -/
def packetUse (h : Hdr) : HeldAs := .packet h.src h.dst h.psn h.cls

/-- What a packet under reception is known by: its header. -/
def arrivingUse (x : List Byte × List Byte) : HeldAs := packetUse (parseHdr x.1)

def State.linkNeeds (s : State) : List Need :=
  let ins := fun (l : List InPkt) => (l.filter (fun x => x.port.isSome)).flatMap (fun x => need 0 (packetUse x.pkt.hdr) (cellsOf x.pkt))
  ins s.localIn ++ s.arrivals.flatMap (fun x => ins x.pkts) ++ ins s.routeQ ++ ins s.heldEsc
    ++ s.ports.flatMap (fun x => ins x.2.egress
        ++ (x.2.last.toList ++ x.2.cur.toList).flatMap (fun y => need 0 (arrivingUse y) ((64 + y.2.length + 255) / 256)))

/-- A packet that a path retains. -/
def Retained.needs (peer : Nat) (x : Retained) : List Need :=
  match x.rid, x.reply with
  | some rid, _ => need2 6 (.request rid x.off) x.pkt
  | none, some psn => need2 7 (.reply peer psn (match x.pkt.body with | .response r => r.roff.toNat | _ => 0)) x.pkt
  | none, none => if x.ofXfer then [] else need2 8 (.engine peer x.pkt.hdr.psn) x.pkt

def State.pathNeeds (s : State) : List Need :=
  s.paths.flatMap (fun p => p.2.retained.flatMap (Retained.needs p.1) ++ (p.2.waitq.filter (fun x => x.reply.isSome)).flatMap (Retained.needs p.1))

/-- Everything that stands in cells of the store, with its region (R281). -/
def State.needs (s : State) : List Need :=
  s.linkNeeds
    ++ s.runs.flatMap (fun r => need 1 (.hostIn r.rid) (r.gathered .hostva) ++ (if r.phase = .coll then need 2 (.memIn r.rid) (r.gathered .pool) else []))
    ++ s.darnReads.flatMap (fun d => need 2 (.darning d.pkt.hdr.src.toNat d.pkt.hdr.psn) d.cells)
    ++ s.tier.flatMap (fun o => o.writing.flatMap (fun v => need 3 (.version o.obj v.1) (min (s.maxCells 3) ((v.2.data.length + 255) / 256))))
    ++ s.restores.flatMap (fun x => need 3 (.restore x.f x.obj) (min (s.maxCells 3) (17 * x.left)))
    ++ (List.range 2).map (fun i => { region := 4, use := .context, copy := i == 1, cells := s.contextCells })
    ++ s.parkedReqs.flatMap (fun p => need 5 (packetUse p.hdr) (cellsOf p))
    ++ s.stagedHeads.flatMap (fun x => need2 6 (.request x.2.1.rid x.2.2.off) { hdr := newHdr 5 0, body := x.2.2.body, payload := x.2.2.payload })
    ++ s.queues.flatMap (fun q => q.2.heldRecs.flatMap (fun r => need 6 (.record q.1 r.eseq r.iter) 1))
    ++ s.pathNeeds
    ++ s.xfers.flatMap (fun x => need 8 (.transfer x.comm x.cseq x.chunk x.kind) (pieceCells x.bytes.length))
    ++ need 9 .window (((s.winStore.map (fun e => e.1 / 4)).dedup).length)

/-- The allocator follows what the node holds. -/
def State.allocate (s : State) : State := { s with store := s.store.follow (s.needs.filter (fun w => decide (0 < w.cells))) }

/-! ## Packages and channels of pooled memory (R287, R288) -/

/-- ch(off), local(off), and the package that a channel lies in. -/
def poolChannel (off : Nat) : Nat := (off / 2 ^ 8 % 32) ^^^ (off / 2 ^ 13 % 32) ^^^ (off / 2 ^ 18 % 32) ^^^ (off / 2 ^ 23 % 32)
def poolLocal (off : Nat) : Nat := off / 2 ^ 13 * 2 ^ 8 + off % 2 ^ 8
def poolPackage (ch : Nat) : Nat := ch / 4
/-- The offset that a channel and a local address stand for (R288). -/
def poolOffset (ch loc : Nat) : Nat :=
  let up := loc / 2 ^ 8
  up * 2 ^ 13 + (ch ^^^ (up % 32) ^^^ (up / 2 ^ 5 % 32) ^^^ (up / 2 ^ 10 % 32)) * 2 ^ 8 + loc % 2 ^ 8

end Sys2Proof.Machine
end

