-- ==== Sys2Proof/Machine/Settle.lean ====
section
/-! DEFINITION. What the node does on its own after a command: runs advance, records are written, packets are injected, streams resume. -/

namespace Sys2Proof.Machine

/-- Opcodes that no instruction of R50 has. -/
def reservedOpcode (op : BitVec 8) : Bool :=
  !([0x00, 0x10, 0x11, 0x12, 0x13, 0x14, 0x18, 0x19, 0x20, 0x21, 0x22, 0x23, 0x28, 0x30, 0x31, 0x32, 0x33, 0x34, 0x35, 0x36, 0x37,
     0x40, 0x41, 0x48, 0x49, 0x4A, 0x50, 0x58] : List (BitVec 8)).contains op

/-- An entry with a reserved opcode at the head of a queue completes with MALFORMED, DETAIL 0x01 (R50, R89); one with COMM's ACTION 3 completes with
DETAIL 0x03 (R85). -/
def State.tryReserved (s : State) (g : Nat) : Option State :=
  (s.queue g).nextInst.bind (fun x =>
    let op := entOpcode x.1.w
    if reservedOpcode op then s.startOp? g op (fun _ _ => [1]) always (fun s r => (s.chargeStart r.g).completeWith r stMalformed 1)
    else if op == 0x58 && commAction x.1.w == 3 then s.startOp? g op State.commReasons always State.startComm
    else none)

/-- A paused function with nothing started and no record held is quiesced (R359). -/
def State.tryPaused (s : State) : Option State :=
  ((List.range 256).find? (fun f =>
      s.bit (0x191000 + 0x20 * f + 8) 5 && !s.bit (0x191000 + 0x20 * f + 0x14) 9
        && !s.runs.any (fun r => s.ownerOf r.g == f) && !s.queues.any (fun q => s.ownerOf q.1 == f && !q.2.heldRecs.isEmpty))).map
    (fun f => (s.setFld (0x191000 + 0x20 * f + 0x14) 9 1 1).bumpSeq (0x191000 + 0x20 * f + 0x14))

/-- The packets of a queue whose target is lost fail at once (R118, R148). -/
def State.tryLost (s : State) : Option State :=
  ((s.runs.map (·.g)).find? (fun g => s.holdOf g == .lost)).map s.failHead

/-- The next packet that a sequencer injects: the longest transaction waiter first (R112), then the scheduler's choice (R379). -/
def State.tryInject (s : State) : Option State :=
  match s.oldestTxnWaiter with
  | some g => some (s.injectHead g)
  | none =>
    let sqs := ((s.runs.filter (fun r => !r.unsent.isEmpty)).map (fun r => r.g / 256)).dedup
    sqs.findSome? (fun sq =>
      let r := (s.joinRings sq).pick 65536 sq
      r.1.map (fun g => r.2.injectHead g))

/-- What the node does next for a run, by its opcode, if anything. -/
def State.advance (s : State) (r : Run) : Option State :=
  let op := entOpcode r.ins.w
  if r.phase = .ending then (if s.writesLeft r.rid then none else some (s.completeNow r))
  else if op == 0x49 then (if r.readDone then some (s.checkOver r (r.buf 0)) else none)
  else if op.toNat < 0x30 then s.advanceMove r
  else s.advanceSetup r

/-- A fault record that the physical function writes untranslated, and that waited for the host (R360, R425). -/
def State.tryFaultRecs (s : State) : Option State :=
  if s.fld (page 0 0x190C) 1 2 = 2 ∧ s.recs .fault 0 ≠ [] ∧ s.hostReach 0 then some (s.recPump .fault 0 (s.recs .fault 0).length) else none

/-- One internal action, the first that is enabled. -/
def State.internal (s : State) : Option State :=
  s.trySlots
    <|> s.runs.findSome? s.advance
    <|> (s.queues.map (·.1)).findSome? (fun g => s.tryRecord g false)
    <|> s.tryFaultRecs
    <|> s.tryDeferred
    <|> s.tryEndColl
    <|> s.tryOldArrival
    <|> s.tryRecovery
    <|> s.tryKeyCmds
    <|> s.tryWinWaits
    <|> s.tryUnitWaits
    <|> s.tryPoolWaits
    <|> s.tryParks
    <|> (s.paths.map (·.1)).findSome? s.tryHeld
    <|> (s.paths.map (·.1)).findSome? s.tryDue
    <|> (s.paths.map (·.1)).findSome? s.tryWaitq
    <|> s.tryLost
    <|> s.tryInject
    <|> (s.queues.map (·.1)).findSome? s.tryReserved
    <|> s.tryPaused

/-- Internal actions until none is enabled, or n have been done. -/
def State.settleN : Nat → State → State
  | 0, s => s
  | n + 1, s => match s.internal with
    | none => s
    | some t => t.settleN n

/-- Every queue whose head packet is held back for another reason than when it was last looked at notes why (R112, R147, R238, R285). -/
def State.noteHolds (s : State) : State :=
  s.queues.foldl (fun t q => if t.holdOf q.1 = q.2.noted then t else t.noteHold q.1 (t.holdOf q.1)) s

/-- The node does everything that it can do on its own; queues that wait then note why, and the store's chains follow what is held. -/
def State.settle (s : State) : State := (s.settleN (2 ^ 24)).noteHolds.allocate

end Sys2Proof.Machine
end

