-- ==== Sys2Proof/Machine/Routing.lean ====
section
/-! DEFINITION. The router: row tables and apexes, route computation, egress queues and credits, notices, gauges and telemetry
(R22, R225 to R245, R257, R270, R274). -/

namespace Sys2Proof.Machine

open Host (Outcome)

/-! ## Ports and rows (R223 to R226, R234) -/

/-- DIM and PEER of a fabric port (R225). -/
def State.portDim (s : State) (p : Nat) : Nat := s.fld (0x110100 + 4 * p) 0 3
def State.portPeer (s : State) (p : Nat) : Nat := s.fld (0x110100 + 4 * p) 3 4

/-- The trunk to coordinate v of dimension n (R226), and its ports that carry traffic now. -/
def State.trunk (s : State) (n v : Nat) : List Nat := (List.range 32).filter (fun p => s.portDim p == n && s.portPeer p == v)
def State.running (s : State) (n v : Nat) : List Nat := (s.trunk n v).filter s.portRuns
/-- The trunk is up while one of its ports is up (R226). -/
def State.trunkUp (s : State) (n v : Nat) : Bool := (s.trunk n v).any s.portUp

/-- This node's coordinate, and the node at coordinate v of its row in dimension n. -/
def State.mine (s : State) (n : Nat) : Nat := coord s.self n
def State.rowNode (s : State) (n v : Nat) : Nat := withCoord s.self n v
def State.isLost (s : State) (id : Nat) : Bool := s.lost.contains id

/-- The link between two coordinates of this node's row in dimension n is down (R234): reported down, an own trunk that is not up,
or an end that is lost. -/
def State.linkDown (s : State) (n a b : Nat) : Bool :=
  s.downLinks.contains (n, min a b, max a b) || (a == s.mine n && !s.trunkUp n b) || (b == s.mine n && !s.trunkUp n a)
    || s.isLost (s.rowNode n a) || s.isLost (s.rowNode n b)

/-- Whether a coordinate qualifies as apex of the row (R235). -/
def State.apexOk (s : State) (n a : Nat) : Bool :=
  !s.isLost (s.rowNode n a)
    && (List.range (s.dimSize n)).all (fun b => b == a || s.isLost (s.rowNode n b) || !s.linkDown n a b)

/-- The apex of this node's row in dimension n (R235). -/
def State.apex (s : State) (n : Nat) : Option Nat := (List.range (s.dimSize n)).reverse.find? (s.apexOk n)

/-- The row table of dimension n has changed: ROUTE_APEX shows the apex, and a row that loses it raises ESCAPE_BROKEN once (R235). -/
def State.showApex (s : State) (n : Nat) : State :=
  match s.apex n with
  | some a => (s.setFld 0x110010 (4 * n) 4 a).setFld 0x110010 (20 + n) 1 0
  | none =>
    let s' := (s.setFld 0x110010 (4 * n) 4 0).setFld 0x110010 (20 + n) 1 1
    if s.bit 0x110010 (20 + n) then s' else s'.raise 0 escapeBroken noQueue 0 n 0 0

/-- Every row table is looked at again, and packets held for a change are routed again, before those that came after them (R22, R235, R236). -/
def State.rowsChanged (s : State) : State :=
  let s := s.dims.foldl State.showApex s
  { s with routeQ := s.heldEsc ++ s.routeQ, heldEsc := [] }

/-! ## Egress (R22, R243, R257) -/

/-- Bytes queued for egress on a port, in one class and in all (R232, R245). -/
def packetBytes (x : Packet) : Nat := 64 + x.payload.length
def State.occ (s : State) (p : Nat) (cls : BitVec 3) : Nat :=
  (((s.port p).egress.filter (fun x => x.pkt.hdr.cls == cls)).map (fun x => packetBytes x.pkt)).sum
def State.occAll (s : State) (p : Nat) : Nat := ((s.port p).egress.map (fun x => packetBytes x.pkt)).sum

/-- The first queued packet, in order within its pair, whose pair has the credit (R22, R257). -/
def firstFit (x : Port) : List Nat → List InPkt → Option InPkt
  | _, [] => none
  | blocked, e :: es =>
    let k := pairKey e.pkt.hdr.cls e.pkt.hdr.vc
    if blocked.contains k then firstFit x blocked es
    else if slotsOf e.pkt.payload.length ≤ (x.pair k).avail then some e
    else firstFit x (k :: blocked) es

/-- A queued packet leaves: credits are used, HOPS rises, CE is set at the threshold, and its cells here are freed (R19, R231, R243, R257). -/
def State.transmit (s : State) (p : Nat) (e : InPkt) : State :=
  let x := s.port p
  let k := pairKey e.pkt.hdr.cls e.pkt.hdr.vc
  let c := x.pair k
  let mark := decide (1 ≤ e.pkt.hdr.cls.toNat) && decide (s.occ p e.pkt.hdr.cls ≥ s.fld 0x11001C 0 16 * 1024)
  let pkt : Packet := { e.pkt with hdr := { e.pkt.hdr with hops := e.pkt.hdr.hops + 1, ce := e.pkt.hdr.ce || mark } }
  let x := x.setPair k { c with used := c.used + BitVec.ofNat 32 (slotsOf e.pkt.payload.length) }
  let x := { x with
    egress := x.egress.erase e, tx := x.tx + 64 * slotsOf e.pkt.payload.length, marks := if mark then x.marks + 1 else x.marks }
  ((s.setPort p x).emit (.packet p pkt)).freePkt e

/-- Sends what the credits of a port allow. -/
def State.drainN : Nat → State → Nat → State
  | 0, s, _ => s
  | n + 1, s, p =>
    if s.portRuns p then
      match firstFit (s.port p) [] (s.port p).egress with
      | some e => (s.transmit p e).drainN n p
      | none => s
    else s

/-- The messages of an attach port that wait for a credit go, oldest first, as far as credits reach. -/
def State.drainAtt (s : State) (p : Nat) : State :=
  (s.attWait.filter (fun w => w.2.1 == p)).foldl (fun s w =>
    if (s.attWait.find? (fun v => v.2.1 == p)) == some w then
      match s.attachWire w.1 p w.2.2.1 w.2.2.2 with
      | some t => { t with attWait := t.attWait.erase w }
      | none => s
    else s) s

def State.drain (s : State) (p : Nat) : State := (s.drainN ((s.port p).egress.length + 1) p).drainAtt p

/-- Queues a packet for egress on a port. -/
def State.enqueue (s : State) (p : Nat) (e : InPkt) : State := (s.modPort p (fun x => { x with egress := x.egress ++ [e] })).drain p

/-! ## Notices (R229, R270, R274) -/

/-- The KIND of a notice (R270). -/
def noticeCode : NoticeKind → Nat
  | .deadNode => 0x20
  | .rankClaim => 0x21
  | .linkDown => 0x22
  | .linkUp => 0x23
  | .castOn => 0x24

/-- A notice or chunk-loss packet leaves on a port toward its neighbour, on channel E of class CTL (R229, R282). A packet of this node carries its
lowest unacknowledged PSN toward the neighbour (R230). -/
def State.sendCtl (s : State) (p : Nat) (src : BitVec 20) (body : Body) : State :=
  let dst := withCoord s.self (s.portDim p) (s.portPeer p)
  let h : Hdr := { newHdr 0 0 with vc := 2, src := src, dst := BitVec.ofNat 20 dst, lup := if src.toNat = s.self then (s.path dst).lup else 0 }
  s.enqueue p { pkt := { hdr := h, body, payload := [] }, port := none, originated := true }

/-- The up fabric ports but one (R302), and those of one dimension (R234). -/
def State.floodPorts (s : State) (except : Option Nat) : List Nat :=
  (List.range 32).filter (fun p => decide (s.portDim p < 5) && s.portUp p && except != some p)
def State.rowPorts (s : State) (n : Nat) (except : Option Nat) : List Nat := (s.floodPorts except).filter (fun p => s.portDim p == n)

/-- The next FSEQ of a kind (R274). -/
def State.nextFseq (s : State) (k : NoticeKind) : Word × State :=
  let v := Tab.get (fun _ => 0) s.fseqOut (noticeCode k) + 1
  (v, { s with fseqOut := Tab.put (fun _ => 0) s.fseqOut (noticeCode k) v })

/-- A notice with nothing but its subject. -/
def newNotice (subject : Nat) : NoticeF :=
  { dim := 0, coordA := 0, coordB := 0, fseq := 0, subject := BitVec.ofNat 20 subject, reason := 0, comm := 0, rank := 0, cgen := 0 }

/-- This node sends a notice of its own on the ports given. -/
def State.announce (s : State) (k : NoticeKind) (n : NoticeF) (ports : List Nat) : State :=
  let f := s.nextFseq k
  ports.foldl (fun s p => s.sendCtl p (BitVec.ofNat 20 s.self) (.notice k { n with fseq := f.1 })) f.2

/-- A notice is acted on only if its FSEQ is above the last one seen from its source for its kind (R274). -/
def State.noticeFresh (s : State) (k : NoticeKind) (src : BitVec 20) (n : NoticeF) : Bool :=
  decide (Tab.get (fun _ => 0) s.fseqSeen (noticeCode k * 2 ^ 20 + src.toNat) < n.fseq)
def State.noteFseq (s : State) (k : NoticeKind) (src : BitVec 20) (n : NoticeF) : State :=
  { s with fseqSeen := Tab.put (fun _ => 0) s.fseqSeen (noticeCode k * 2 ^ 20 + src.toNat) n.fseq }

/-- Takes a notice off the delivered packets, drops it if its source is lost (R302) or it is not fresh, and goes on with k. -/
def State.takeNotice (s : State) (kind : NoticeKind) (h : Hdr) (n : NoticeF) (k : State → State) : State :=
  let s := s.consume { hdr := h, body := .notice kind n, payload := [] }
  if s.boundOff then s
  else if s.isLost h.src.toNat && kind != .castOn then s.count 0x260078
  else if h.src.toNat = s.self || !s.noticeFresh kind h.src n then s
  else k (s.noteFseq kind h.src n)

/-- LINK_DOWN or LINK_UP of the link to coordinate v of dimension n, to every other member of the row (R234). -/
def State.announceLink (s : State) (k : NoticeKind) (n v : Nat) : State :=
  s.announce k { newNotice s.self with dim := BitVec.ofNat 3 n, coordA := BitVec.ofNat 8 (s.mine n), coordB := BitVec.ofNat 8 v } (s.rowPorts n none)

/-- The row of a notice is a row of this node (R234). -/
def State.inMyRow (s : State) (n : NoticeF) : Bool := (s.diff s.self n.subject.toNat).all (fun d => d == n.dim.toNat)

/-- The row table takes a link in or out, and the notice goes on over this node's links of the row (R234). -/
def State.applyLink (s : State) (p : Nat) (k : NoticeKind) (h : Hdr) (n : NoticeF) : State :=
  if !s.inMyRow n then s
  else
    let a := n.coordA.toNat
    let b := n.coordB.toNat
    let e := (n.dim.toNat, min a b, max a b)
    let links := if k == .linkDown then (if s.downLinks.contains e then s.downLinks else s.downLinks ++ [e]) else s.downLinks.filter (· != e)
    let s := ({ s with downLinks := links } : State).rowsChanged
    (s.rowPorts n.dim.toNat (some p)).foldl (fun s q => s.sendCtl q h.src (.notice k n)) s

def execLinkDownNotice (p : Nat) (h : Hdr) (n : NoticeF) (s : State) : Outcome State Fault Refusal :=
  .next (s.takeNotice .linkDown h n (fun s => s.applyLink p .linkDown h n))

def execLinkUpNotice (p : Nat) (h : Hdr) (n : NoticeF) (s : State) : Outcome State Fault Refusal :=
  .next (s.takeNotice .linkUp h n (fun s => s.applyLink p .linkUp h n))

/-- The links of this node's rows that are down at this node: dimension and far coordinate. -/
def State.ownDown (s : State) : List (Nat × Nat) :=
  s.dims.flatMap (fun n => ((List.range (s.dimSize n)).filter (fun v => v != s.mine n && !(s.trunk n v).isEmpty && !s.trunkUp n v)).map (fun v => (n, v)))

def execLinkReannounce (s : State) : Outcome State Fault Refusal :=
  .next (if s.boundOff then s else s.ownDown.foldl (fun s l => s.announceLink .linkDown l.1 l.2) s)

/-! ## Route computation (R231 to R236) -/

/-- The cost of a port for a class (R232). -/
def State.cost (s : State) (cls : BitVec 3) (p : Nat) : Nat :=
  s.occ p cls + s.fld (0x13000C + 0x20 * p) 0 16 * 1024 + (s.port p).loadRx * 4096 / 2 ^ s.fld 0x110014 8 3

/-- The first port of lowest cost in a list (ties to the earlier). -/
def State.cheapest (s : State) (cls : BitVec 3) (ps : List Nat) : Option Nat :=
  ps.foldl (fun b p => match b with | none => some p | some q => if s.cost cls p < s.cost cls q then some p else some q) none

/-- target() of R231. -/
def hdrTarget (h : Hdr) (here : Nat) : Nat := if h.vphase then withCoord here h.vdim.toNat h.vcoord.toNat else h.dst.toNat

/-- Ports to the target in some dimensions, and where there is none those to the apex of the first (R232). -/
def State.candidates (s : State) (t : Nat) (ds : List Nat) : List Nat :=
  let direct := ds.flatMap (fun n => s.running n (coord t n))
  if !direct.isEmpty then direct
  else match ds with
    | [] => []
    | n :: _ => match s.apex n with
      | some a => if a != s.mine n then s.running n a else []
      | none => []

def State.adaptiveChoice (s : State) (h : Hdr) : Option Nat :=
  let t := hdrTarget h s.self
  s.cheapest h.cls (s.candidates t (s.diff s.self t))

def State.fixedNext (s : State) (h : Hdr) : Option Nat :=
  let t := hdrTarget h s.self
  s.cheapest h.cls (s.candidates t ((s.diff s.self t).take 1))

/-- A port of a trunk for an escape packet: one that carries traffic, or one that a fast retrain pauses (R265). -/
def State.escapePort (s : State) (h : Hdr) (n v : Nat) : Option Nat :=
  (s.cheapest h.cls (s.running n v)).orElse (fun _ => (s.trunk n v).find? s.portUp)

/-- The hop in dimension n toward coordinate b, by the apex where the link is down (R236). -/
def State.escapeVia (s : State) (h : Hdr) (n b : Nat) : Option Nat :=
  if !s.linkDown n (s.mine n) b then s.escapePort h n b
  else match s.apex n with
    | some a => s.escapePort h n a
    | none => none

/-- escape_next of R236; none holds the packet. -/
def State.escapeNext (s : State) (h : Hdr) : Option Nat :=
  match s.diff s.self h.dst.toNat with
  | [] => none
  | n :: rest =>
    if s.isLost (s.rowNode n (coord h.dst.toNat n)) then
      match rest.find? (fun m => !s.isLost (s.rowNode m (coord h.dst.toNat m))) with
      | some m => s.escapeVia h m (coord h.dst.toNat m)
      | none => none
    else s.escapeVia h n (coord h.dst.toNat n)

/-- One step of the generator (R233). -/
def lfsrStep (x : Word) : Word := if x.getLsbD 0 then (x >>> 1) ^^^ 0x80200003 else x >>> 1
/-- draw(k): 32 steps, then a port index (R233). -/
def lfsrDraw (x : Word) (k : Nat) : Nat × Word :=
  let y := (List.range 32).foldl (fun v _ => lfsrStep v) x
  (y.toNat * k / 2 ^ 32, y)

/-- vset of R233, in ascending port number. -/
def State.vset (s : State) (dst : Nat) : List Nat :=
  let ds := s.diff s.self dst
  (List.range 32).filter (fun p => s.portRuns p && ds.contains (s.portDim p) && s.portPeer p != s.mine (s.portDim p)
    && s.portPeer p != coord dst (s.portDim p) && decide (s.portPeer p < s.dimSize (s.portDim p)))

/-- ROUTE_LB_CTL (R214). -/
def State.routeFixed (s : State) : Bool := s.bit 0x110000 1
def State.valiantOff (s : State) : Bool := s.bit 0x110000 0 || s.routeFixed

/-- valiant_choice of R233: the port of the Valiant hop, and the generator after the draws. -/
def State.valiantChoice (s : State) (pkt : Packet) : Option Nat × State :=
  let h := pkt.hdr
  let dst := h.dst.toNat
  let vs := s.vset dst
  if s.valiantOff || h.ackpkt || h.cls == 0 || vs.isEmpty then (none, s)
  else
    let d1 := lfsrDraw s.lfsr vs.length
    let d2 := lfsrDraw d1.2 vs.length
    let s : State := { s with lfsr := d2.2 }
    match vs[d1.1]?, vs[d2.1]? with
    | some p1, some p2 =>
      let pv := if s.cost h.cls p2 < s.cost h.cls p1 then p2 else p1
      let ds := s.diff s.self dst
      let n := ds.length
      let minimal := ds.flatMap (fun d => s.running d (coord dst d))
      (match s.cheapest h.cls minimal with
       | none => some pv
       | some m => if s.cost h.cls m * n > s.cost h.cls pv * (n + 1) + s.fld 0x110014 0 8 * 1024 then some pv else none, s)
    | _, _ => (none, s)

/-- A packet with another header. -/
def InPkt.withHdr (x : InPkt) (h : Hdr) : InPkt := { x with pkt := { x.pkt with hdr := h } }

/-- A packet on the escape channel with its port; no port holds it until a row table changes (R231, R236). -/
def State.escapeHop (s : State) (x : InPkt) : InPkt × Option Nat :=
  let h := { x.pkt.hdr with vc := 2, vphase := false }
  (x.withHdr h, s.escapeNext h)

/-- The next hop of route() for a packet that is not for this node: the packet as it will leave, and its port (R231). A packet without a minimal or
fixed port takes the escape channel, and one that is on it stays there (R229). -/
def State.nextHop (s : State) (x : InPkt) : (InPkt × Option Nat) × State :=
  let h := x.pkt.hdr
  let h := if h.vphase && s.mine h.vdim.toNat == h.vcoord.toNat then { h with vphase := false, vc := if h.vc == 0 then 1 else h.vc } else h
  let x := x.withHdr h
  if h.vc == 2 then (s.escapeHop x, s)
  else
    let v := if x.originated then s.valiantChoice x.pkt else (none, s)
    let s := v.2
    match v.1 with
    | some p =>
      let h := { h with vc := 0, vdim := BitVec.ofNat 3 (s.portDim p), vcoord := BitVec.ofNat 4 (s.portPeer p), vphase := true }
      ((x.withHdr h, some p), s)
    | none => match (if s.routeFixed then s.fixedNext h else s.adaptiveChoice h) with
      | some p => ((x, some p), s)
      | none => (s.escapeHop x, s)

/-- A packet is queued on the port of its hop, or held. -/
def State.hop (s : State) (x : InPkt × Option Nat) : State :=
  match x.2 with
  | some p => s.enqueue p x.1
  | none => { s with heldEsc := s.heldEsc ++ [x.1] }

/-- A packet takes the escape channel, or is held until a row table changes (R231, R236). -/
def State.escape (s : State) (x : InPkt) : State := s.hop (s.escapeHop x)

/-- route() of R231 for a packet that is not for this node. -/
def State.routeOn (s : State) (x : InPkt) : State :=
  if x.pkt.hdr.hops == 15 then (s.count 0x260000).freePkt x
  else (s.nextHop x).2.hop (s.nextHop x).1

/-- The oldest packet that waits for a route is delivered here or routed on (R231). A node that has bound off routes nothing (R300). -/
def execPacketRoute (s : State) : Outcome State Fault Refusal :=
  .next (match s.routeQ with
    | [] => s
    | x :: rest =>
      let s : State := { s with routeQ := rest }
      if s.boundOff then s.freePkt x
      else if x.pkt.hdr.dst.toNat = s.self then { s with localIn := s.localIn ++ [x] }
      else s.routeOn x)

/-- The oldest packet on an adaptive channel of a port that has waited ESC_WAIT takes the escape channel (R231). -/
def execEscapeTimeout (p : Nat) (s : State) : Outcome State Fault Refusal :=
  .next (match (s.port p).egress.find? (fun e => e.pkt.hdr.vc != 2) with
    | none => s
    | some e => if s.routeFixed then s else (s.modPort p (fun x => { x with egress := x.egress.erase e })).escape e)

/-! ## Gauges and telemetry (R244, R245) -/

/-- G_MAX, and a gauge in units of 0.5 GB/s. -/
def State.gMax (s : State) : Nat := s.fld 0x110020 16 13

/-- The update of R244 at a context that had packets acknowledged in the period. -/
def State.updateGauge (s : State) (n : Nat) : State :=
  let p := s.path n
  let f : Rat := (p.newEchoed : Rat) / (p.newAcked : Rat)
  let k : Rat := 1 / (2 ^ s.fld 0x11001C 24 4 : Nat)
  let alpha := p.alpha * (1 - k) + f * k
  let g := p.gauge.getD (s.gMax : Rat)
  if f > 0 then
    s.setPath n { p with gauge := some (max (s.fld 0x110020 0 13 : Rat) (g * (1 - alpha / 2))), alpha, quiet := 0, newAcked := 0, newEchoed := 0 }
  else
    let step := if p.quiet + 1 ≥ s.fld 0x11001C 28 4 then s.fld 0x110024 16 13 else s.fld 0x110024 0 13
    s.setPath n { p with gauge := some (min (s.gMax : Rat) (g + step)), alpha, quiet := p.quiet + 1, newAcked := 0, newEchoed := 0 }

def execGaugeUpdate (node : BitVec 20) (s : State) : Outcome State Fault Refusal :=
  .next (if (s.path node.toNat).newAcked = 0 then s else s.updateGauge node.toNat)

/-- IDLE without an unacknowledged packet: the gauge returns to its start (R244). -/
def execGaugeIdle (node : BitVec 20) (s : State) : Outcome State Fault Refusal :=
  .next (let p := s.path node.toNat
    if p.retained.all (·.acked) then s.setPath node.toNat { p with gauge := none, alpha := 1, quiet := 0 } else s)

/-- The net rate of a port in B per ns, by LANES: 32, 64 or 128 for a fabric port, twice that for an attach port (R268). -/
def State.portRate (s : State) (p : Nat) : Nat :=
  (match s.fld (plink p 8) 11 2 with | 0 => 0 | 1 => 32 | 2 => 64 | _ => 128) * (if p < 32 then 1 else 2)

/-- Utilisation over 8 µs in units of 2^-16 of the port's net rate. -/
def State.util (s : State) (p bytes : Nat) : Nat := if s.portRate p = 0 then 0 else min 65535 (bytes * 65536 / (s.portRate p * 8000))

/-- LOAD of this node: the mean over its up fabric ports of the bytes queued, in units of 4 KiB, at most 255 (R244). -/
def State.load (s : State) : Nat :=
  let ps := s.floodPorts none
  if ps.isEmpty then 0 else min 255 ((ps.map s.occAll).sum / ps.length / 4096)

/-- The telemetry of one port at the end of a period; stall is the number of cycles in which a packet waited for a credit (R245). -/
def State.sampleOne (s : State) (p : Nat) (stall : Word) : State :=
  let b := 0x130000 + 0x20 * p
  let x := s.port p
  let s := (s.setFld b 0 16 (s.util p x.tx)).setFld b 16 16 (s.util p x.rx)
  let s := (s.setFld (b + 8) 0 8 x.loadRx).setFld (b + 8) 8 8 x.loadTx
  (((s.setReg (b + 4) (BitVec.ofNat 32 (s.occAll p))).setReg (b + 0x10) (BitVec.ofNat 32 x.marks)).setReg (b + 0x14) stall).setPort p
    { x with tx := 0, rx := 0, marks := 0 }

def execTelemetrySample (stall : List (BitVec 32)) (s : State) : Outcome State Fault Refusal :=
  .next ((List.range 32).foldl (fun s p => s.sampleOne p (stall.getD p 0)) s)

end Sys2Proof.Machine
end

