-- ==== Sys2Proof/Machine/Wire.lean ====
section
/-! DEFINITION. Packets as bytes: the 64 B header with its fields by KIND, its CRC-32C, and the headers of attach packets
(R230, R239, R254, R270 to R274, R364). -/

namespace Sys2Proof.Machine

/-- The fields of a REQUEST (R271). -/
def parseReq (b : List Byte) : ReqF where
  opcode := hbv b 33 1 0 8
  iqueue := hbv b 34 2 0 14
  placed := hbit b 34 2 14
  instid := hbv b 36 4 0 32
  addr := hbv b 40 8 0 64
  key := hbv b 48 4 0 32
  comm := hbv b 52 3 0 24
  size := hbit b 55 1 0
  fetch := hbit b 55 1 1
  seterr := hbit b 55 1 2
  clrerr := hbit b 55 1 3
  arg := hbv b 56 4 0 32

/-- The fields of a RESPONSE (R272). -/
def parseResp (b : List Byte) : RespF where
  opcode := hbv b 33 1 0 8
  iqueue := hbv b 34 2 0 14
  instid := hbv b 36 4 0 32
  rpsn := hbv b 40 4 0 32
  roff := hbv b 44 4 0 32
  result := hbv b 48 8 0 64
  swapped := hbit b 56 1 0

/-- The fields of a collective kind (R273). -/
def parseColl (b : List Byte) : CollF where
  opcode := hbv b 33 1 0 8
  comm := hbv b 34 3 0 24
  npkt := hbv b 37 1 0 6
  exc := hbit b 37 1 6
  cgen := hbv b 38 2 0 16
  cseq := hbv b 40 4 0 32
  chunk := hbv b 44 4 0 26
  pidx := hbv b 44 4 26 6
  srank := hbv b 48 3 0 20
  pdig := hbv b 52 4 0 32
  tcrc := hbv b 56 8 0 64

/-- The fields of a notice (R274). -/
def parseNotice (b : List Byte) : NoticeF where
  dim := hbv b 33 1 0 3
  coordA := hbv b 34 1 0 8
  coordB := hbv b 35 1 0 8
  fseq := hbv b 36 4 0 32
  subject := hbv b 40 3 0 20
  reason := hbv b 43 1 0 8
  comm := hbv b 44 3 0 24
  rank := hbv b 48 3 0 20
  cgen := hbv b 52 2 0 16

/-- The fields of a delivery acknowledgement (R239). -/
def parseAck (b : List Byte) : AckF where
  ackBase := hbv b 32 4 0 32
  okmap := hbv b 36 8 0 64
  echo := hbv b 44 2 0 16
  fstatus := hbv b 46 1 0 8
  freason := hbv b 47 1 0 8
  fpsn := hbv b 48 4 0 32

/-- A KIND, its classes and its layout (R270); none for a reserved KIND or a class that does not match. -/
def parseBody (h : Hdr) (b : List Byte) : Option Body :=
  let kind := hdrBits b 32 1 0 8
  let cls := h.cls.toNat
  let coll := fun (k : CollKind) (c : Nat) => if cls = c then some (Body.coll k (parseColl b)) else none
  let notice := fun (k : NoticeKind) => if cls = 0 then some (Body.notice k (parseNotice b)) else none
  if h.ackpkt then (if cls = 1 then some (.ack (parseAck b)) else none)
  else match kind with
    | 0x01 => if cls = 4 ∨ cls = 5 then some (.request (parseReq b)) else none
    | 0x02 => if cls = 1 then some (.response (parseResp b)) else none
    | 0x10 => coll .contrib 3
    | 0x11 => coll .result 2
    | 0x12 => coll .data 2
    | 0x13 => coll .count 3
    | 0x14 => coll .grant 2
    | 0x15 => coll .resendReq 3
    | 0x16 => coll .acceptAck 1
    | 0x17 => coll .nak 1
    | 0x18 => coll .resultAck 1
    | 0x19 => coll .notReady 1
    | 0x1A => coll .chunkLoss 0
    | 0x20 => notice .deadNode
    | 0x21 => notice .rankClaim
    | 0x22 => notice .linkDown
    | 0x23 => notice .linkUp
    | 0x24 => notice .castOn
    | _ => none

/-- The header with VC, VPHASE, CE, HOPS and CRC32C taken as 0 (R230). -/
def crcView (b : List Byte) : List Byte :=
  b.mapIdx (fun i x => if i = 5 then x &&& 0xE7 else if i = 6 then x &&& 0xCF else if i = 7 then x &&& 0xF0
    else if 24 ≤ i ∧ i < 28 then 0 else x)

/-- CRC32C of a packet (R230), and whether the header carries it. -/
def packetCrc (head payload : List Byte) : BitVec 32 := crc32c (crcView head ++ payload)
def crcOk (head payload : List Byte) : Bool := hbv head 24 4 0 32 == packetCrc head payload

/-! ## Packets as they leave -/

/-- A flag at a bit position. -/
def flagAt (b : Bool) (n : Nat) : Nat := if b then 2 ^ n else 0

/-- Bytes 0 to 31 of a header, with its CRC32C (R230). -/
def headFields (h : Hdr) (crc : BitVec 32) : List Byte :=
  leBytes 8 (h.dst.toNat + h.src.toNat * 2 ^ 20 + h.cls.toNat * 2 ^ 40 + h.vc.toNat * 2 ^ 43 + h.vdim.toNat * 2 ^ 45 + h.vcoord.toNat * 2 ^ 48
      + flagAt h.vphase 52 + flagAt h.ce 53 + flagAt h.ackpkt 54 + h.hops.toNat * 2 ^ 56)
    ++ leBytes 4 h.psn.toNat ++ leBytes 4 h.lup.toNat ++ leBytes 8 (h.plen.toNat + h.ttag.toNat * 2 ^ 16) ++ leBytes 4 crc.toNat ++ leBytes 4 0

/-- KIND of the collective kinds and of the notices (R270). -/
def collKindCode : CollKind → Byte
  | .contrib => 0x10
  | .result => 0x11
  | .data => 0x12
  | .count => 0x13
  | .grant => 0x14
  | .resendReq => 0x15
  | .acceptAck => 0x16
  | .nak => 0x17
  | .resultAck => 0x18
  | .notReady => 0x19
  | .chunkLoss => 0x1A
def noticeKindCode : NoticeKind → Byte
  | .deadNode => 0x20
  | .rankClaim => 0x21
  | .linkDown => 0x22
  | .linkUp => 0x23
  | .castOn => 0x24

/-- Bytes 32 to 63 of a header (R239, R270 to R274). -/
def bodyBytes : Body → List Byte
  | .request r => [0x01, r.opcode] ++ leBytes 2 (r.iqueue.toNat + flagAt r.placed 14) ++ leBytes 4 r.instid.toNat ++ leBytes 8 r.addr.toNat
      ++ leBytes 4 r.key.toNat ++ leBytes 3 r.comm.toNat ++ leBytes 1 (flagAt r.size 0 + flagAt r.fetch 1 + flagAt r.seterr 2 + flagAt r.clrerr 3)
      ++ leBytes 4 r.arg.toNat ++ leBytes 4 0
  | .response r => [0x02, r.opcode] ++ leBytes 2 r.iqueue.toNat ++ leBytes 4 r.instid.toNat ++ leBytes 4 r.rpsn.toNat ++ leBytes 4 r.roff.toNat
      ++ leBytes 8 r.result.toNat ++ leBytes 1 (flagAt r.swapped 0) ++ leBytes 7 0
  | .coll k c => [collKindCode k, c.opcode] ++ leBytes 3 c.comm.toNat ++ leBytes 1 (c.npkt.toNat + flagAt c.exc 6) ++ leBytes 2 c.cgen.toNat
      ++ leBytes 4 c.cseq.toNat ++ leBytes 4 (c.chunk.toNat + c.pidx.toNat * 2 ^ 26) ++ leBytes 3 c.srank.toNat ++ leBytes 1 0
      ++ leBytes 4 c.pdig.toNat ++ leBytes 8 c.tcrc.toNat
  | .notice k n => [noticeKindCode k] ++ leBytes 1 n.dim.toNat ++ [n.coordA, n.coordB] ++ leBytes 4 n.fseq.toNat ++ leBytes 3 n.subject.toNat
      ++ [n.reason] ++ leBytes 3 n.comm.toNat ++ leBytes 1 0 ++ leBytes 3 n.rank.toNat ++ leBytes 1 0 ++ leBytes 2 n.cgen.toNat ++ leBytes 10 0
  | .ack a => leBytes 4 a.ackBase.toNat ++ leBytes 8 a.okmap.toNat ++ leBytes 2 a.echo.toNat ++ [a.fstatus, a.freason] ++ leBytes 4 a.fpsn.toNat
      ++ leBytes 12 0

/-- The 64 B header of a packet: the source computes CRC32C over the header and the payload (R230). -/
def headBytes (p : Packet) : List Byte :=
  let b := bodyBytes p.body
  headFields p.hdr (packetCrc (headFields p.hdr 0 ++ b) p.payload) ++ b

/-- The class and ACKPKT that a body travels with (R229, R270). -/
def Body.fits (h : Hdr) : Body → Bool
  | .ack _ => h.ackpkt && h.cls == 1
  | .request _ => !h.ackpkt && (h.cls == 4 || h.cls == 5)
  | .response _ => !h.ackpkt && h.cls == 1
  | .coll k _ => !h.ackpkt && h.cls == (match k with
    | .contrib | .count | .resendReq => 3
    | .result | .data | .grant => 2
    | .acceptAck | .nak | .resultAck | .notReady => 1
    | .chunkLoss => 0)
  | .notice _ _ => !h.ackpkt && h.cls == 0

/-- The message of an attach packet (R364). -/
def parseAttach (b payload : List Byte) : AMsg where
  akind := hbv b 0 8 0 8
  tag := hbv b 0 8 8 16
  status := hbv b 16 8 16 8
  reason := hbv b 16 8 24 8
  addr := hbv b 32 8 0 64
  arg0 := hbv b 40 8 0 64
  arg1 := hbv b 48 8 0 64
  arg2 := hbv b 56 4 0 32
  payload := payload

/-- The 64 B header of an attach packet of this node, and its CRC32C over it and the payload (R364). -/
def attachHead (psn lup : Word) (m : AMsg) : List Byte :=
  let cls := m.key / 4
  let b := fun (crc : BitVec 32) => leBytes 8 (m.akind.toNat + m.tag.toNat * 2 ^ 8 + cls * 2 ^ 40 + 2 ^ 43) ++ leBytes 4 psn.toNat ++ leBytes 4 lup.toNat
    ++ leBytes 8 (m.payload.length + m.status.toNat * 2 ^ 16 + m.reason.toNat * 2 ^ 24) ++ leBytes 4 crc.toNat ++ leBytes 4 0
    ++ leBytes 8 m.addr.toNat ++ leBytes 8 m.arg0.toNat ++ leBytes 8 m.arg1.toNat ++ leBytes 4 m.arg2.toNat ++ leBytes 4 0
  b (packetCrc (b 0) m.payload)

/-- A status byte of an accelerator: reserved values are POISON (R365). -/
def attStatus (x : BitVec 8) : AttStatus := if x = 0 then .ok else if x = 1 then .addrError else .poison

/-- The command that an attach message of an accelerator is (R365); none for a reserved AKIND. -/
def attachCommand (a : Nat) (m : AMsg) (key : Word) : Option Instr :=
  match m.akind.toNat with
  | 0x11 => some (.placeRsp a m.tag (attStatus m.status))
  | 0x12 => some (.ardData a m.tag m.arg2.toNat m.payload (attStatus m.status))
  | 0x13 => some (.aatomRsp a m.tag m.arg0 (attStatus m.status))
  | 0x21 => some (.doorbell a (m.arg2.setWidth 14) (m.addr.setWidth 8) m.arg0)
  | 0x22 => some (.counter a (m.arg2.setWidth 15)
      (match m.arg2.toNat / 2 ^ 16 % 4 with | 0 => .add | 1 => .setErr | 2 => .clrErr | _ => .write) m.arg0)
  | 0x23 => some (.cntRd a m.tag (m.arg2.setWidth 15))
  | 0x24 => some (.lrd a m.tag m.addr m.arg2.toNat key)
  | 0x25 => some (.lwr a m.tag m.addr key m.payload)
  | 0x26 => some (.latom a m.tag m.addr key (m.arg2.getLsbD 1) (m.arg2.getLsbD 0) m.arg0 m.arg1)
  | _ => none

end Sys2Proof.Machine
end

