-- ==== Sys2Proof/Machine/Links.lean ====
section
/-! DEFINITION. The port engines: ports going down and up, training, swatch, fast retrains, credits, audits and keepalives
(R251, R254 to R269, R275). -/

namespace Sys2Proof.Machine

open Host (Outcome)

/-! ## DOWN_CAUSE (R275) -/

def dcLos : Nat := 1
def dcLockLost : Nat := 2
def dcKeepalive : Nat := 3
def dcPartnerBindOff : Nat := 4
def dcErrorRate : Nat := 5
def dcNodeBindOff : Nat := 6
def dcHold : Nat := 7
def dcSwatch : Nat := 8
def dcMiswired : Nat := 9
def dcTrain : Nat := 10

/-! ## Going down (R262) -/

/-- The credit counts of a port are 0 in a new generation: a packet that came in on it keeps its cells until its last reader has finished, and
returns no slot to the new counts (R258, R262, R265, R282; log entry 8). -/
def State.zeroCredits (s : State) (p : Nat) : State :=
  s.modPort p (fun x => { x with pairs := [], gen := x.gen + 1, cur := none, last := none })

/-- Partly received packets are discarded, and each is counted (R254, R262). -/
def State.abortPartial (s : State) (p : Nat) : State :=
  let x := s.port p
  let n := (if x.cur.isSome then 1 else 0) + (if x.last.isSome then 1 else 0)
  if n = 0 then s else s.count (pctr p 0x20) n

/-- The receiver of a port has no lock, and what training finds is to be found again (R251, R264). -/
def Port.unlock (x : Port) : Port := { x with lock := false, good := 0, bad := 0, uncTimes := [], identOk := false, limits := [] }

/-- The self-clearing fields RETRAIN and SWATCH read 1 while what they started goes on (R5, R275; log entry 56). -/
def State.setRetrain (s : State) (p v : Nat) : State := s.setFld (plink p 0) 1 1 v
def State.setSwatchSc (s : State) (p v : Nat) : State := s.setFld (plink p 0) 2 1 v
def State.startedDone (s : State) (p : Nat) : State := (s.setRetrain p 0).setSwatchSc p 0

/-- The groups of accelerators forget a port (R362). -/
def State.leaveGroups (s : State) (p : Nat) : State :=
  (List.range 4).foldl (fun s a =>
    let x := s.accel a
    if x.links.any (·.1 == p) then
      { (s.setAccel a { x with links := x.links.filter (·.1 != p) }).setFld (0x1A0000 + 0x10 * a) (9 + (p - 32)) 1 0 with
        attWait := s.attWait.filter (fun w => w.2.1 != p) }
    else s) s

/-- A port goes down: to DOWN, or to HELD for a reason. Packets queued for it go back to the router, credit counts are 0, and LINK_DOWN is sent
where its trunk is down with it (R226, R234, R262). -/
def State.portDown (s : State) (p cause : Nat) (held : HeldBy) : State :=
  let was := s.portUp p
  let s := s.abortPartial p
  let back := (s.port p).egress
  let s := (s.modPort p (fun x => { x.unlock with egress := [], fast := none, sw := none, heldBy := held })).zeroCredits p
  let s : State := { s with routeQ := back ++ s.routeQ }
  let s := ((s.setFld (plink p 8) 11 4 0).setFld (plink p 8) 15 4 cause).setPstate p (if held = .nothing then psDown else psHeld)
  let s := if held = .nothing then s else s.startedDone p
  if p ≥ 32 then s.leaveGroups p
  else
    let n := s.portDim p
    let v := s.portPeer p
    if was && decide (n < 5) && !s.trunkUp n v then (if s.boundOff then s.rowsChanged else (s.rowsChanged).announceLink .linkDown n v) else s

/-- The ports of an accelerator's group go down with cause ERROR_RATE (R366). -/
def State.attachPortDown (s : State) (p : Nat) : State := s.portDown p dcErrorRate .nothing

/-! ## Fast retrains (R260, R265, R269) -/

/-- A fast retrain pauses the port; the fifth within 1 s is full training from DOWN instead (R265). cause is its DOWN_CAUSE then. -/
def State.fastRetrain (s : State) (p : Nat) (why : FastWhy) (cause : Nat) : State :=
  let x := s.port p
  let recent := x.fastTimes.filter (fun t => decide (s.time < t + 1000000000))
  if recent.length ≥ 4 then
    (s.setPort p { x with fastTimes := [] }).portDown p cause .nothing
  else
    let s := (s.abortPartial p).setPort p { x.unlock with fast := some why, fastTimes := recent ++ [s.time] }
    ((s.zeroCredits p).count (pctr p 0x58)).setPstate p psLock

/-- A credit disagreement: counted, CREDIT_AUDIT, and a fast retrain (R260). -/
def State.disagree (s : State) (p k : Nat) (diff : Word) : State :=
  ((s.count (pctr p 0x48)).raise 0 creditAudit noQueue 0 p (k / 4 + 8 * (k % 4)) diff.toNat).fastRetrain p .credit dcTrain

/-- Codeword lock is lost: a port that carries traffic starts a fast retrain (R251, R265). -/
def State.loseLock (s : State) (p : Nat) : State := if s.portRuns p then s.fastRetrain p .lock dcLockLost else s

def execLockLost (p : Nat) (s : State) : Outcome State Fault Refusal := .next (s.loseLock p)

/-- The UNC_EXP limit in a 1 ms window: a fast retrain, and at the fifth within 1 s the port goes down (R261, R275). -/
def State.errorLimit (s : State) (p : Nat) : State :=
  let x := s.port p
  let recent := x.errTimes.filter (fun t => decide (s.time < t + 1000000000))
  if !s.portRuns p then s
  else if recent.length ≥ 4 then (s.setPort p { x with errTimes := [] }).portDown p dcErrorRate .nothing
  else (s.setPort p { x with errTimes := recent ++ [s.time] }).fastRetrain p .errors dcErrorRate

def execErrorRate (p : Nat) (s : State) : Outcome State Fault Refusal := .next (s.errorLimit p)

/-! ## Lane sets (R268, R269) -/

/-- Lanes of a port, and the lanes of group g of a set: LANES 1 quarter, 2 half, 3 full (R268). -/
def laneCount (p : Nat) : Nat := if p < 32 then 8 else 16
def laneMask (p lanes group : Nat) : BitVec 16 :=
  let w := if lanes = 3 then laneCount p else if lanes = 2 then laneCount p / 2 else if lanes = 1 then laneCount p / 4 else 0
  BitVec.ofNat 16 ((2 ^ w - 1) * 2 ^ (w * group))

/-- The smallest LANES that MIN_LANES allows (R275). -/
def State.minLanes (s : State) (p : Nat) : Nat :=
  match s.fld (plink p 0) 3 2 with
  | 1 => 2
  | 2 => 1
  | _ => 3

/-- The sets of R268 that MIN_LANES allows, largest first, lower groups first. -/
def State.laneSets (s : State) (p : Nat) : List (Nat × Nat) :=
  ([(3, 0), (2, 0), (2, 1), (1, 0), (1, 1), (1, 2), (1, 3)] : List (Nat × Nat)).filter (fun x => decide (s.minLanes p ≤ x.1))

/-- The largest allowed set within the lanes given. -/
def State.bestSet (s : State) (p : Nat) (ok : BitVec 16) : Option (Nat × Nat) :=
  (s.laneSets p).find? (fun x => laneMask p x.1 x.2 &&& ok == laneMask p x.1 x.2)

/-- The largest set whose every lane has the partner's signal, whatever MIN_LANES allows (R264, R268). -/
def State.signalSet (s : State) (p : Nat) : Option (Nat × Nat) :=
  let los := BitVec.ofNat 16 (s.fld (plink p 0x10) 16 16)
  ([(3, 0), (2, 0), (2, 1), (1, 0), (1, 1), (1, 2), (1, 3)] : List (Nat × Nat)).find? (fun x => laneMask p x.1 x.2 &&& los == 0)

/-- LANES and GROUP of a port. -/
def State.setLanes (s : State) (p : Nat) (x : Nat × Nat) : State := (s.setFld (plink p 8) 11 2 x.1).setFld (plink p 8) 13 2 x.2
def State.lanesOf (s : State) (p : Nat) : Nat × Nat := (s.fld (plink p 8) 11 2, s.fld (plink p 8) 13 2)

/-- The lanes in use: of a port that is up its set, of one whose swatch repeats phase B the set under test, and otherwise the lanes with signal
(R250, R267, R268; log entry 57). -/
def State.lanesNow (s : State) (p : Nat) : Nat × Nat :=
  if (s.lanesOf p).1 ≠ 0 then s.lanesOf p
  else match (s.port p).sw with
    | some w => (w.lanes, w.group)
    | none => (s.signalSet p).getD (0, 0)

/-- Lanes lose their signal (R269). -/
def execLaneLos (p : Nat) (lanes : BitVec 16) (s : State) : Outcome State Fault Refusal :=
  let los := BitVec.ofNat 16 (s.fld (plink p 0x10) 16 16) ||| lanes
  let s := s.setFld (plink p 0x10) 16 16 los.toNat
  let used := laneMask p (s.lanesOf p).1 (s.lanesOf p).2
  .next (if !s.portUp p || used &&& lanes == 0 then s
    else match s.bestSet p (BitVec.ofNat 16 (s.fld (plink p 0x10) 0 16) &&& ~~~ los) with
      | some x => ((((s.count (pctr p 0x60)).raise 0 portDegraded noQueue 0 p x.1 los.toNat).setLanes p x).fastRetrain p .lane dcLos)
      | none => s.portDown p dcLos .nothing)

/-! ## Training (R264, R266, R267) -/

/-- The PLL of a port's I/O die is locked (R16, R432, R442 IO_LOCK). -/
def State.ioLocked (s : State) (p : Nat) : Bool := s.bit 0x208 (6 + (if p < 32 then p / 8 else p - 32))

/-- A port may train: enabled and not held down, a fabric port in use, its clock locked, the node neither bound off nor in RECOVERY (R264, R275, R300,
R401, R432). -/
def State.mayTrain (s : State) (p : Nat) : Bool :=
  s.bit (plink p 0) 0 && !s.bit (plink p 0) 5 && (decide (32 ≤ p) || s.portDim p != 7) && !s.boundOff && s.fld 0x200 8 4 != 5 && s.ioLocked p

/-- A port in DOWN that may train enters DETECT. -/
def State.startTraining (s : State) (p : Nat) : State :=
  if s.pstate p = psDown && s.mayTrain p then s.setPstate p psDetect else s

/-- A training attempt fails: back to DOWN, counted, and PORT_TRAIN_FAIL once at the eighth in a row (R264). -/
def State.trainFails (s : State) (p cause : Nat) : State :=
  let x := s.port p
  let st := s.pstate p
  let s := ((s.setPort p { x.unlock with fails := x.fails + 1, sw := none }).count (pctr p 0x68))
  let s := (s.setFld (plink p 8) 15 4 cause).setPstate p psDown
  if x.fails + 1 ≥ 8 && !x.trainRaised then
    (s.modPort p (fun x => { x with trainRaised := true })).raise 0 portTrainFail noQueue 0 p st 0
  else s

/-- TS_IDENT of this node on a port (R256, R362), with the lanes that are good at this end. -/
def State.sendIdent (s : State) (p : Nat) (fast : Bool) : State :=
  s.emit (.symbol p (ctrlSymbol 0x10 (leBytes 3 s.self ++ [BitVec.ofNat 8 p, BitVec.ofNat 8 (s.lanesNow p).1, 0x01, if fast then 1 else 0]
    ++ (if p < 32 then [] else leBytes 2 4096))))

/-- LIMIT that this node announces for class c and channel v of a port, in slots (R282, R296): twice the value on an attach port. -/
def State.limitOf (s : State) (p c v : Nat) : Nat := s.fld (0x150000 + 4 * c) (10 * v) 10 * 16 * (if p < 32 then 1 else 2)

/-- TS_CREDIT for each class (R256, R257). -/
def State.sendLimits (s : State) (p : Nat) : State :=
  (List.range 6).foldl (fun s c => s.emit (.symbol p (ctrlSymbol 0x11
    (BitVec.ofNat 8 c :: leBytes 2 (s.limitOf p c 0) ++ leBytes 2 (s.limitOf p c 1) ++ leBytes 2 (s.limitOf p c 2))))) s

/-- TS_SWATCH (R256); DURATION is SWATCH_MS × 10 ms (R275). -/
def State.sendSwatch (s : State) (p phase : Nat) (pass : BitVec 16) : State :=
  s.emit (.symbol p (ctrlSymbol 0x12 (BitVec.ofNat 8 phase :: leBytes 2 pass.toNat ++ leBytes 2 (10 * s.fld (plink p 4) 8 8))))

/-- The leader is the end with the lower node id, or the node on an attach port (R267). -/
def State.leads (s : State) (p : Nat) : Bool := decide (32 ≤ p) || decide (s.self < s.fld (plink p 0xC) 0 20)

/-- SWATCH begins: the leader asks for phase A (R267 step 1). -/
def State.startSwatch (s : State) (p : Nat) : State :=
  let set := s.lanesNow p
  let x : Swatch := { leader := s.leads p, phase := .askA, own := laneMask p set.1 set.2, partner := none, lanes := set.1, group := set.2 }
  let s := (s.modPort p (fun y => { y with sw := some x })).setPstate p psSwatch
  if x.leader then s.sendSwatch p 1 0 else s

/-- DETECT has found the lanes with the partner's signal; it ends once some group has it on every lane (R264, R269). -/
def State.detected (s : State) (p : Nat) (signal : BitVec 16) : State :=
  let s := s.setFld (plink p 0x10) 16 16 (BitVec.ofNat 16 (2 ^ laneCount p - 1) &&& ~~~ signal).toNat
  if (s.signalSet p).isSome then s.setPstate p psEqualise else s

/-- LOCK has found codeword lock, lane order and polarity: IDENT begins with this node's TS_IDENT and TS_CREDIT (R250, R251, R264). -/
def State.lockFound (s : State) (p : Nat) (found : TrainFound) : State :=
  let fast := (s.port p).fast.isSome
  let s := s.modPort p (fun x => { x.unlock with lock := true, good := 4, reversed := found.reversed, inverted := found.inverted })
  ((s.setPstate p psIdent).sendIdent p fast).sendLimits p

/-- IDENT is complete: the partner's TS_IDENT has passed and its TS_CREDIT has come for each class (R257, R264). -/
def State.identDone (s : State) (p : Nat) : Bool :=
  s.pstate p == psIdent && (s.port p).identOk && (List.range 6).all (s.port p).limits.contains

/-- The action of a training state completes (R264). A fast retrain leaves IDENT by its end (R265). -/
def execTrainStateDone (found : TrainFound) (s : State) : Outcome State Fault Refusal :=
  let p := found.port
  .next (if s.pstate p = psLock then s.lockFound p found
    else if (s.port p).fast.isSome then s
    else if s.pstate p = psDetect then s.detected p found.signal
    else if s.pstate p = psEqualise then s.setPstate p psLock
    else if s.identDone p then s.startSwatch p
    else s)

/-- A swatch has failed: result FAIL, and PORT_SWATCH_FAIL with both LANE_PASS values (R267). -/
def State.swatchFails (s : State) (p : Nat) (own partner : BitVec 16) : State :=
  (((s.setFld (plink p 8) 19 4 3).setSwatchSc p 0).raise 0 portSwatchFail noQueue 0 p (own.toNat + partner.toNat * 2 ^ 16) 0).trainFails p dcTrain

/-- A training state exceeds its bound: EQUALISE to SWATCH return to DOWN, and a swatch that does has failed (R264, R267). -/
def execTrainTimeout (p : Nat) (s : State) : Outcome State Fault Refusal :=
  .next (if (s.port p).fast.isNone && decide (psEqualise ≤ s.pstate p) && decide (s.pstate p ≤ psSwatch) then
      match (s.port p).sw with
      | some w => s.swatchFails p w.own (w.partner.getD 0)
      | none => s.trainFails p dcTrain
    else s)

def execTrainRetry (p : Nat) (s : State) : Outcome State Fault Refusal := .next (s.startTraining p)

/-- The accelerator of a port that comes up is present (R362). -/
def State.showPresent (s : State) (p : Nat) : State :=
  (List.range 4).foldl (fun s a => if (s.accel a).links.any (·.1 == p) then s.setFld (0x1A0000 + 0x10 * a) 8 1 1 else s) s

/-- The port comes UP: LINK_UP is sent where its trunk comes up with it (R226, R234, R264). -/
def State.comeUp (s : State) (p : Nat) : State :=
  let n := s.portDim p
  let v := s.portPeer p
  let fresh := decide (p < 32) && decide (n < 5) && !s.trunkUp n v
  let s := (s.modPort p (fun x => { x with fails := 0, trainRaised := false, sw := none, fast := none, heldBy := .nothing })).setPstate p psUp
  let s := s.startedDone p
  let s := if fresh then
      ({ s with downLinks := s.downLinks.filter (· != (n, min (s.mine n) v, max (s.mine n) v)) } : State).rowsChanged.announceLink .linkUp n v
    else s.showPresent p
  s.drain p

/-- The exchange of TS_READY: with the swatch passed, the port is UP (R264, R267 step 7). -/
def execTsReady (p : Nat) (s : State) : Outcome State Fault Refusal :=
  .next (match (s.port p).sw with
    | some w => if s.pstate p = psSwatch && w.phase == .ready then s.comeUp p else s
    | none => s)

/-- A fast retrain completes with its IDENT, and the port resumes (R265). -/
def execFastRetrainEnd (p : Nat) (s : State) : Outcome State Fault Refusal :=
  .next (if (s.port p).fast.isSome && s.identDone p then s.comeUp p else s)

/-- An attach port joins the accelerator of its GROUP (R362). A LINK that an up port of the group reports already, or another NLINKSM1, is miswired. -/
def State.groupOf (s : State) (g : Nat) : Option Nat :=
  (List.range 4).find? (fun a => (!(s.accel a).links.isEmpty || s.accPresent a) && s.fld (0x1A0004 + 0x10 * a) 0 20 == g)

def State.joinGroup (s : State) (p : Nat) (i : IdentF) : Option State :=
  match s.groupOf i.node.toNat with
  | some a =>
    if s.fld (0x1A0000 + 0x10 * a) 13 2 != i.nlinksm1.toNat || (s.accel a).links.any (fun l => l.2 == i.link.toNat && l.1 != p) then none
    else if (s.accel a).links.any (·.1 == p) then some s
    else some ((s.setAccel a { s.accel a with links := (s.accel a).links ++ [(p, i.link.toNat)] }).setFld (0x1A0000 + 0x10 * a) (9 + (p - 32)) 1 1)
  | none =>
    let a := p - 32
    let b := 0x1A0000 + 0x10 * a
    let s := s.setAccel a { s.accel a with links := [(p, i.link.toNat)], maxrd := i.maxrd.toNat }
    some (((s.setFld b (9 + (p - 32)) 1 1).setFld b 13 2 i.nlinksm1.toNat).setFld (b + 4) 0 20 i.node.toNat)

/-- A TS_IDENT in IDENT: the partner's id is shown and checked against the port map, or the port joins a group (R227, R264, R266, R362). -/
def execTsIdent (p : Nat) (i : IdentF) (s : State) : Outcome State Fault Refusal :=
  .next (if s.pstate p != psIdent then s
    else
      let s := (s.setFld (plink p 0xC) 0 20 i.node.toNat).setFld (plink p 0xC) 20 6 i.port.toNat
      let pass := fun (s : State) => s.modPort p (fun x => { x with identOk := true })
      if p < 32 then
        let want := withCoord s.self (s.portDim p) (s.portPeer p)
        if i.node.toNat = want then pass s
        else (s.portDown p dcMiswired .miswired).raise 0 portMiswired noQueue 0 p (want + i.node.toNat * 2 ^ 32) 0
      else match s.joinGroup p i with
        | some t => pass t
        | none => (s.portDown p dcMiswired .miswired).raise 0 portMiswired noQueue 0 p (i.node.toNat * 2 ^ 32) 0)

/-- A TS_CREDIT sets LIMIT for each channel of a class; in IDENT it is noted that the class has come (R257, R264). -/
def execTsCredit (p : Nat) (cls : BitVec 3) (a0 a1 e : BitVec 16) (s : State) : Outcome State Fault Refusal :=
  let put := fun (x : Port) (v : Nat) (l : BitVec 16) => x.setPair (4 * cls.toNat + v) { x.pair (4 * cls.toNat + v) with limit := l.setWidth 32 }
  let note := fun (x : Port) => if s.pstate p = psIdent ∧ !x.limits.contains cls.toNat then { x with limits := x.limits ++ [cls.toNat] } else x
  .next (if cls.toNat < 6 then s.modPort p (fun x => note (put (put (put x 0 a0) 1 a1) 2 e)) else s)

/-- Both results are in: the largest set that both cover is chosen, phase B repeats on a smaller one, or the swatch passes or fails (R267 step 6). -/
def State.chooseSet (s : State) (p : Nat) (w : Swatch) (partner : BitVec 16) : State :=
  let both := w.own &&& partner
  let s := s.setFld (plink p 0x10) 0 16 both.toNat
  match s.bestSet p both with
  | none => s.swatchFails p w.own partner
  | some x =>
    if x.1 < w.lanes then
      s.modPort p (fun y => { y with sw := some { w with phase := .runB, partner := none, lanes := x.1, group := x.2 } })
    else
      let s := ((s.setFld (plink p 8) 19 4 (if x.1 = 3 then 1 else 2)).setLanes p x).setSwatchSc p 0
      let s := s.modPort p (fun y => { y with sw := some { w with phase := .ready } })
      (s.sendLimits p).emit (.symbol p (ctrlSymbol 0x13 []))

/-- The lanes whose bit error ratio in phase A is at most 10^-BER_EXP (R267 step 5, R275). -/
def State.passA (s : State) (p : Nat) (m : SwatchMeasure) : BitVec 16 :=
  (List.range (laneCount p)).foldl (fun x l =>
    if m.errors.getD l m.bits * 10 ^ s.fld (plink p 4) 16 4 ≤ m.bits then x ||| (1#16 <<< l) else x) 0

/-- The lanes of the groups in which phase B had no uncorrectable codeword and none above MARGIN corrected symbols (R267 step 5, R275). -/
def State.passB (s : State) (p : Nat) (worst : List (Option Nat)) : BitVec 16 :=
  (List.range 4).foldl (fun x g => match worst.getD g none with
    | some n => if n ≤ s.fld (plink p 4) 20 4 then x ||| laneMask p 1 g else x
    | none => x) 0

/-- A swatch phase ends: of phase A the bit errors, of phase B the most symbols corrected per group, decide which lanes pass at this end (R267 steps
2 to 5). -/
def execSwatchPhase (p : Nat) (m : SwatchMeasure) (s : State) : Outcome State Fault Refusal :=
  .next (match (s.port p).sw with
    | none => s
    | some w => match w.phase with
      | .runA =>
        let w : Swatch := { w with own := w.own &&& s.passA p m, phase := if w.leader then .askB else .endA }
        let s := s.modPort p (fun y => { y with sw := some w })
        if w.leader then s.sendSwatch p 2 0 else s
      | .runB =>
        let w : Swatch := { w with own := w.own &&& s.passB p m.worst, phase := .results, worst := m.worst }
        let s := (s.modPort p (fun y => { y with sw := some w })).sendSwatch p 3 w.own
        match w.partner with
        | some x => s.chooseSet p w x
        | none => s
      | _ => s)

/-- The swatch ends with result ABORTED (R266). -/
def State.abortSwatch (s : State) (p : Nat) : State := ((s.modPort p (fun y => { y with sw := none })).setFld (plink p 8) 19 4 4).setSwatchSc p 0

/-- A TS_SWATCH: an echo for the leader, an order for the other end, the partner's result, or an abort (R267). -/
def execTsSwatch (p : Nat) (msg : SwatchMsg) (lanePass _duration : BitVec 16) (s : State) : Outcome State Fault Refusal :=
  let set := fun (s : State) (w : Swatch) => s.modPort p (fun y => { y with sw := some w })
  .next (match (s.port p).sw with
    | none => s
    | some w => match msg with
      | .startA => if w.phase == .askA then (let t := set s { w with phase := .runA }; if w.leader then t else t.sendSwatch p 1 0) else s
      | .startB =>
        if w.leader && w.phase == .askB then set s { w with phase := .runB }
        else if !w.leader && w.phase == .endA then (set s { w with phase := .runB }).sendSwatch p 2 0
        else s
      | .result =>
        if w.phase == .results then (set s { w with partner := some lanePass }).chooseSet p w lanePass
        else set s { w with partner := some lanePass }
      | .abort => (s.abortSwatch p).trainFails p dcSwatch)

/-! ## Port control (R264, R266, R275) -/

/-- ENABLE written as 1 takes effect at once; written as 0, the port goes to DOWN and stays (R264; log entry 9). -/
def execPortLinkEnable (p : Nat) (on : Bool) (s : State) : Outcome State Fault Refusal :=
  let s := s.setFld (plink p 0) 0 1 (if on then 1 else 0)
  .next (if on then s.startTraining p
    else
      let s := s.startedDone p
      if s.pstate p = psDown ∨ s.pstate p = psHeld then s else s.portDown p 0 .nothing)

/-- RETRAIN in any state but HELD is full training from DOWN; the field reads 1 until the port is up again (R5, R266, R275). -/
def execPortRetrain (p : Nat) (s : State) : Outcome State Fault Refusal :=
  .next (if s.pstate p = psHeld ∨ s.bit (plink p 0) 0 = false then s
    else
      let s := s.setRetrain p 1
      if s.pstate p = psDown then s.startTraining p else s.portDown p dcTrain .nothing)

/-- SWATCH takes the port down; its training runs swatch, and the field reads 1 until that has its result (R5, R267, R275). -/
def execPortSwatch (p : Nat) (s : State) : Outcome State Fault Refusal :=
  .next (if s.pstate p = psHeld ∨ s.bit (plink p 0) 0 = false then s
    else
      let s := s.setSwatchSc p 1
      if s.pstate p = psDown then s else s.portDown p dcSwatch .nothing)

/-- HOLD_DOWN set: the port enters HELD, and a swatch ends ABORTED; cleared: DOWN, then training (R266, R275). -/
def execPortHoldDown (p : Nat) (on : Bool) (s : State) : Outcome State Fault Refusal :=
  let was := s.bit (plink p 0) 5
  let s := s.setFld (plink p 0) 5 1 (if on then 1 else 0)
  .next (if on then
      let s := if (s.port p).sw.isSome then (s.sendSwatch p 4 0).abortSwatch p else s
      if s.pstate p = psHeld then s else s.portDown p dcHold .hold
    else if was && s.pstate p = psHeld && (s.port p).heldBy != .boundOff && (s.port p).heldBy != .recovery then
      ((s.modPort p (fun x => { x with heldBy := .nothing })).setPstate p psDown).startTraining p
    else s)

/-- A port held after its partner's bind-off detects the partner's signal again (R263). -/
def execPartnerSignalDetected (p : Nat) (s : State) : Outcome State Fault Refusal :=
  .next (if s.pstate p = psHeld && (s.port p).heldBy == .partner && !s.bit (plink p 0) 5 then
      ((s.modPort p (fun x => { x with heldBy := .nothing })).setPstate p psDown).startTraining p
    else s)

/-! ## Credits and audits (R257 to R260) -/

/-- One CREDIT entry (R258, R260). -/
def State.creditOne (s : State) (p : Nat) (e : CreditEntry) : State :=
  let k := pairKey e.cls e.vc
  let x := s.port p
  let c := x.pair k
  if !s.portRuns p then s
  else if (e.freed - c.ret).toNat ≥ 2 ^ 31 then s
  else if (c.used - e.freed).toNat ≥ 2 ^ 31 then s.disagree p k (c.used - e.freed)
  else s.setPort p (x.setPair k { c with ret := e.freed })

def execCredit (p : Nat) (es : List CreditEntry) (s : State) : Outcome State Fault Refusal :=
  .next ((es.foldl (fun s e => s.creditOne p e) s).drain p)

/-- The pairs whose FREED has changed since its report, or all pairs where none has (R258). -/
def execCreditReportTimer (p : Nat) (s : State) : Outcome State Fault Refusal :=
  let x := s.port p
  let due := pairKeys.filter (fun k => (x.pair k).freed != (x.pair k).reported)
  .next (if s.portRuns p then s.reportPairs p (if due.isEmpty then pairKeys else due) else s)

/-- The audit of one channel (R259, R260): lost slots are restored. -/
def State.auditOne (s : State) (p k : Nat) (used : Word) : State :=
  let x := s.port p
  let c := x.pair k
  let lost := used - c.rcvd
  if !s.portRuns p then s
  else if lost.toNat ≥ 2 ^ 31 then s.disagree p k lost
  else if lost = 0 then s
  else (s.setPort p (x.setPair k { c with rcvd := used, freed := c.freed + lost })).count (pctr p 0x40) lost.toNat

def execAudit (p : Nat) (cls : BitVec 3) (usedA0 usedA1 usedE : BitVec 32) (s : State) : Outcome State Fault Refusal :=
  let k := 4 * cls.toNat
  .next (if s.portRuns p && decide (cls.toNat < 6) then
      let t := ((s.auditOne p k usedA0).auditOne p (k + 1) usedA1).auditOne p (k + 2) usedE
      if t.portRuns p then t.reportPairs p [k, k + 1, k + 2] else t
    else s)

/-- An AUDIT for each class, with USED of its three channels (R259). -/
def execAuditSend (p : Nat) (s : State) : Outcome State Fault Refusal :=
  .next (if s.portRuns p then
      (List.range 6).foldl (fun s c => s.emit (.symbol p (ctrlSymbol 0x03 (BitVec.ofNat 8 c
        :: leBytes 4 ((s.port p).pair (4 * c)).used.toNat ++ leBytes 4 ((s.port p).pair (4 * c + 1)).used.toNat
        ++ leBytes 4 ((s.port p).pair (4 * c + 2)).used.toNat)))) s
    else s)

/-! ## Keepalives and aborts (R244, R254, R261) -/

/-- A KEEPALIVE restarts the deadline, which the environment keeps, and supplies the partner's LOAD (R244, R245, R261). -/
def execKeepalive (p : Nat) (k : KeepaliveF) (s : State) : Outcome State Fault Refusal :=
  .next (if p < 32 then s.modPort p (fun x => { x with loadRx := k.load.toNat }) else s)

def execKeepaliveSend (p : Nat) (s : State) : Outcome State Fault Refusal :=
  .next (if s.portRuns p then
      let n := (s.port p).kseq + 1
      (s.modPort p (fun x => { x with kseq := n, loadTx := s.load })).emit (.symbol p (ctrlSymbol 0x02 (leBytes 3 s.self
        ++ [BitVec.ofNat 8 p, BitVec.ofNat 8 s.load, BitVec.ofNat 8 (s.lanesOf p).1, 0] ++ leBytes 4 n.toNat)))
    else s)

/-- KA_MISS has passed since the last KEEPALIVE (R261, R265, R266). -/
def execKeepaliveTimeout (p : Nat) (s : State) : Outcome State Fault Refusal :=
  .next (match (s.port p).fast with
    | some w => s.portDown p (if w = .lock then dcLockLost else dcKeepalive) .nothing
    | none => if s.portRuns p then s.portDown p dcKeepalive .nothing else s)

/-- Discards a packet received on a port: its counted slots are freed (R29, R254, R258). Slots of a reserved channel have been counted by no pair. -/
def State.dropRx (s : State) (p : Nat) (head body : List Byte) : State :=
  let h := parseHdr head
  if h.cls.toNat < 6 ∧ h.vc.toNat < 3 then s.freeSlots p (pairKey h.cls h.vc) (1 + body.length / 64) else s

/-- The packet whose following slot has not come yet is discarded (R254). -/
def execAbort (p : Nat) (s : State) : Outcome State Fault Refusal :=
  .next (match (s.port p).last with
    | none => s
    | some (h, b) => ((s.modPort p (fun x => { x with last := none })).dropRx p h b).count (pctr p 0x20))

end Sys2Proof.Machine
end

