-- ==== Sys2Proof/Machine/Queues.lean ====
section
/-! DEFINITION. Queue commands, doorbells, the fetch rule, ring retries and row-counter slots (R94 to R108). -/

namespace Sys2Proof.Machine

open Host (Outcome)

/-! ## Queue commands (R94 to R97) -/

/-- The 64 B of QUEUE_DESC of function f as one entry (R94). -/
def State.queueDesc (s : State) (f : Nat) : Entry :=
  (List.range 16).foldl (fun e i => e ||| ((s.reg (page f (0x1000 + 4 * i))).setWidth 512 <<< (32 * i))) 0

/-- Writes the descriptor of a queue into QUEUE_DESC. -/
def State.setQueueDesc (s : State) (f : Nat) (d : Entry) : State :=
  (List.range 16).foldl (fun s i => s.setReg (page f (0x1000 + 4 * i)) (d.extractLsb' (32 * i) 32)) s

/-- QUEUE_CMD is written with a queue and an OP, and GO reads 0 when the command is done. -/
def State.queueCmd (s : State) (f q op : Nat) : State :=
  ((s.setFld (page f 0x1040) 0 14 q).setFld (page f 0x1040) 16 3 op).setFld (page f 0x1040) 31 1 0

/-- A ring of n bytes at a base in a space crosses an accelerator or passes the end of its space, or is not aligned to 4 KiB (R93, R95). -/
def badRing (sp : Nat) (base : DWord) (n : Nat) : Bool :=
  base.toNat % 4096 != 0 || (sp == 1 && (base.toNat / 2 ^ 40 != 0 || base.toNat / 2 ^ 38 != (base.toNat + n - 1) / 2 ^ 38))
    || (sp == 0 && decide (base.toNat + n > 2 ^ 64))

/-- BAD_DESCRIPTOR of R95 for CREATE. -/
def badDesc (d : Entry) : Bool :=
  decide (qRingLog2 d < 6) || decide (16 < qRingLog2 d) || decide (qCringLog2 d < 7) || decide (17 < qCringLog2 d)
    || decide (1 < qRingSp d) || decide (1 < qCringSp d)
    || badRing (qRingSp d) (qRingBase d) (64 * qRingSize d) || badRing (qCringSp d) (qCringBase d) (32 * qCringSize d)
    || (!qCommValid d && qComm d != 0) || (qRingSp d == 0 && qCringSp d == 0 && qRingKey d != 0)
    || entBits d 184 7 != 0 || entBits d 212 4 != 0 || entBits d 216 8 != 0 || entBits d 255 1 != 0 || entBits d 496 16 != 0

/-- A VALID counter-table entry outside the grant (R95). -/
def State.badCtab (s : State) (f : Nat) (d : Entry) : Bool :=
  (List.range 16).any (fun n => match qCtab d n with | some c => decide (s.ccount f ≤ c) | none => false)

/-- MODIFY may change COMM, COMM_VALID, VECTOR and the counter table only (R96). -/
def modifiable : Entry := fieldMask [(160, 32), (244, 11), (256, 240)]

/-- The first 4 KiB of a ring in ACCEL pass RINGKEY's check (R95 RING_UNREACHABLE). -/
def State.ringKeyOk (s : State) (f : Nat) (sp : Nat) (base : DWord) (key : Word) : Bool :=
  sp != 1 || s.localKeyOk f { space := .accel, addr := base, len := 4096, key }

/-- RESULT of a queue command, in the order of R95: op 0 QUERY, 1 CREATE, 2 MODIFY, 3 DESTROY. DESTROY is also BUSY while accepted entries wait to start
(R96; DESIGN CHOICE, log entry 62). -/
def State.queueResult (s : State) (f q op : Nat) (reachable : Bool) : Nat :=
  match s.globalQ f q with
  | none => 3
  | some g =>
    let x := s.queue g
    let d := s.queueDesc f
    if op == 1 && x.created then 4
    else if op != 1 && !x.created then 5
    else if op == 1 && badDesc d then 2
    else if op == 2 && ((d &&& ~~~ modifiable) != (x.desc &&& ~~~ modifiable) || badDesc d) then 2
    else if (op == 1 || op == 2) && s.badCtab f d then 3
    else if op == 1 && !(reachable && s.ringKeyOk f (qRingSp d) (qRingBase d) (qRingKey d) && s.ringKeyOk f (qCringSp d) (qCringBase d) (qRingKey d)) then 7
    else if op == 3 && !(x.fetch == x.dbpi && x.held.isEmpty && !s.runs.any (fun r => r.g == g) && x.heldRecs.isEmpty) then 6
    else 1

/-- In-flight transactions held by a queue's instructions (R97). -/
def State.queueInflight (s : State) (g : Nat) : Nat :=
  (s.txns.filter (fun t => t.q == some g)).length

/-- The registers of R97, all taken at one moment. -/
def State.fillQuery (s : State) (f g : Nat) : State :=
  let x := s.queue g
  let b := fun (c : Bool) => if c then 1 else 0
  let mine := s.runs.filter (fun r => r.g == g)
  let st := mine.length + 2 ^ 11 * b x.created + 2 ^ 12 * b x.stale.isSome + 2 ^ 13 * b (x.workFault || x.compFault)
    + 2 ^ 14 * b (!x.heldRecs.isEmpty && !x.cringRoom) + 2 ^ 15 * b x.txnWait.isSome + 2 ^ 16 * b (mine.any (fun r => r.phase == .counter))
  ((((((s.setQueueDesc f x.desc).setReg (page f 0x1048) x.fetch).setReg (page f 0x104C) x.dbpi).setReg (page f 0x1050) x.cpi).setReg
    (page f 0x1054) x.cci).setReg (page f 0x1058) (BitVec.ofNat 32 st)).setReg (page f 0x105C) (BitVec.ofNat 32 (s.queueInflight g))

/-- Completes a queue command: RESULT and SEQ of QUEUE_CMD_STATUS (R94). -/
def State.queueDone (s : State) (f : Nat) (res : Nat) : State := s.setResult (page f 0x1044) res

def execQueueQuery (f q : Nat) (s : State) : Outcome State Fault Refusal :=
  let s := s.queueCmd f q 0
  let res := s.queueResult f q 0 true
  .next ((if res = 1 then s.fillQuery f (s.qbase f + q) else s).queueDone f res)

def execQueueCreate (f q : Nat) (reachable : Bool) (s : State) : Outcome State Fault Refusal :=
  let s := s.queueCmd f q 1
  let res := s.queueResult f q 1 reachable
  .next ((if res = 1 then s.setQueue (s.qbase f + q) { created := true, desc := s.queueDesc f } else s).queueDone f res)

def execQueueModify (f q : Nat) (s : State) : Outcome State Fault Refusal :=
  let s := s.queueCmd f q 2
  let res := s.queueResult f q 2 true
  .next ((if res = 1 then s.modQueue (s.qbase f + q) (fun x => { x with desc := s.queueDesc f }) else s).queueDone f res)

def execQueueDestroy (f q : Nat) (s : State) : Outcome State Fault Refusal :=
  let s := s.queueCmd f q 3
  let res := s.queueResult f q 3 true
  .next ((if res = 1 then (s.setQueue (s.qbase f + q) {}).monUnbind f q else s).queueDone f res)

/-! ## Doorbells (R100, R101) -/

/-- Applies a producer index to queue g of function f (R101). -/
def State.bellPi (s : State) (f g : Nat) (pi : Word) : State :=
  let q := s.queue g
  let adv := pi - q.dbpi
  if adv = 0 ∨ adv.toNat ≥ 2 ^ 31 then s.count (page f 0x2000)
  else if (pi - q.fetch).toNat > qRingSize q.desc then
    (s.count (page f 0x2008)).raise f doorbellInvalid (s.relQ g) 0 (pi.toNat + q.fetch.toNat * 2 ^ 32) 0 0
  else s.setQueue g { q with dbpi := pi, bells := q.bells ++ [(pi, s.time)] }

/-- Applies a completion consumer index, the validity test against the completion ring's size (R101). -/
def State.bellCci (s : State) (f g : Nat) (cci : Word) : State :=
  let q := s.queue g
  let adv := cci - q.cci
  if adv = 0 ∨ adv.toNat ≥ 2 ^ 31 then s.count (page f 0x2000)
  else if (q.cpi - cci).toNat > qCringSize q.desc then
    (s.count (page f 0x2008)).raise f doorbellInvalid (s.relQ g) 0 (cci.toNat + q.cpi.toNat * 2 ^ 32) 1 0
  else s.setQueue g { q with cci := cci }

/-- A doorbell to function f's queue q: ignored and counted for a queue that does not exist, and ignored while the function is reset (R101, R115). -/
def State.bell (s : State) (f q : Nat) (k : State → Nat → State) : State :=
  match s.globalQ f q with
  | none => s.count (page f 0x2008)
  | some g => if !(s.queue g).created then s.count (page f 0x2008) else if s.resetting f || s.boundOff then s.count (page f 0x2008) else k s g

def execDbPi (f q : Nat) (pi : BitVec 32) (s : State) : Outcome State Fault Refusal :=
  .next (s.bell f q (fun s g => s.bellPi f g pi))

/-- Held records are written as CCI advances (R105). -/
def execDbCci (f q : Nat) (cci : BitVec 32) (s : State) : Outcome State Fault Refusal :=
  .next ((s.bell f q (fun s g => s.bellCci f g cci)).settle)

/-! ## The fetch rule (R102, R103, R110) -/

/-- Entries fetched and not started (R102: at most 64). -/
def Queue.heldCount (q : Queue) : Nat :=
  (q.held.map (fun a => (if a.ins.x.isSome then 2 else 1) + (a.body.map (fun b => if b.x.isSome then 2 else 1)).sum)).sum

/-- Accepts one instruction: into the body of the REPEAT being collected, or as an instruction of its own (R66, R102, R110). -/
def Queue.accept (q : Queue) (i : Fetched) : Queue :=
  let q : Queue := { q with accepted := q.accepted + 1, fetch := i.pos + (if i.x.isSome then 2 else 1) }
  match q.collect with
  | some c =>
    let used := if i.x.isSome then 2 else 1
    let held := if c.doomed then q.held ++ [{ ins := i, body := [], doomed := true }] else match q.held.getLast? with
      | some a => q.held.dropLast ++ [{ a with body := a.body ++ [i] }]
      | none => q.held
    { q with held, collect := if c.left ≤ used then none else some { c with left := c.left - used } }
  | none =>
    { q with held := q.held ++ [{ ins := i, body := [], doomed := false }],
             collect := if entOpcode i.w == 0x28 && repN i != 0 then some { left := repN i, doomed := false } else none }

/-- Entries that one read from ring position p on brings at most: 16, not past the ring's end, not past DBPI (R102). -/
def Queue.readMax (q : Queue) (p : Word) : Nat := min (min 16 (qRingSize q.desc - p.toNat % qRingSize q.desc)) (q.dbpi - p).toNat

/-- Takes entries read from FETCH on (R102): OWN before anything else, the extension with its primary entry. A primary entry at the ring's last index
waits for its extension, which the next read brings from index 0 (R43). -/
def Queue.takeEntries : List Entry → Queue → Queue
  | [], q => q
  | e :: es, q =>
    if q.fetch = q.dbpi ∨ q.heldCount ≥ 64 then q
    else if entOwn e != lap q.fetch (qRingSize q.desc) then { q with stale := some (q.fetch, 1, false) }
    else if entExt e then
      if (q.dbpi - q.fetch).toNat < 2 then q
      else match es with
        | [] => if (q.fetch.toNat + 1) % qRingSize q.desc = 0 then { q with half := some e } else q
        | x :: rest => Queue.takeEntries rest (q.accept { pos := q.fetch, w := e, x := some x })
    else Queue.takeEntries es (q.accept { pos := q.fetch, w := e, x := none })

/-- Queue g may fetch: it exists, has entries announced, has room, is not waiting for OWN or on a failing ring, and its function runs (R102, R359). -/
def State.mayFetch (s : State) (g : Nat) : Bool :=
  let q := s.queue g
  let f := s.ownerOf g
  q.created && q.fetch != q.dbpi && decide (q.heldCount < 64) && q.stale.isNone && !q.workFault && s.funcRuns f
    && (qRingSp q.desc != 0 || s.hostReach f)

/-- The reason code of RING_FAULT (R429). -/
def ringWhy : RingFail → Nat
  | .translation => 1
  | .key => 2
  | .readError => 3

/-- What stands in the way of a read of the work ring: nothing, an access that fails, or a translation that is still to come (R92, R103). -/
inductive RingWay where
  | clear
  | fails (why : Nat) (addr : DWord)
  | waits (va : DWord)
  deriving DecidableEq, Repr

/-- The way of a read of n entries of queue g's work ring from position p on: RINGKEY for a ring in ACCEL, and a translation under the queue's PASID of
each page for one in HOSTVA (R92, R93, R103). -/
def State.ringWay (s : State) (g : Nat) (p : Word) (n : Nat) : RingWay :=
  let q := s.queue g
  let f := s.ownerOf g
  let va := qRingBase q.desc + BitVec.ofNat 64 (64 * (p.toNat % qRingSize q.desc))
  if qRingSp q.desc = 1 then
    if s.localKeyOk f { space := .accel, addr := va, len := 64 * n, key := qRingKey q.desc } then .clear else .fails 2 va
  else if !s.hostReach f then .waits va
  else if !s.usesAts f then .clear
  else match [va, va + BitVec.ofNat 64 (64 * n - 64)].find? (fun a => (s.xlate? f (qPasid q.desc) a false).isNone) with
    | some a => .waits a
    | none => .clear

/-- The translation that a read of a work ring uses is used (R353). -/
def State.touchRing (s : State) (g : Nat) (p : Word) : State :=
  let q := s.queue g
  let f := s.ownerOf g
  if qRingSp q.desc = 1 || !s.usesAts f then s
  else (s.xlate? f (qPasid q.desc) (qRingBase q.desc + BitVec.ofNat 64 (64 * (p.toNat % qRingSize q.desc))) false).elim s s.touchXlate

/-- A read of queue g's work ring waits for a translation: its stream parks, once (R103, R354). -/
def State.parkRing (s : State) (g : Nat) (va : DWord) : State :=
  if s.parks.any (·.ticket == .wring g) then s
  else s.park { f := s.ownerOf g, pasid := qPasid (s.queue g).desc, va, len := 64, write := false, data := [], off := 0, ticket := .wring g, st := .waiting }

/-- The position at which the next read of the work ring begins, and the entries that are taken before what it brings. -/
def Queue.readFrom (q : Queue) : Word × List Entry := match q.half with
  | some e => (q.fetch + 1, [e])
  | none => (q.fetch, [])

/-- A read of the work ring returns: n entries at most are taken, or the access fails (R102, R103). k sees the queue before they are. -/
def State.ringRead (s : State) (g n : Nat) (r : FetchResult) (k : Queue → List Entry → Queue) : State :=
  let q := s.queue g
  let at_ := q.readFrom
  let m := min n (q.readMax at_.1)
  match s.ringWay g at_.1 m with
  | .fails why a => s.ringFails g false why a
  | .waits a => if s.hostReach (s.ownerOf g) then s.parkRing g a else s
  | .clear => match r with
    | .entries es => (if (es.take m).isEmpty then s else (s.touchRing g at_.1).setQueue g (k { q with half := none } (at_.2 ++ es.take m))).settle
    | .failed why a => s.ringFails g false (ringWhy why) a

/-- A fetch (R102). -/
def execEntryFetch (g : Nat) (r : FetchResult) (s : State) : Outcome State Fault Refusal :=
  .next (if s.mayFetch g then s.ringRead g 16 r (fun q es => Queue.takeEntries es q) else s)

/-- The position that a queue waits on has been read again: OWN is set and fetch goes on, or one more attempt is counted (R102). -/
def Queue.reread (q : Queue) (es : List Entry) : Queue := match q.stale, es with
  | some (p, n, raised), e :: _ =>
    if entOwn e == lap p (qRingSize q.desc) then Queue.takeEntries es { q with stale := none } else { q with stale := some (p, n + 1, raised) }
  | _, _ => Queue.takeEntries es q

/-- A re-read of the position that a queue waits on: one read of 64 B (R102). -/
def execOwnReread (g : Nat) (r : FetchResult) (s : State) : Outcome State Fault Refusal :=
  .next (if (s.queue g).stale.isSome && !(s.queue g).workFault then s.ringRead g 1 r Queue.reread else s)

def execStaleEntry (g : Nat) (s : State) : Outcome State Fault Refusal :=
  let q := s.queue g
  .next (match q.stale with
    | some (p, n, false) =>
      if n ≥ 64 then (s.setQueue g { q with stale := some (p, n, true) }).raise (s.ownerOf g) staleEntry (s.relQ g) p n 0 0 else s
    | _ => s)

/-- The 1 ms retry of a failing ring access (R103), a fetch or the re-read of a position that is waited on: a success ends the episode. -/
def execRingRetry (g : Nat) (completion : Bool) (r : FetchResult) (s : State) : Outcome State Fault Refusal :=
  let q := s.queue g
  .next (if completion then
      if q.compFault then match r with
        | .entries _ => (match s.tryRecord g true with | some t => t.settle | none => s)
        | .failed _ _ => s
      else s
    else if q.workFault then s.ringRead g (if q.stale.isSome then 1 else 16) r (fun q es => { q with workFault := false }.reread es)
    else s)

/-- A record held for 1 ms (R105). -/
def execCringStall (g : Nat) (s : State) : Outcome State Fault Refusal :=
  let q := s.queue g
  .next (if !q.heldRecs.isEmpty && !q.cringRoom && !q.stallRaised then
    (s.setQueue g { q with stallRaised := true }).raise (s.ownerOf g) cringStall (s.relQ g) 0 q.heldRecs.length 0 0
  else s)

/-! ## Row-counter slots (R107, R108) -/

/-- A write to counter c of function f: outside the grant it is ignored and counted; within it, every WAIT is evaluated again (R107, R108). -/
def State.slotWrite (s : State) (f c : Nat) (h : DWord → DWord) : State :=
  match s.globalC f c with
  | none => s.count (page f 0x2010)
  | some n => (s.setRowc n (h (s.rowc n))).settle

/-- x with the written part of it replaced by v (R107). -/
def slotReplace (part : SlotPart) (x v : DWord) : DWord :=
  match part with
  | .whole => v
  | .low => x.extractLsb' 32 32 ++ v.extractLsb' 0 32
  | .high => v.extractLsb' 0 32 ++ x.extractLsb' 0 32

/-- A half write replaces its half of COUNT and ERR (R107). -/
def execCntWrite (f c : Nat) (part : SlotPart) (v : DWord) (s : State) : Outcome State Fault Refusal :=
  .next (s.slotWrite f c (fun x => slotReplace part x v))

/-- The written bits that a counter-slot field reserves are counted (R107, R409). -/
def State.slotReserved (s : State) (v rsv : DWord) : State := if v &&& rsv = 0 then s else s.count 0x200010

/-- A half write adds the value its half spells, at the half's place (R107; DEDUCED). Bit 63 is reserved. -/
def execCntAdd (f c : Nat) (part : SlotPart) (v : DWord) (s : State) : Outcome State Fault Refusal :=
  let n := slotReplace part 0 v
  .next ((s.slotReserved n (1#64 <<< 63)).slotWrite f c (fun x => rowAdd x n))

/-- The word written at 0x10: SETERR with CLRERR is ignored and counted (R107). -/
def State.slotMark (s : State) (f c : Nat) (v : DWord) : State :=
  let s := s.slotReserved v (~~~ 3)
  if v.getLsbD 0 && v.getLsbD 1 then s.count (page f 0x2010) else s.slotWrite f c (fun x => rowMark x (v.getLsbD 0) (v.getLsbD 1))

def execCntSeterr (f c : Nat) (v : DWord) (s : State) : Outcome State Fault Refusal := .next (s.slotMark f c v)

def execCntClrerr (f c : Nat) (v : DWord) (s : State) : Outcome State Fault Refusal := .next (s.slotMark f c v)

/-- A 4 B write of BAR2 by the host at an offset of function f: a doorbell slot (R100) or a counter slot (R107). Writes to the reserved words of a
doorbell slot are ignored, and counted in FUNC_CMD_IGNORED (log entry 63). -/
def State.bar2Write (s : State) (f off : Nat) (v : Word) : State :=
  let run := fun (o : Outcome State Fault Refusal) => match o with
    | .next t => t
    | _ => s
  if off % 4 ≠ 0 then s.count 0x240060
  else if off < 0x100000 then
    let o := off % 64
    if o = 0 ∨ o = 8 then run (execDbPi f (off / 64) v s)
    else if o = 4 ∨ o = 12 then run (execDbCci f (off / 64) v s)
    else s.count (page f 0x2010)
  else
    let c := (off - 0x100000) / 32
    let high : DWord := v.setWidth 64 <<< 32
    match (off - 0x100000) % 32 with
    | 0 => run (execCntWrite f c .low (v.setWidth 64) s)
    | 4 => run (execCntWrite f c .high high s)
    | 8 => run (execCntAdd f c .low (v.setWidth 64) s)
    | 12 => run (execCntAdd f c .high high s)
    | 16 => s.slotMark f c (v.setWidth 64)
    | _ => if v = 0 then s else s.count 0x200010

/-- An 8 B read of BAR2 of function f: FETCH and CPI of a doorbell slot from one moment (R100), COUNT and ERR of a counter slot from one moment,
0 outside the grant and for what is write-only or reserved (R107). A 4 B read is a half of it. -/
def State.readBar2 (s : State) (f off : Nat) : DWord :=
  if off < 0x100000 then
    match s.globalQ f (off / 64) with
    | some g => let q := s.queue g
      if q.created && off % 64 == 0 then q.cpi ++ q.fetch else 0
    | none => 0
  else
    match s.globalC f ((off - 0x100000) / 32) with
    | some c => if off % 32 == 0 then s.rowc c else 0
    | none => 0

end Sys2Proof.Machine
end

