-- ==== Sys2Proof/Machine/Attach.lean ====
section
/-! DEFINITION. Messages of attached accelerators (R362 to R370). -/

namespace Sys2Proof.Machine

open Host (Outcome)

/-- Counter addresses of an accelerator (R372). -/
def attCtr (a off : Nat) : Nat := 0x240100 + 0x40 * a + off

/-- Takes an outstanding operation off an accelerator, and lets a waiting ARD go (R362 MAXRD). -/
def State.aopDone (s : State) (a : Nat) (op : AOp) : State :=
  let x := s.accel a
  let s := s.setAccel a { x with ops := x.ops.erase op }
  match op.kind, x.waiting with
  | .ard, (w, m) :: rest => (s.setAccel a { s.accel a with ops := (s.accel a).ops ++ [w], waiting := rest }).attachSend a m
  | _, _ => s

/-- An answer with a STATUS other than OK (R369): counted; POISON raises ACCEL_POISON to the owner. -/
def State.aopFails (s : State) (a : Nat) (op : AOp) (poison : Bool) : State :=
  let s := (s.aopDone a op).count (attCtr a 0x18)
  let s := if poison then s.raise (s.accOwner a) accelPoison noQueue 0 a op.addr.toNat 0 else s
  s.ticketFail op.ticket stAccessLocal op.addr (if poison then 3 else 2)

def execPlaceRsp (a : Nat) (tag : BitVec 16) (status : AttStatus) (s : State) : Outcome State Fault Refusal :=
  .next (match (s.accel a).ops.find? (fun o => o.tag == tag && o.kind == .awr) with
    | none => s
    | some o => match status with
      | .ok => ((s.aopDone a o).ticketPlaced o.ticket).settle
      | .addrError => (s.aopFails a o false).settle
      | .poison => (s.aopFails a o true).settle)

/-- ARD data: one or more answers make up the request's bytes (R365). -/
def execArdData (a : Nat) (tag : BitVec 16) (roff : Nat) (bytes : List Byte) (status : AttStatus) (s : State) : Outcome State Fault Refusal :=
  .next (match (s.accel a).ops.find? (fun o => o.tag == tag && o.kind == .ard) with
    | none => s
    | some o => match status with
      | .ok =>
        let o' : AOp := { o with got := o.got + bytes.length, data := (patchBytes o.data roff bytes).take o.len }
        if o'.got < o.len then
          s.setAccel a { s.accel a with ops := (s.accel a).ops.map (fun x => if x = o then o' else x) }
        else ((s.aopDone a o).ticketData o.ticket o.off o'.data).settle
      | .addrError => (s.aopFails a o false).settle
      | .poison => (s.aopFails a o true).settle)

/-- The answer to an AATOM: the request is answered where it returns a value, and is placed (R139, R365). -/
def State.atomicAnswered (s : State) (t : Ticket) (old : DWord) : State :=
  match t with
  | .remoteRead src psn => match s.service? src psn with
    | none => s
    | some (h, r, p) =>
      let s := ({ s with inService := s.inService.erase p } : State).unadmit src psn
      if r.opcode == 0x19 then s.respond h r old (atomicNew true r.size old (payOperand p.payload) (paySwap p.payload)).2 []
      else if r.fetch then s.respond h r old false []
      else s
  | _ => s

def execAatomRsp (a : Nat) (tag : BitVec 16) (old : DWord) (status : AttStatus) (s : State) : Outcome State Fault Refusal :=
  .next (match (s.accel a).ops.find? (fun o => o.tag == tag && o.kind == .aatom) with
    | none => s
    | some o => match status with
      | .ok => ((s.aopDone a o).atomicAnswered o.ticket old).settle
      | .addrError => (s.aopFails a o false).settle
      | .poison => (s.aopFails a o true).settle)

/-- DOORBELL acts as the same write to the owner's slot; outside the grant it is ignored and counted in ATT_REJECTED (R100, R101, R367). -/
def execDoorbell (a : Nat) (q : BitVec 14) (slotOff : BitVec 8) (v : DWord) (s : State) : Outcome State Fault Refusal :=
  let f := s.accOwner a
  let lo : Word := v.extractLsb' 0 32
  .next (if (s.globalQ f q.toNat).isNone then s.count (attCtr a 0x10)
    else if slotOff == 0x00 then
      ((s.bell f q.toNat (fun s g => s.bellPi f g lo)).bell f q.toNat (fun s g => s.bellCci f g (v.extractLsb' 32 32))).settle
    else if slotOff == 0x08 then s.bell f q.toNat (fun s g => s.bellPi f g lo)
    else if slotOff == 0x0C then (s.bell f q.toNat (fun s g => s.bellCci f g lo)).settle
    else s.count (attCtr a 0x10))

/-- COUNTER acts as the slot writes of R107 (R367). -/
def execCounter (a : Nat) (cnt : BitVec 15) (op : CounterOp) (v : DWord) (s : State) : Outcome State Fault Refusal :=
  let f := s.accOwner a
  .next (if (s.globalC f cnt.toNat).isNone then s.count (attCtr a 0x10)
    else match op with
      | .add => s.slotWrite f cnt.toNat (fun x => rowAdd x v)
      | .setErr => s.slotWrite f cnt.toNat (fun x => rowMark x true false)
      | .clrErr => s.slotWrite f cnt.toNat (fun x => rowMark x false true)
      | .write => s.slotWrite f cnt.toNat (fun _ => v))

/-- CNT_RD returns the counter word; outside the grant STATUS 0x02 with ARG0 0 (R367). -/
def execCntRd (a : Nat) (tag : BitVec 16) (cnt : BitVec 15) (s : State) : Outcome State Fault Refusal :=
  .next (match s.globalC (s.accOwner a) cnt.toNat with
    | none => (s.count (attCtr a 0x10)).attachSend a { amsg 0x08 with tag := tag, status := stAccessLocal }
    | some n => s.attachSend a { amsg 0x08 with tag := tag, arg0 := s.rowc n })

/-- The check of LRD, LWR and LATOM: as remote requests from the owner (R367). -/
def State.accelCheck (s : State) (a : Nat) (key : Word) (opcode : BitVec 8) (addr : DWord) (len : Nat) : Option (BitVec 8 × BitVec 8) :=
  s.keyCheck (s.key (keyIndex key)) key (s.ttagOf (s.accOwner a)) none 0 addr.toNat len opcode 0

/-- An LRD that has passed its check returns its bytes, or waits for a lost line (R291, R367). -/
def State.serveLrd (s : State) (a : Nat) (tag : BitVec 16) (addr : DWord) (len : Nat) (key : BitVec 32) : State :=
  if s.lineLost addr.toNat len then { s with latoms := s.latoms ++ [(a, .lrd a tag addr len key)] }
  else s.attachSend a { amsg 0x05 with tag := tag, payload := s.pread addr.toNat len }

/-- LRD reads pooled memory (R367). -/
def execLrd (a : Nat) (tag : BitVec 16) (addr : DWord) (len : Nat) (key : BitVec 32) (s : State) : Outcome State Fault Refusal :=
  .next (match s.accelCheck a key 0x12 addr len with
    | some (st, why) => s.attachSend a { amsg 0x05 with tag := tag, status := st, reason := why }
    | none => s.serveLrd a tag addr len key)

def execLwr (a : Nat) (tag : BitVec 16) (addr : DWord) (key : BitVec 32) (payload : List Byte) (s : State) : Outcome State Fault Refusal :=
  .next (match s.accelCheck a key 0x10 addr payload.length with
    | some (st, why) => s.attachSend a { amsg 0x06 with tag := tag, status := st, reason := why }
    | none =>
      let r := s.poolWrite addr.toNat payload (.accelMsg a tag (keyIndex key))
      if r.1 then r.2.ticketPlaced (.accelMsg a tag (keyIndex key)) else r.2)

/-- An LATOM that has passed its check: it waits for snoops and unit saves, or is applied (R131, R139, R319, R350). -/
def State.serveLatom (s : State) (a : Nat) (tag : BitVec 16) (addr : DWord) (key : BitVec 32) (cas size : Bool) (operand swap : DWord) : State :=
  if s.poolBusy addr.toNat (if size then 8 else 4) then
    { s.snoopRange addr.toNat (if size then 8 else 4) with latoms := s.latoms ++ [(a, .latom a tag addr key cas size operand swap)] }
  else
    let x := s.poolAtomic addr.toNat cas size operand swap
    x.2.2.attachSend a { amsg 0x07 with tag := tag, arg0 := x.1, arg2 := if cas && x.2.1 then 1 else 0 }

/-- LATOM on pooled memory, serialised as every atomic (R139, R367). A misaligned word is outside what the registration covers (DEDUCED, log entry 7). -/
def execLatom (a : Nat) (tag : BitVec 16) (addr : DWord) (key : BitVec 32) (cas size : Bool) (operand swap : DWord) (s : State) :
    Outcome State Fault Refusal :=
  .next (match s.accelCheck a key 0x18 addr (if size then 8 else 4) with
    | some (st, why) => s.attachSend a { amsg 0x07 with tag := tag, status := st, reason := why }
    | none =>
      if addr.toNat % (if size then 8 else 4) != 0 then s.attachSend a { amsg 0x07 with tag := tag, status := stAccessRemote, reason := rsRange }
      else s.serveLatom a tag addr key cas size operand swap)

/-- A delivery acknowledgement of an accelerator: its messages are no longer retained, and waiting ones go (R239, R366). -/
def State.attachAcked (s : State) (a : Nat) (base : Word) (map : DWord) : State :=
  let x := s.accel a
  let hit := fun (psn : Word) => decide ((psn - base).toNat < 64) && map.getLsbD (psn - base).toNat
  let x : Accel := { x with retained := x.retained.filter (fun r => !hit r.1) }
  x.queued.foldl (fun s m => s.attachSend a m) (s.setAccel a { x with queued := [] })

/-- What runs when an attach packet has been delivered: the command that it spells (R365). -/
def execAttachMessage (i : Instr) (s : State) : Outcome State Fault Refusal :=
  match i with
  | .placeRsp a tag st => execPlaceRsp a tag st s
  | .ardData a tag roff bs st => execArdData a tag roff bs st s
  | .aatomRsp a tag old st => execAatomRsp a tag old st s
  | .doorbell a q off v => execDoorbell a q off v s
  | .counter a c op v => execCounter a c op v s
  | .cntRd a tag c => execCntRd a tag c s
  | .lrd a tag addr n key => execLrd a tag addr n key s
  | .lwr a tag addr key bs => execLwr a tag addr key bs s
  | .latom a tag addr key cas size x y => execLatom a tag addr key cas size x y s
  | _ => .next s

/-- The state that an attach message leaves. -/
def State.afterMessage (s : State) (i : Instr) : State := match execAttachMessage i s with
  | .next t => t
  | _ => s

/-- LRD and LATOM messages whose memory is ready are served; their check was made when they came (R131, R291, R319, R350). -/
def State.retryLatoms (s : State) : State :=
  s.latoms.foldl (fun s l => match l.2 with
    | .latom a tag addr key cas size x y =>
      if s.poolBusy addr.toNat (if size then 8 else 4) then s
      else ({ s with latoms := s.latoms.erase l } : State).serveLatom a tag addr key cas size x y
    | .lrd a tag addr n key => if s.lineLost addr.toNat n then s else ({ s with latoms := s.latoms.erase l } : State).serveLrd a tag addr n key
    | _ => s) s

/-- A packet of an accelerator passes the receiver's states of R241: a duplicate is acknowledged again and counted (R366). -/
def State.attachArrive (s : State) (a : Nat) (psn lup : Word) (i : Option Instr) : State :=
  let x := s.accel a
  let x : Accel := if psnBefore x.rbase lup then { x with rbase := lup, rx := x.rx.filter (fun q => !psnBefore q lup) } else x
  if psnBefore psn x.rbase then (s.setAccel a x).count (attCtr a 0x08)
  else if x.rx.contains psn then ((s.setAccel a x).count (attCtr a 0x08)).emit (.attachAck a psn)
  else
    let s := (s.setAccel a { x with rx := x.rx ++ [psn] }).emit (.attachAck a psn)
    match i with
    | some c => s.afterMessage c
    | none => s

end Sys2Proof.Machine
end

