-- ==== Sys2Proof/Machine/RemoteMem.lean ====
section
/-! DEFINITION. The meanings of arriving requests, responses and acknowledgements, and of the end-to-end timers (R128 to R148, R238 to R242). -/

namespace Sys2Proof.Machine

open Host (Outcome)

def execRequest (h : Hdr) (r : ReqF) (payload : List Byte) (s : State) : Outcome State Fault Refusal :=
  .next (if s.retrFull h r then s.noteBorrow 7 (respCells r)
    else ((s.consume { hdr := h, body := .request r, payload }).arrive h true (fun s => s.takeReq h r payload)).settle)

def execResponse (h : Hdr) (r : RespF) (payload : List Byte) (s : State) : Outcome State Fault Refusal :=
  let s := s.consume { hdr := h, body := .response r, payload }
  .next (s.arrive h false (fun s =>
    let t := s.takeResponse h r payload
    if h.src.toNat = s.self then { t with paths := (t.modPath s.self (fun p => { p with retained := p.retained.filter (fun x => x.pkt.hdr.psn != h.psn) })).paths }
    else t.delivered h.src.toNat h.psn h.ce stOk 0)).settle

/-- Every write acknowledged before a placement request has been placed: the SIGNAL or MARK that it carries is applied, and it is answered (R143). -/
def State.answerPlacement (s : State) (p : Packet) (r : ReqF) : State :=
  let s := if !r.placed then s
    else if r.opcode == 0x21 then
      s.signalCounter (s.cbase (s.key (keyIndex r.key)).owner + r.arg.toNat % 2 ^ 15) (payOperand p.payload) r.seterr r.clrerr
    else s.applyWrite p.hdr r p.payload
  s.respond p.hdr r 0 false []

def execPlacementAnswer (src : BitVec 20) (psn : BitVec 32) (s : State) : Outcome State Fault Refusal :=
  .next (match s.placeReqs.find? (fun e => e.1.hdr.src == src && e.1.hdr.psn == psn) with
    | none => s
    | some e =>
      if e.2.all (fun w => !s.admitted.any (fun a => a.src == src.toNat && a.psn == w)) then
        match e.1.body with
        | .request r => (({ s with placeReqs := s.placeReqs.erase e }).answerPlacement e.1 r).settle
        | _ => s
      else s)

/-- A context-cache fetch completes: a parked request resumes, or, of this node's own queue psn, its connection half has come and the queue goes on
(R146; log entry 58). -/
def execContextFetchDone (src : BitVec 20) (psn : BitVec 32) (s : State) : Outcome State Fault Refusal :=
  .next (if src.toNat = s.self ∧ (s.ownMisses psn.toNat) ≠ [] then ((s.ownMisses psn.toNat).foldl State.touchHalf s).settle
    else match s.parkedReqs.find? (fun p => p.hdr.src == src && p.hdr.psn == psn) with
    | none => s
    | some p => match p.body with
      | .request r =>
        if decide (0 < respCells r) && !s.canGrow 7 (respCells r) then s.noteBorrow 7 (respCells r)
        else (({ s with parkedReqs := s.parkedReqs.erase p }).acceptReq p.hdr r p.payload).settle
      | _ => s)

/-- The PSNs that OKMAP reports (R239). -/
def ackedPsns (a : AckF) : List Word :=
  ((List.range 64).filter (fun i => a.okmap.getLsbD i)).map (fun i => a.ackBase + BitVec.ofNat 32 i)

def execDeliveryAck (h : Hdr) (a : AckF) (s : State) : Outcome State Fault Refusal :=
  let s := s.consume { hdr := h, body := .ack a, payload := [] }
  let src := h.src.toNat
  .next (if s.boundOff then s
    else if s.lost.contains src then s.count 0x260078
    else
      let s := (ackedPsns a).foldl (fun s p => s.ackOne src p stOk 0) s
      let s := if a.fstatus == 0 then s else s.ackOne src a.fpsn a.fstatus a.freason
      (s.modPath src (fun p => { p with newEchoed := p.newEchoed + a.echo.toNat })).settle)

def execAckTimer (node : BitVec 20) (s : State) : Outcome State Fault Refusal := .next (s.flushAcks node.toNat)

/-- The communicator that a packet names (R429 RETRY_LONG). -/
def packetComm (p : Packet) : Option (BitVec 24) := match p.body with
  | .coll _ c => some c.comm
  | _ => none

/-- A response to a request is re-sent only when the request's duplicate arrives (R242). -/
def isAnswer (p : Packet) : Bool := match p.body with
  | .response _ => true
  | _ => false

/-- The timeout of a retained packet (R242): retransmission, RETRY_EXHAUSTED at the limit for requests, RETRY_LONG once for the others. A packet of this
node to itself has no timeout (R119); one held for a claim is not retransmitted, and one that resolves no more ends with TARGET_LOST (R120, R121). -/
def execE2eRetransmit (node : BitVec 20) (psn : BitVec 32) (s : State) : Outcome State Fault Refusal :=
  let dst := node.toNat
  let limit := s.fld 0x110018 22 5
  .next (match (s.path dst).retained.find? (fun x => x.pkt.hdr.psn == psn) with
    | none => s
    | some x =>
      if dst = s.self || isAnswer x.pkt || (x.acked && !x.needsResp) || s.destOf dst x == .wait then s
      else if s.destOf dst x == .lost then (s.packetOver dst x stTargetLost 0).settle
      else if x.pkt.hdr.cls == 4 || x.pkt.hdr.cls == 5 then
        if x.tries < limit then s.retransmit dst x else (s.packetOver dst x stRetry 0).settle
      else
        let s := if decide (limit ≤ x.tries) && !x.longRaised then
            (s.modPath dst (fun p => { p with retained := p.retained.map (fun y => if y.pkt.hdr.psn == psn then { y with longRaised := true } else y) })).raise
              (((packetComm x.pkt).bind (fun c => s.comm c.toNat)).elim 0 (fun c => c.creator)) retryLong noQueue 0 dst psn.toNat x.pkt.hdr.cls.toNat
          else s
        s.retransmit dst x)

/-- The copies of the response to a request are freed after 50 ms without a covering LUP (R242). -/
def execE2eRespAbandon (node : BitVec 20) (psn : BitVec 32) (s : State) : Outcome State Fault Refusal :=
  let p := s.path node.toNat
  .next (if (p.repliesTo psn).isEmpty then s else (s.setPath node.toNat (p.dropReplies (· == psn))).count 0x260020)

end Sys2Proof.Machine
end

