-- ==== Sys2Proof/Machine/HostLink.lean ====
section
/-! DEFINITION. The host link: translations, page requests, host reads, the window, dirty logging, bus mastering (R344 to R361). -/

namespace Sys2Proof.Machine

open Host (Outcome)

/-! ## Address translation (R353 to R356) -/

/-- The parked streams of a function and PASID in a state, on the page given. -/
def State.parksAt (s : State) (f : Nat) (pasid : BitVec 20) (pg : DWord) (st : ParkState) : List Park :=
  s.parks.filter (fun p => p.f == f && p.pasid == pasid && p.st == st && p.va.toNat / 4096 == pg.toNat / 4096)

/-- Adds a translation as the most recent of at most 32,768 (R353). -/
def State.cacheXlate (s : State) (x : Xlate) : State := { s with xlates := (x :: s.xlates).take 32768 }

/-- The page is one of the further pages of an outstanding Translation Request (R354). -/
def State.askedAhead (s : State) (f : Nat) (pasid : BitVec 20) (pg : DWord) : Bool :=
  let n := pg.toNat / 4096
  s.parks.any (fun p => p.f == f && p.pasid == pasid && p.st == .translating && decide (p.va.toNat / 4096 < n) && decide (n < p.va.toNat / 4096 + p.pages))

/-- The answer for one page: it is cached where it was asked for, and the streams that miss the page go on, ask for the page or fail (R354, R355). -/
def execTranslationAnswer (f : Nat) (pasid : BitVec 20) (pg : DWord) (ans : XlateAnswer) (s : State) : Outcome State Fault Refusal :=
  let ps := s.parksAt f pasid pg .translating
  .next (match ans with
    | .translation pa n w =>
      let s := if ps.isEmpty && !s.askedAhead f pasid pg then s else s.cacheXlate { f, pasid, va := pg, log2 := n, pa, writable := w }
      (ps.foldl (fun s p => if p.write && !w then s.pageOrFail p else s.resumePark p) s).settle
    | .noTranslation => (ps.foldl (fun s p => s.pageOrFail p) s).settle
    | .error => (ps.foldl (fun s p => s.failPark p) s).settle)

def execPrgResponse (f : Nat) (pasid : BitVec 20) (pg : DWord) (code : PrgCode) (s : State) : Outcome State Fault Refusal :=
  let ps := s.parksAt f pasid pg .paging
  .next (match code with
    | .success => (ps.foldl (fun s p => s.setPark p .waiting) s).settle
    | .invalidRequest => (ps.foldl (fun s p => s.failPark p) s).settle
    | .responseFailure => (ps.foldl (fun s p => s.failPark p) (s.setFunc f { s.func f with priStopped := true })).settle)

def execPriTimeout (f : Nat) (pasid : BitVec 20) (pg : DWord) (s : State) : Outcome State Fault Refusal :=
  .next ((s.parksAt f pasid pg .paging).foldl (fun s p => s.failPark p) s).settle

/-- Two address ranges of a power-of-two size meet. -/
def Xlate.meets (x : Xlate) (pg : DWord) (log2 : Nat) : Bool :=
  let n := max log2 x.log2
  x.va.toNat / 2 ^ n == pg.toNat / 2 ^ n

def execAtsInvalidate (f : Nat) (pasid : BitVec 20) (pg : DWord) (log2 : Nat) (itag : BitVec 5) (s : State) : Outcome State Fault Refusal :=
  let gone := fun (x : Xlate) => x.f == f && x.pasid == pasid && x.meets pg log2
  let reads := (s.hreads.filter (fun r => r.f == f && r.pasid == pasid && r.va.toNat / 2 ^ log2 == pg.toNat / 2 ^ log2)).map (·.tag)
  let s : State := { s.count 0x240030 with xlates := s.xlates.filter (fun x => !gone x) }
  .next (if reads.isEmpty then s.emit (.invalDone f itag) else { s with invals := s.invals ++ [(f, itag, reads)] })

/-! ## Host reads (R348, R349) -/

def execHostReadCompletion (tag : Nat) (bytes : List Byte) (s : State) : Outcome State Fault Refusal :=
  .next (match s.hreads.find? (fun r => r.tag == tag) with
    | none => s
    | some r => ((s.readEnded tag).ticketData r.ticket r.off (bytes.take r.len)).settle)

/-- Unsupported Request, Completer Abort, poison or a timeout: counted, and the operand's instruction fails (R349). -/
def execHostReadError (tag : Nat) (_why : HostReadFail) (s : State) : Outcome State Fault Refusal :=
  .next (match s.hreads.find? (fun r => r.tag == tag) with
    | none => s
    | some r => (((s.readEnded tag).count 0x240038).ticketFail r.ticket stTranslation r.va 3).settle)

/-! ## The window (R294, R350, R351) -/

/-- Whether any line is marked, as DIR_EMPTY shows it. -/
def State.setDirEmpty (s : State) : State := s.setFld 0x190008 1 1 (if s.winDir.isEmpty then 1 else 0)

/-- The bytes of a window line: pooled memory, or the store window's (R294). -/
def State.winLine (s : State) (line : Nat) : Option (List Byte × State) :=
  match s.fld 0x150050 0 2 with
  | 1 => some (s.pread (s.fld 0x150050 2 12 * 2 ^ 28 + 64 * line) 64, s)
  | 2 => some (match s.winStore.find? (fun e => e.1 == line) with
    | some e => (e.2, s)
    | none => let d := s.drawBytes 64; (d.1, { d.2 with winStore := d.2.winStore ++ [(line, d.1)] }))
  | _ => none

/-- The window lies on pooled memory that is not ready, or at a lost line: its accesses are held (R291, R443). -/
def State.winHolds (s : State) (line : Nat) : Bool :=
  s.fld 0x150050 0 2 == 1 && (!s.bit 0x200 16 || s.lineLost (s.fld 0x150050 2 12 * 2 ^ 28 + 64 * line) 64)

/-- A read of a window line: the line is returned and marked in the directory (R350). -/
def State.winRead (s : State) (line : Nat) : State :=
  match s.winLine line with
  | none => (s.count 0x240050).emit (.windowData line (List.replicate 64 0) true)
  | some (bs, s) =>
    let s : State := { (s.count 0x220058).emit (.windowData line bs (s.winPoison.contains line)) with
                       winDir := if s.winDir.contains line then s.winDir else s.winDir ++ [line] }
    s.setDirEmpty

/-- Writes a window line (R294): into pooled memory, or into the store window. -/
def State.winWrite (s : State) (line : Nat) (bs : List Byte) : State :=
  match s.fld 0x150050 0 2 with
  | 1 =>
    let off := s.fld 0x150050 2 12 * 2 ^ 28 + 64 * line
    if !s.writeWaits off 64 then s.pwrite off bs else { s with unitWaits := s.unitWaits ++ [{ off, data := bs, ticket := .nobody }] }
  | _ => { s with
    winStore := s.winStore.filter (fun e => e.1 != line) ++ [(line, bs)]
    winPoison := s.winPoison.filter (· != line) }

/-- A host write of a window line; with the window disabled it is discarded (R351). -/
def State.winStoreLine (s : State) (line : Nat) (bytes : List Byte) : State :=
  if s.fld 0x150050 0 2 = 0 ∨ s.fld 0x150050 0 2 = 3 then s.count 0x240050 else (s.count 0x220058).winWrite line bytes

/-- A window access takes place, or is held. -/
def State.takeWindow (s : State) (i : Instr) : State := match i with
  | .windowRead line => if s.winHolds line then { s with winHeld := s.winHeld ++ [i] } else s.winRead line
  | .windowWrite line bytes => if s.winHolds line then { s with winHeld := s.winHeld ++ [i] } else s.winStoreLine line bytes
  | _ => s

/-- The host has the window: CXL runs and the decoder is committed. Without them no access of it reaches the node (R345, R346; DEDUCED, log entry 1). -/
def State.winPresent (s : State) : Bool := s.bit 0x190000 16 && s.bit 0x190000 17

def execWindowRead (line : Nat) (s : State) : Outcome State Fault Refusal :=
  .next (if s.winPresent then s.takeWindow (.windowRead line) else s)

def execWindowWrite (line : Nat) (bytes : List Byte) (s : State) : Outcome State Fault Refusal :=
  .next (if s.winPresent then s.takeWindow (.windowWrite line bytes) else s)

/-- The window accesses that were held, in order. -/
def State.winRelease (s : State) : State :=
  s.winHeld.foldl (fun s i => s.takeWindow i) { s with winHeld := [] }

/-- A BIRsp: the dirty write-back first, then the bit clears and the writes that waited go on (R350, R351). -/
def execBirsp (line : Nat) (dirty : Option (List Byte)) (s : State) : Outcome State Fault Refusal :=
  .next (if s.winDir.contains line then
    let s := dirty.elim s (fun bs => s.winWrite line bs)
    let s : State := { s with winDir := s.winDir.filter (· != line) }
    let s := s.setDirEmpty
    (if s.winDir.isEmpty then s.setFld 0x190008 0 1 0 else s).settle.retryLatoms
  else s)

/-- FLUSH snoops every marked line, and reads 1 until the directory is empty (R351). -/
def execHostWinFlush (s : State) : Outcome State Fault Refusal :=
  .next (if s.winDir.isEmpty then s.setFld 0x190008 0 1 0
    else s.winDir.foldl (fun s l => (s.emit (.biSnp l)).count 0x240048) (s.setFld 0x190008 0 1 1))

/-- The host commits the HDM decoder: the window is usable (R345). -/
def execHdmDecoderCommit (s : State) : Outcome State Fault Refusal := .next (s.setFld 0x190000 17 1 1)

/-- The node holds no host line: RspIHitI (R345). -/
def execH2dSnoop (addr : DWord) (s : State) : Outcome State Fault Refusal := .next (s.emit (.rspIHitI addr))

/-! ## Dirty logging and quiescing (R357 to R359) -/

def dlogBase (f : Nat) : Nat := 0x191000 + 0x20 * f

/-- ENABLE written as 1 sets PI to 0 and clears the filter (R357). -/
def execHostDlogEnable (f : Nat) (on : Bool) (s : State) : Outcome State Fault Refusal :=
  .next (if on then
      ((s.setFld (dlogBase f + 8) 4 1 1).setReg (dlogBase f + 0xC) 0).setFunc f { s.func f with dlogFilter := [] }
    else s.setFld (dlogBase f + 8) 4 1 0)

def execHostDlogRound (f : Nat) (s : State) : Outcome State Fault Refusal := .next (s.setFunc f { s.func f with dlogFilter := [] })

/-- PAUSE: PAUSED follows once nothing is started and no record is held; clearing PAUSE resumes fetching (R359). -/
def execHostDlogPause (f : Nat) (on : Bool) (s : State) : Outcome State Fault Refusal :=
  .next (if on then (s.setFld (dlogBase f + 8) 5 1 1).settle
    else ((s.setFld (dlogBase f + 8) 5 1 0).setFld (dlogBase f + 0x14) 9 1 0).settle)

/-! ## Link events without a reset (R360) -/

/-- A retrain resets nothing: EVENT, RATE and WIDTH show it (R360, R371). -/
def execHostRetrain (rateChange : Bool) (rate : BitVec 3) (width : BitVec 5) (s : State) : Outcome State Fault Refusal :=
  let s := (s.setFld 0x190000 8 3 rate.toNat).setFld 0x190000 11 5 width.toNat
  let s := s.setFld 0x190000 16 1 (if rate.toNat = 5 ∨ rate.toNat = 6 then 1 else 0)
  .next ((((s.setFld 0x190000 18 4 (if rateChange then 6 else 1)).bumpSeq 0x190000).count 0x240000).settle)

def execBusMasterClear (f : Nat) (s : State) : Outcome State Fault Refusal := .next (s.setFunc f { s.func f with busMaster := false })

/-- Bus Master Enable set: the function's waiting accesses go on (R360). A virtual function that masters the bus is enabled (DEDUCED, log entry 6);
in RECOVERY VF Enable is refused (R401). -/
def execBusMasterEnableSet (f : Nat) (s : State) : Outcome State Fault Refusal :=
  .next (if f != 0 && s.bit 0x8000 0 then s
    else (s.setFunc f { s.func f with busMaster := true, vfEnabled := f != 0 }).settle)

/-- The link is up: rate and width, and the CXL protocols at 32 or 64 GT/s (R346, R361). The host enumerates the node: ATS and PRI are enabled
for every function where CXL runs (DESIGN CHOICE, log entry 6). The HOST PLL is locked (R442). With the strap HOST_DIS_N at 0 the link stays down (R469). -/
def execHostLinkUp (rate : BitVec 3) (width : BitVec 5) (s : State) : Outcome State Fault Refusal :=
  let s0 := s
  let cxl := decide (rate.toNat = 5 ∨ rate.toNat = 6)
  let s := ((s.setFld 0x190000 8 3 rate.toNat).setFld 0x190000 11 5 width.toNat).setFld 0x190000 16 1 (if cxl then 1 else 0)
  let s := s.setFld 0x208 4 1 1
  .next (if !s.bit 0x610 9 then s0
    else (List.range 256).foldl (fun s f => s.setFunc f { s.func f with ats := cxl, pri := cxl, priStopped := false }) s)

end Sys2Proof.Machine
end

