-- ==== Sys2Proof/Machine/Keys.lean ====
section
/-! DEFINITION. Memory keys: registering, revoking, draining and releasing (R123 to R133). -/

namespace Sys2Proof.Machine

open Host (Outcome)

/-- The descriptor in KEY_DESC (R125). -/
def State.keyDesc (s : State) (f : Nat) : BitVec 256 :=
  (List.range 8).foldl (fun e i => e ||| ((s.reg (page f (0x1100 + 4 * i))).setWidth 256 <<< (32 * i))) 0

def State.setKeyDesc (s : State) (f : Nat) (d : BitVec 256) : State :=
  (List.range 8).foldl (fun s i => s.setReg (page f (0x1100 + 4 * i)) (d.extractLsb' (32 * i) 32)) s

/-- The STATE code of R125. -/
def KeyState.code : KeyState → Nat
  | .free => 0
  | .valid => 1
  | .draining => 2
  | .drained => 3

/-- The key that INDEX and GEN make (R123). -/
def keyOf (idx : Nat) (gen : BitVec 12) : Word := BitVec.ofNat 32 (idx * 4096 + gen.toNat)

/-- GEN after a GEN, wrapping from 4,095 to 1 (R123). -/
def nextGen (g : BitVec 12) : BitVec 12 := if g == 4095 then 1 else g + 1

/-- The lowest index that has not been used since cold reset, given the sorted table of used ones. -/
def lowestUnused : Nat → Tab KeyEnt → Nat
  | n, [] => n
  | n, (k, _) :: t => if n < k then n else lowestUnused (k + 1) t

/-- The index that the next registration takes: unused ones ascending, then the least recently freed (R123). -/
def State.nextIndex (s : State) : Option Nat :=
  let n := lowestUnused 0 s.keys
  if n < 1048576 then some n else s.freedKeys.head?

/-- Registrations that a function holds (R373 KEYS). -/
def State.keysHeld (s : State) (f : Nat) : Nat := (s.keys.filter (fun k => k.2.owner == f && k.2.state != .free)).length

/-- This node's READY or CLAIMED rank in a communicator (R306). -/
def State.myRank (s : State) (c : Nat) : Option Nat :=
  (s.comm c).bind (fun x => x.ranks.findIdx? (fun r => r.node == s.self && (r.state == .ready || r.state == .claimed)))

/-- BAD_DESCRIPTOR of R126. -/
def State.badKeyDesc (s : State) (f : Nat) (d : BitVec 256) : Bool :=
  let k : KeyEnt := { desc := d }
  k.len == 0 || decide (2 ^ 40 < k.len) || !(k.space == 1 || k.space == 2)
    || (k.space == 2 && decide (0xC000000000 < k.base + k.len))
    || (k.space == 1 && (decide (2 ^ 40 ≤ k.base) || k.base / 2 ^ 38 != (k.base + k.len - 1) / 2 ^ 38))
    || d.extractLsb' 136 8 != 0 || d.extractLsb' 184 8 != 0 || d.extractLsb' 212 44 != 0
    || (if k.right 7 then
          !(match s.comm k.comm with | some c => c.creator == f | none => false) || s.myRank k.comm != some k.rank
        else k.comm != 0 || k.rank != 0)

/-- NOT_GRANTED of R126: the pooled-memory grant, or an accelerator that is present and assigned to the function. -/
def State.keyGranted (s : State) (f : Nat) (d : BitVec 256) : Bool :=
  let k : KeyEnt := { desc := d }
  if k.space = 2 then decide (s.poolBase f ≤ k.base) && decide (k.base + k.len ≤ s.poolBase f + s.poolLen f)
  else s.accPresent (k.base / 2 ^ 38 % 4) && s.accOwner (k.base / 2 ^ 38 % 4) == f

/-- RESULT of REGISTER of a descriptor (R126). Where several apply, the order is the model's (DESIGN CHOICE, log entry 59). -/
def State.registerResult (s : State) (f : Nat) (d : BitVec 256) : Nat :=
  if s.badKeyDesc f d then 2
  else if !s.keyGranted f d then 3
  else if s.keysHeld f ≥ s.grant f 0xC 0 21 ∨ s.nextIndex = none then 4
  else 1

/-- A request with this INDEX has passed its check and waits for placements (R143). -/
def heldOn (idx : Nat) (p : Packet) : Bool := match p.body with
  | .request r => r.opcode != 0x14 && keyIndex r.key == idx
  | _ => false

/-- The message of an accelerator passed its check with this INDEX (R367). -/
def messageOn (idx : Nat) (i : Instr) : Bool := match i with
  | .latom _ _ _ key _ _ _ _ => keyIndex key == idx
  | .lrd _ _ _ _ key => keyIndex key == idx
  | _ => false

/-- A write that waits is one of an accelerator's messages that passed its check with this INDEX. -/
def Ticket.onKey (idx : Nat) (t : Ticket) : Bool := match t with
  | .accelMsg _ _ i => i == idx
  | _ => false

/-- Accesses on a registration that have not finished: admitted remote ones, messages of accelerators, and instructions that passed its local
check (R132). -/
def State.keyBusy (s : State) (idx : Nat) : Bool :=
  s.admitted.any (fun a => a.idx == idx) || s.placeReqs.any (fun e => heldOn idx e.1)
    || s.winWaits.any (fun w => w.ticket.onKey idx) || s.unitWaits.any (fun w => w.ticket.onKey idx) || s.latoms.any (fun l => messageOn idx l.2)
    || s.runs.any (fun r => r.bufs.any (fun b => b.1.keyed == some idx))
    || s.colls.any (fun c => (s.run? c.rid).isSome && c.opnds.any (fun o => o.keyed == some idx))

/-- Frees an index (R123). -/
def State.freeKey (s : State) (idx : Nat) : State :=
  { s.setKey idx { s.key idx with state := .free } with
    freedKeys := s.freedKeys ++ [idx], ctxKeys := s.ctxKeys.filter (· != idx) }

/-- The end of a key command: RESULT, STATE of the named key, GO cleared, SEQ (R125). -/
def State.keyDone (s : State) (f res : Nat) (st : Nat) : State :=
  ((s.setFld (page f 0x1124) 31 1 0).setFld (page f 0x1128) 12 2 st).setResult (page f 0x1128) res

/-- KEY_CMD is written with an OP: ignored and counted while GO reads 1 (R125). -/
def State.keyCmd (s : State) (f op : Nat) (k : State → State) : State :=
  if s.bit (page f 0x1124) 31 then s.count (page f 0x2010) else k (s.setFld (page f 0x1124) 0 3 op)

/-- The registration that KEY_CMD_KEY names, where function f owns it (R126 NOT_REGISTERED). -/
def State.namedKey (s : State) (f : Nat) : Option Nat :=
  let k := s.reg (page f 0x1120)
  let e := s.key (keyIndex k)
  if e.state != .free && e.gen == keyGen k && e.owner == f then some (keyIndex k) else none

/-- A new registration in state VALID with the next GEN of its index (R123, R127). -/
def State.makeKey (s : State) (f idx : Nat) (d : BitVec 256) : State :=
  let s := s.setKey idx { gen := nextGen (s.key idx).gen, state := .valid, owner := f, desc := d }
  { s with freedKeys := s.freedKeys.filter (· != idx), ctxKeys := (idx :: s.ctxKeys.filter (· != idx)).take 65536 }

/-- REGISTER of a descriptor acts: BAD results change nothing; DONE returns the new key in KEY_CMD_KEY (R125, R127). -/
def State.registerKey (s : State) (f : Nat) (d : BitVec 256) : State :=
  match s.registerResult f d, s.nextIndex with
  | 1, some idx =>
    let t := s.makeKey f idx d
    (t.setReg (page f 0x1120) (keyOf idx (t.key idx).gen)).keyDone f 1 1
  | res, _ => s.keyDone f res 0

/-- The pool is trained and cleared (R442 POOL_READY). -/
def State.poolReady (s : State) : Bool := s.bit 0x200 16

def execKeyQuery (f : Nat) (s : State) : Outcome State Fault Refusal :=
  .next (s.keyCmd f 0 (fun s => match s.namedKey f with
    | none => s.keyDone f 5 0
    | some i => (s.setKeyDesc f (s.key i).desc).keyDone f 1 (s.key i).state.code))

/-- A REGISTER of SPACE POOL before POOL_READY waits for it with GO reading 1, and keeps the descriptor read as GO was written (R125). -/
def execKeyRegister (f : Nat) (s : State) : Outcome State Fault Refusal :=
  .next (s.keyCmd f 1 (fun s =>
    if ({ desc := s.keyDesc f } : KeyEnt).space = 2 && !s.poolReady then
      (s.setFld (page f 0x1124) 31 1 1).setFunc f { s.func f with keyReg := some (s.keyDesc f) }
    else s.registerKey f (s.keyDesc f)))

/-- Pooled memory is cleared: POOL_READY is set, and each REGISTER that waited runs (R443); window accesses are seen to in execPoolReady. -/
def State.poolComesReady (s : State) : State :=
  if s.poolReady then s
  else (List.range 256).foldl (fun s f =>
    match (s.func f).keyReg with
    | some d => ((s.setFld (page f 0x1124) 31 1 0).setFunc f { s.func f with keyReg := none }).registerKey f d
    | none => s)
    ((s.setFld 0x200 16 1 1).bumpSeq 0x200)

/-- The revocation point of a VALID key (R131). -/
def State.revokeKey (s : State) (i : Nat) : State :=
  s.setKey i { s.key i with state := if s.keyBusy i then .draining else .drained }

def execKeyRevoke (f : Nat) (s : State) : Outcome State Fault Refusal :=
  .next (s.keyCmd f 2 (fun s => match s.namedKey f with
    | none => s.keyDone f 5 0
    | some i =>
      if (s.key i).state == .valid then
        let t := s.revokeKey i
        t.keyDone f 1 (t.key i).state.code
      else s.keyDone f 6 (s.key i).state.code))

def execKeyRelease (f : Nat) (s : State) : Outcome State Fault Refusal :=
  .next (s.keyCmd f 3 (fun s => match s.namedKey f with
    | none => s.keyDone f 5 0
    | some i => match (s.key i).state with
      | .drained => (s.freeKey i).keyDone f 1 0
      | .draining => s.keyDone f 7 2
      | _ => s.keyDone f 6 (s.key i).state.code))

/-- A draining key whose accesses have all finished is drained; one that a reset revoked is released by itself (R132, R133). -/
def execKeyDrained (index : Nat) (s : State) : Outcome State Fault Refusal :=
  let k := s.key index
  .next (if k.state == .draining && !s.keyBusy index then
    if k.autoRelease then s.freeKey index else s.setKey index { k with state := .drained }
  else s)

/-- A reset revokes every registration that p picks at one point, and releases each as it drains (R133). -/
def State.revokeWhere (s : State) (p : KeyEnt → Bool) : State :=
  (s.keys.filter (fun k => k.2.state != .free && p k.2)).foldl (fun s k =>
    let t := s.setKey k.1 { s.key k.1 with state := .draining, autoRelease := true }
    if t.keyBusy k.1 then t else t.freeKey k.1) s

end Sys2Proof.Machine
end

