-- ==== Sys2Proof/Machine/Resets.lean ====
section
/-! DEFINITION. Ending the work of a function, and bind-off, as shared operations (R115, R133, R299, R300, R360, R370, R441). -/

namespace Sys2Proof.Machine

open Host (Outcome)

/-! ## Ending the work of a queue (R115 steps 2 and 3) -/

/-- A record of an instruction that a reset completes: no counter update, no SOL (R45, R115); of a run, with its flags and the bytes transferred (R86,
R88). -/
def endRecord (st : BitVec 8) (i : Fetched) (iter : Word) (flags : BitVec 4 := 0) (info : DWord := 0) : CRec where
  status := st
  opcode := entOpcode i.w
  eseq := i.pos
  iter := iter
  flags := flags
  detail := 0
  result := 0
  info := info
  ctr := none
  err := true
  sol := none
  startT := 0

/-- Remaining instances of a REPEAT in progress, and the first n of them (R115). -/
def Rep.remaining (r : Rep) : Nat := (((entW1 r.ins.w).toNat - r.pass) * r.body.length) - r.next
def Rep.instances : Nat → Rep → List CRec
  | 0, _ => []
  | n + 1, r =>
    match repInstance r with
    | none => []
    | some i => endRecord 0 i (BitVec.ofNat 32 r.pass)
        :: Rep.instances n (if r.next + 1 < r.body.length then { r with next := r.next + 1 } else { r with next := 0, pass := r.pass + 1 })

/-- Records that completing everything accepted by a queue makes, at most room many in full, and the number of the others. A REPEAT's record follows those
of its instances (R65). -/
def State.endRecords (s : State) (g : Nat) (st : BitVec 8) (room : Nat) : List CRec × Nat :=
  let q := s.queue g
  let runs := (s.runs.filter (fun r => r.g == g)).partition (fun r => r.phase != .passes)
  let rec_ := fun (r : Run) =>
    let x := s.report { r with status := st, info := BitVec.ofNat 64 r.acked }
    endRecord st r.ins r.iter x.flags x.info
  let inst := q.rep.elim [] (fun r => (Rep.instances (min room r.remaining) r).map (fun c => { c with status := st }))
  let more := q.rep.elim 0 Rep.remaining
  let held := q.held.flatMap (fun a => endRecord st a.ins 0 :: a.body.map (fun b => endRecord st b 0))
  let all := q.heldRecs ++ runs.1.map rec_ ++ inst ++ runs.2.map rec_ ++ held
  (all.take room, q.heldRecs.length + runs.1.length + runs.2.length + more + held.length - min room all.length)

/-- Writes a record without RINGKEY's check and without waiting (R115 step 3). -/
def State.endWrite (s : State) (g : Nat) (r : CRec) : State :=
  let q := s.queue g
  let f := s.ownerOf g
  let size := qCringSize q.desc
  let va := qCringBase q.desc + BitVec.ofNat 64 (32 * (q.cpi.toNat % size))
  let bs := recordBytes (s.relQ g) (lap q.cpi size) r
  let s := s.setQueue g { q with cpi := q.cpi + 1 }
  if qCringSp q.desc = 1 then s.awr (va.toNat / 2 ^ 38 % 4) (va.toNat % 2 ^ 38) bs .nobody
  else (s.hostWriteAll 3 f (qPasid q.desc) va bs .nobody).2

/-- The transactions of a queue's instructions stay with its function until they are released (R115). -/
def State.orphanTxns (s : State) (g : Nat) : State := { s with txns := s.txns.map (fun t => if t.q = some g then { t with q := none } else t) }

/-- The records of queue g that are on their way to an accelerator bring no counter update and no interrupt any more, and its rings wait for no
translation (R115). -/
def State.dropTickets (s : State) (g : Nat) : State :=
  let f := fun (t : Ticket) => match t with
    | .record h _ _ _ => if h = g then Ticket.nobody else t
    | _ => t
  { s with
    accels := s.accels.map (fun a => (a.1, { a.2 with ops := a.2.ops.map (fun o => { o with ticket := f o.ticket }) }))
    parks := s.parks.filter (fun p => p.ticket != .cring g && p.ticket != .wring g) }

/-- Completes every accepted instruction of queue g with a status; host says that HOSTVA rings are written. The records that find no room, a lost
accelerator or a ring that is not written are counted in FUNC_CQ_DISCARDED. -/
def State.endQueue (s : State) (g : Nat) (st : BitVec 8) (host : Bool) : State :=
  let q := s.queue g
  let f := s.ownerOf g
  let reach := if qCringSp q.desc = 1 then s.accPresent ((qCringBase q.desc).toNat / 2 ^ 38 % 4) else host
  let room := if reach then qCringSize q.desc - (q.cpi - q.cci).toNat else 0
  let rs := s.endRecords g st room
  let s : State := (({ s with runs := s.runs.filter (fun r => r.g != g) } : State).orphanTxns g).dropTickets g
  let s := s.modQueue g (fun q => { q with
    held := [], half := none, collect := none, rep := none, heldRecs := [], completed := q.accepted, stale := none, txnWait := none, txnColl := false
    fetch := q.fetch })
  (rs.1.foldl (fun s r => s.endWrite g r) s).count (page f 0x2018) rs.2

/-- The queues of a function that exist. -/
def State.queuesOf (s : State) (f : Nat) : List Nat :=
  (s.queues.filter (fun q => q.2.created && s.ownerOf q.1 == f)).map (·.1)

/-! ## Resetting a function (R115, R133, R360) -/

/-- Offsets of the page registers that a function-wide reset returns to their reset values: monitors and the fault queue, whose OVERFLOW persists
(R386, R425). -/
def resetOffsets : List Nat :=
  (List.range 128).map (fun i => 0x1400 + 4 * i) ++ [0x1900, 0x1904, 0x1908, 0x190C, 0x1910, 0x1914, 0x1918]

/-- The streams, translations and reads of a function are dropped (R360). -/
def State.dropHost (s : State) (f : Nat) : State :=
  { s with xlates := s.xlates.filter (fun x => x.f != f), parks := s.parks.filter (fun p => p.f != f),
           hreads := s.hreads.map (fun r => if r.f == f then { r with ticket := .nobody } else r) }

/-- Steps 1 to 4 of R115 for function f, with what else a function-wide reset does: its streams are dropped before its records are written, which may
still wait for translations. revoke says which registrations go (R133). -/
def State.resetFunction (s : State) (f : Nat) (cause : Nat) (st : BitVec 8) (host : Bool) (revoke : KeyEnt → Bool) : State :=
  let a := page f 0x1A00
  let s := if s.bit a 8 then s.setFld a 9 3 cause else ((s.setFld a 8 1 1).setFld a 9 3 cause).bumpSeq a
  let qs := s.queuesOf f
  let s := qs.foldl (fun s g => s.endQueue g st host) (((s.dropHost f).dropRecs .fault f).dropRecs .sample f)
  let s := qs.foldl (fun s g => s.setQueue g {}) s
  let s := (List.range (s.ccount f)).foldl (fun s c => s.setRowc (s.cbase f + c) 0) s
  let s := s.revokeWhere revoke
  let s := resetOffsets.foldl (fun s o => s.setReg (page f o) (regReset (page f o))) s
  let s := ((s.setReg (page f 0x191C) (s.reg (page f 0x191C) &&& bitMask 8 1)).setFld (page f 0x108C) 0 1 0).setFld (page f 0x1700) 0 1 0
  let s := (s.dropRecs .fault f).dropRecs .sample f
  s.setFunc f { s.func f with fseq := 0, irqSent := false, snum := 0, keyReg := none }

/-! ## Bind-off (R299, R300) -/

/-- The node binds off: BOUND_OFF and CAUSE, BIND_OFF in the four symbol positions of a CTRL slot on every port, the MSI-X message, and the
completions of step 5 (R263, R300). -/
def State.bindOff (s : State) (cause : Nat) : State :=
  if s.boundOff then s
  else
    let s := ((s.setFld 0x170004 16 1 1).setFld 0x170004 8 8 cause).bumpSeq 0x170004
    let s := (s.setFld 0x200 8 4 6).bumpSeq 0x200
    let sym := ctrlSymbol 0x04 (leBytes 3 s.self ++ [BitVec.ofNat 8 cause])
    let s := (List.range 36).foldl (fun s p => ((((s.emit (.symbol p sym)).emit (.symbol p sym)).emit (.symbol p sym)).emit (.symbol p sym))) s
    let s := s.emit (.msix 0 (s.fld (page 0 0x190C) 7 11))
    if cause = 1 then s
    else
      let s := s.raise 0 nodeBoundOff noQueue 0 cause 0 0
      ((s.queues.filter (fun q => q.2.created)).map (·.1)).foldl (fun s g => s.endQueue g stFuncReset s.hostUp) s

/-- 10 µs of BIND_OFF have passed: transmitters are squelched and every port is held (R263, R300). -/
def execBindOffSquelch (s : State) : Outcome State Fault Refusal :=
  .next (if s.boundOff then (List.range 36).foldl (fun s p =>
      if s.pstate p = psHeld then s.modPort p (fun x => { x with heldBy := .boundOff }) else s.portDown p dcNodeBindOff .boundOff) s
    else s)

/-! ## Losing an accelerator (R370) -/

/-- Queue g has a ring in accelerator a. -/
def Queue.usesAccel (q : Queue) (a : Nat) : Bool :=
  (qRingSp q.desc == 1 && (qRingBase q.desc).toNat / 2 ^ 38 % 4 == a) || (qCringSp q.desc == 1 && (qCringBase q.desc).toNat / 2 ^ 38 % 4 == a)

/-- The operand is on accelerator a. -/
def Opnd.onAccel (o : Opnd) (a : Nat) : Bool := o.space == .accel && decide (o.len > 0) && o.addr.toNat / 2 ^ 38 % 4 == a

/-- The accelerator is lost: PRESENT is cleared, its registrations go, its operands and requests fail, records that have not been placed in it are
counted, and the queues with rings in it end (R31, R370). -/
def State.loseAccel (s : State) (a : Nat) : State :=
  let b := 0x1A0000 + 0x10 * a
  let group := s.fld (b + 4) 0 20
  let s := ((((s.setFld b 8 1 0).setFld b 9 4 0).setFld b 13 2 0).count (attCtr a 0x20)).raise 0 accelLostF noQueue 0 a group 0
  let s := s.revokeWhere (fun k => k.space == 1 && k.base / 2 ^ 38 % 4 == a)
  let ops := (s.accel a).ops ++ (s.accel a).waiting.map (·.1)
  let s := s.setAccel a {}
  let s : State := { s with attWait := s.attWait.filter (fun w => w.1 != a), latoms := s.latoms.filter (fun l => l.1 != a) }
  let s := ((s.runs.filter (fun r => (s.opndsOf r).any (fun o => o.onAccel a))).map (·.rid)).foldl (fun s rid => match s.run? rid with
    | some r => s.completeWith r stAccessLocal 0 (((s.opndsOf r).find? (fun o => o.onAccel a)).elim 0 (·.addr))
    | none => s) s
  let s := ops.foldl (fun s o => match o.ticket with
    | .record g _ _ _ => s.count (page (s.ownerOf g) 0x2018)
    | t => s.ticketFail t stAccessLocal o.addr 3) s
  ((s.queues.filter (fun q => q.2.created && q.2.usesAccel a)).map (·.1)).foldl (fun s g => (s.endQueue g stFuncReset s.hostUp).setQueue g {}) s

/-- The retransmission timeout of an attach packet; at RETRY_LIMIT transmissions the group's ports go down and the accelerator is lost
(R366, R370). -/
def execAttachRetransmit (a : Nat) (psn : BitVec 32) (s : State) : Outcome State Fault Refusal :=
  .next (match (s.accel a).retained.find? (fun r => r.1 == psn) with
    | none => s
    | some (p, n, m) =>
      if n < s.fld 0x1A0040 16 5 then
        ((s.setAccel a { s.accel a with retained := (s.accel a).retained.map (fun r => if r.1 == psn then (p, n + 1, m) else r) }).count
          (attCtr a 0)).attachXmit a p m
      else ((((s.accel a).links.foldl (fun s l => s.attachPortDown l.1) s)).loseAccel a).settle)

/-- Every port of the group has been down for LOST. -/
def execAccelLost (a : Nat) (s : State) : Outcome State Fault Refusal :=
  .next (if s.accPresent a && !((s.accel a).links.any (fun l => s.portUp l.1)) then (s.loseAccel a).settle else s)

end Sys2Proof.Machine
end

