-- ==== Sys2Proof/Machine/Recovery.lean ====
section
/-! DEFINITION. Losses, claims and frogs: dead-node and claim notices, frog requests, darning and the job commands (R28, R299 to R328, R342, R343). -/

namespace Sys2Proof.Machine

open Host (Outcome)

/-! ## Starting a frog (R320 to R322, R332) -/

/-- This node holds a READY rank in a communicator of the job; it holds a claim of the job. -/
def State.isMember (s : State) (j : Nat) : Bool :=
  (s.jobComms j).any (fun x => x.2.ranks.any (fun r => r.node == s.self && r.state == .ready))
def State.isClaimant (s : State) (j : Nat) : Bool := s.claims.any (fun x => x.job == j)

/-- Sends a frog request: COMM and PIDX from the recorded commit communicator, or the cause's communicator (R321). -/
def State.sendFrog (s : State) (j number comm : Nat) (except : Option Nat) : State :=
  let commit := (s.job j).commit
  let seq := (commit.bind (fun c => s.journal? c)).elim 0 (fun x => x.ccseq)
  let c : CollF := {
    opcode := 0x40, comm := BitVec.ofNat 24 (commit.getD comm), npkt := 1, exc := false, cgen := 0, cseq := seq,
    chunk := BitVec.ofNat 26 number, pidx := (if commit.isSome then 1 else 0), srank := 0, pdig := 0, tcrc := 0 }
  let s : State := { s with frogSeen := s.frogSeen ++ [(j, number)] }
  (s.floodPorts except).foldl (fun s p => s.sendCtl p (BitVec.ofNat 20 s.self) (.coll .chunkLoss c)) s

/-- Takes the vote packets of a frog number back. -/
def State.dropVotes (s : State) (j number : Nat) : State :=
  let cs := (s.jobComms j).map (fun x => x.1)
  { s with xfers := s.xfers.filter (fun x => !(x.cseq == 0 && x.op == 0x40 && cs.contains x.comm && x.chunk == number % 2 ^ 26)) }

/-- A frog of a number from its first step. -/
def newFrog (number : Nat) : Frog := { number, phase := .claims, votes := [], voted := false, target := none }

/-- A cause of a frog (1 dead node, 2 chunk loss, 3 uncorrectable line, 4 host link or FLR, 5 FROG, 6 request), with the number of a request:
a member's frog starts, or restarts its vote with the next number, or follows the restore in progress; a spare's vote and darning start again, but the loss
of its host lets them end first; any other node keeps the number. FROG at a node that is no member asks the members for a frog, with the number above the
last one heard of (R320, R322, R332, R343; DEDUCED, log entry 39). -/
def State.frogCause (s : State) (j cause comm : Nat) (num : Option Nat) : State :=
  let job := s.job j
  let flood := fun (s : State) (n : Nat) => if cause = 6 ∨ (cause = 1 ∧ (s.job j).commit.isNone) then s else s.sendFrog j n comm none
  let claimant := !s.isMember j && s.isClaimant j
  if claimant && cause == 4 then s.setJob j { job with again := true }
  else match job.frog with
  | some f =>
    if claimant && f.number == 0 && num.isNone && cause != 5 then
      (s.dropVotes j 0).setJob j { job with frog := some (newFrog 0), settled := false }
    else if f.phase = .restore then
      (match num with
       | some n => if n ≤ f.number then s else s.setJob j { job with again := true }
       | none => s.setJob j { job with again := true })
    else
      let n := num.getD (max f.number (if claimant then job.heard else 0) + 1)
      if n ≤ f.number then s
      else flood ((s.dropVotes j f.number).setJob j { job with frog := some (newFrog n), settled := false }) n
  | none =>
    let n := num.getD (if cause = 5 ∧ !s.isMember j then max job.frogs job.heard + 1 else job.frogs + 1)
    if n ≤ job.frogs then s
    else if s.isMember j then
      let c := job.commit.getD comm
      let s := (s.setJob j { job with frog := some (newFrog n), settled := false }).frogRuns j
      flood (s.raise ((s.comm c).elim 0 (fun x => x.creator)) jobFrogged noQueue 0 c n cause) n
    else if claimant then
      let s : State := { s with claims := s.claims.map (fun x => if x.job = j ∧ (x.phase = .darning ∨ x.phase = .halted) then { x with phase := .settled, todo := [] } else x) }
      if cause = 5 then flood (s.setJob j { job with frog := some (newFrog n) }) n
      else s.setJob j { job with frog := some (newFrog (num.getD 0)) }
    else
      let s := s.setJob j { job with heard := max job.heard n }
      if cause = 5 then flood s n else s

/-! ## Claims (R309 to R311) -/

/-- Floods a claim of this node. -/
def State.floodClaim (s : State) (comm rank : Nat) (cgen : BitVec 16) : State :=
  s.announce .rankClaim { newNotice s.self with comm := BitVec.ofNat 24 comm, rank := BitVec.ofNat 20 rank, cgen := cgen } (s.floodPorts none)

/-- Changes a rank of a map in place, and of a map that started collectives still use where the rank stands the same there (R178, R308). -/
def State.setRank (s : State) (comm rank : Nat) (h : Rank → Rank) : State :=
  match s.comm comm with
  | none => s
  | some c =>
    let at_ := fun (ranks : List Rank) (p : Rank → Bool) => ranks.zipIdx.map (fun x => if x.2 = rank ∧ p x.1 then h x.1 else x.1)
    let was := c.ranks[rank]?
    s.setComm comm (some { c with
      ranks := at_ c.ranks (fun _ => true)
      olds := c.olds.map (fun m => { m with ranks := at_ m.ranks (fun x => was.elim false (fun y => y.node == x.node && y.cgen == x.cgen)) }) })

/-- The next odd generation above one, none above 0xFFFD (R306). -/
def nextClaim (g : BitVec 16) : Option (BitVec 16) :=
  let n := g.toNat + (if g.getLsbD 0 then 2 else 1)
  if n ≤ 0xFFFD then some (BitVec.ofNat 16 n) else none

/-- A lost rank becomes ABANDONED (R306, R311). -/
def State.abandon (s : State) (comm rank : Nat) : State :=
  let s := s.setRank comm rank (fun r => { r with cgen := 0xFFFF })
  let j := (s.comm comm).elim 0 (fun c => c.job)
  s.raise ((s.comm ((s.job j).commit.getD comm)).elim 0 (fun c => c.creator)) rankAbandonedF noQueue 0 comm rank 0

/-- The lost nodes of a job in ascending id, and its free spares in list order (R309). -/
def State.lostNodes (s : State) (j : Nat) : List Nat :=
  let ns := (s.jobComms j).flatMap (fun x => (x.2.ranks.filter s.openRank).map (fun r => r.node))
  (ns.dedup).mergeSort (· ≤ ·)
def State.freeSpares (s : State) (j : Nat) : List Nat :=
  let cs := s.jobComms j
  let list := (cs.head?).elim [] (fun x => x.2.spares)
  list.filter (fun n => !s.lost.contains n && !cs.any (fun x => x.2.ranks.any (fun r => r.node == n && r.state != .abandoned)))

/-- A claim of one rank by this node (R310 step 1). -/
def State.claimRank (s : State) (j comm rank : Nat) (g : BitVec 16) : State :=
  match nextClaim g with
  | none => s.abandon comm rank
  | some g =>
    let s := (s.setRank comm rank (fun r => { r with node := s.self, cgen := g })).count 0x230008
    ({ s with claims := s.claims ++ [{ job := j, comm, rank, cgen := g, phase := .sent }] } : State).floodClaim comm rank g

/-- This node, if it is the j-th free spare, claims the ranks of the j-th lost node (R309, R310). -/
def State.makeClaims (s : State) (j : Nat) : State :=
  match (s.freeSpares j).findIdx? (· == s.self) with
  | none => s
  | some i => match (s.lostNodes j)[i]? with
    | none => s
    | some x =>
      let ranks := (s.jobComms j).flatMap (fun c => (c.2.ranks.zipIdx.filter (fun r => r.1.node == x && s.openRank r.1)).map (fun r => (c.1, r.2, r.1.cgen)))
      let s := ranks.foldl (fun s r => s.claimRank j r.1 r.2.1 r.2.2) s
      let job := s.job j
      let s := if (s.isClaimant j) && job.frog.isNone then s.setJob j { job with frog := some (newFrog (if job.heard > job.frogs then job.heard else 0)), settled := false } else s
      s.showClaiming

/-- Transfers held for a rank that can be reached now leave, to the node that the map names (R121, R310 step 6). -/
def State.releaseXfers (s : State) (comm rank : Nat) : State :=
  (s.xfers.filter (fun x => x.comm == comm && x.peers.any (fun p => p.rank == rank && p.held))).foldl (fun s x =>
    match s.rankAt? comm x.cseq rank with
    | none => s
    | some r =>
      if s.rankReach comm x.cseq rank r.node then
        ({ s with xfers := s.xfers.map (fun y => if y = x then
          { x with peers := x.peers.map (fun p => if p.rank = rank then { p with node := r.node, tries := 1, held := false } else p) } else y) } : State).sendXfer x r.node
      else s) s

/-- The place of a node in a communicator's spare list. -/
def Comm.sparePlace (c : Comm) (n : Nat) : Nat := (c.spares.findIdx? (· == n)).getD c.spares.length

/-- A claim or a ready report is applied (R310 steps 2, 3 and 6). -/
def State.applyClaim (s : State) (comm rank subject : Nat) (g : BitVec 16) : State :=
  match s.comm comm with
  | none => s
  | some c => match c.ranks[rank]? with
    | none => s
    | some r =>
      if r.cgen.toNat < g.toNat ∨ (r.cgen = g ∧ r.node ≠ subject ∧ c.sparePlace subject < c.sparePlace r.node) then
        let mine := s.claims.any (fun x => x.comm == comm && x.rank == rank) && subject != s.self
        let s := s.setRank comm rank (fun r => { r with node := subject, cgen := g })
        let s := if g.getLsbD 0 then s.setJob c.job { s.job c.job with settled := false } else s
        let s := if mine then
            (({ s with claims := s.claims.filter (fun x => !(x.comm == comm && x.rank == rank)) } : State).count 0x230010).makeClaims c.job |>.showClaiming
          else s
        s.releaseXfers comm rank
      else s

/-! ## A node is lost (R301 to R304, R148, R151) -/

/-- A packet that is held for the rank it is addressed to when its node is lost: of an instruction in logical form, or of a collective; a placement
request fails instead (R121, R143, R151). -/
def Retained.logical (x : Retained) : Bool :=
  raForm x.addr == 1 && x.comm.isSome && !(match x.pkt.body with | .request q => q.opcode == 0x14 | _ => false)

/-- What this node holds toward a lost node: physical-form requests fail, and packets of its engines go; logical requests, the answers of
collectives and chunk transfers are held (R121, R148, R151, R242). -/
def State.dropToward (s : State) (n : Nat) : State :=
  let p := s.path n
  let s := ((p.retained ++ p.waitq).filter (fun x => !x.logical)).foldl (fun s x => s.packetOver n x stTargetLost 0) s
  { s with xfers := s.xfers.map (fun x => { x with peers := x.peers.map (fun q => if q.node = n then { q with held := true } else q) }) }

/-- Acts on the loss of a node for the first time. -/
def State.actLost (s : State) (n : Nat) : State :=
  if s.lost.contains n then s
  else if n = s.self then s.bindOff 5
  else
    let s := (({ s with lost := s.lost ++ [n] } : State).count 0x230000).rowsChanged
    let s := s.dropToward n
    let jobs := ((s.comms.filterMap (fun x => x.2.map (fun c => (x.1, c)))).filter (fun x => x.2.ranks.any (fun r => r.node == n && r.state != .abandoned))).map
      (fun x => (x.2.job, x.1))
    let firsts := jobs.foldl (fun (l : List (Nat × Nat)) x => if l.any (fun y => y.1 == x.1) then l else l ++ [x]) []
    let s := firsts.foldl (fun s x => s.frogCause x.1 1 x.2 none) s
    firsts.foldl (fun s x => s.makeClaims x.1) s

/-- Sends DEAD_NODE for a node with a reason, after acting on it here (R301, R302). -/
def State.declareLost (s : State) (n reason : Nat) : State :=
  if s.lost.contains n then s
  else
    let s := s.announce .deadNode { newNotice n with reason := BitVec.ofNat 8 reason } (s.floodPorts none)
    (s.actLost n).settle

/-- The dimension in which a node's row may declare it lost: the lowest with another live member (R301). -/
def State.confirmDim (s : State) (x : Nat) : Option Nat :=
  s.dims.find? (fun n => (List.range (s.dimSize n)).any (fun v => v != coord x n && !s.isLost (withCoord x n v)))

/-- Every link between a node and its row in a dimension is down in this node's row table. -/
def State.allDown (s : State) (x n : Nat) : Bool :=
  (List.range (s.dimSize n)).all (fun v => v == coord x n || s.linkDown n v (coord x n))

/-- DEAD_CONFIRM has passed for node x at this node (R301). -/
def execDeadConfirm (x : BitVec 20) (s : State) : Outcome State Fault Refusal :=
  let n := x.toNat
  .next (match s.confirmDim n with
    | none => s
    | some d =>
      if s.diff s.self n == [d] && s.allDown n d && !s.boundOff && n != s.self then s.declareLost n 1 else s)

/-- A flooded notice goes on over every up fabric port but the one it came in on (R302). -/
def State.forwardNotice (s : State) (p : Nat) (k : NoticeKind) (h : Hdr) (n : NoticeF) : State :=
  (s.floodPorts (some p)).foldl (fun s q => s.sendCtl q h.src (.notice k n)) s

/-- A notice with a reserved REASON is discarded (R301). -/
def execDeadNode (p : Nat) (h : Hdr) (n : NoticeF) (s : State) : Outcome State Fault Refusal :=
  .next (s.takeNotice .deadNode h n (fun s =>
    if n.reason != 1 && n.reason != 2 then s else ((s.forwardNotice p .deadNode h n).actLost n.subject.toNat).settle))

def execRankClaim (p : Nat) (h : Hdr) (n : NoticeF) (s : State) : Outcome State Fault Refusal :=
  .next (s.takeNotice .rankClaim h n (fun s =>
    ((s.forwardNotice p .rankClaim h n).applyClaim n.comm.toNat n.rank.toNat n.subject.toNat n.cgen).settle))

/-- CLAIM_SETTLE has passed at this node for the claims of a job; a spare with a standing claim goes on. shard and units are the commit area of
the lost rank as the spare has learned it (log entry 16). -/
def execClaimSettle (job : BitVec 24) (shard units : Nat) (s : State) : Outcome State Fault Refusal :=
  let j := job.toNat
  let s := s.setJob j { s.job j with settled := true }
  .next (({ s with claims := s.claims.map (fun x => if x.job = j ∧ x.phase = .sent then { x with phase := .settled, base := shard, n := units } else x) } : State)).settle

/-- Every spare of the job is lost or holds a claim or a rank (R311). -/
def State.noSpareLeft (s : State) (j : Nat) : Bool := (s.freeSpares j).isEmpty

def execRankAbandoned (comm : BitVec 24) (rank : BitVec 20) (s : State) : Outcome State Fault Refusal :=
  .next (match s.comm comm.toNat with
    | none => s
    | some c => match c.ranks[rank.toNat]? with
      | none => s
      | some r => if s.openRank r && s.noSpareLeft c.job then (s.abandon comm.toNat rank.toNat).settle else s)

/-! ## Frog requests and the end of a frog (R321, R322) -/

/-- A frog request: forwarded once per job and number; it may name the commit communicator (R317, R321). -/
def State.takeFrog (s : State) (p : Nat) (h : Hdr) (c : CollF) : State :=
  let comm := c.comm.toNat
  let n := c.chunk.toNat
  let j := (s.comm comm).elim (2 ^ 24 + comm) (fun x => x.job)
  if s.frogSeen.contains (j, n) then s
  else
    let s : State := { s with frogSeen := s.frogSeen ++ [(j, n)] }
    if n ≤ (s.job j).frogs then s
    else
      let s := (s.floodPorts (some p)).foldl (fun s q => s.sendCtl q h.src (.coll .chunkLoss c)) s
      match s.comm comm with
      | none => s
      | some x =>
        let s := if c.pidx = 1 ∧ (s.job x.job).commit.isNone then s.setJob x.job { s.job x.job with commit := some comm } else s
        let s := match (s.job x.job).frog with
          | some f => if f.number = 0 then s.setJob x.job { s.job x.job with frog := some { f with number := n } } else s
          | none => s
        s.frogCause x.job 6 comm (some n)

def execFrogRequest (p : Nat) (h : Hdr) (c : CollF) (s : State) : Outcome State Fault Refusal :=
  let s := s.consume { hdr := h, body := .coll .chunkLoss c, payload := [] }
  .next (if s.boundOff then s
    else if s.isLost h.src.toNat then s.count 0x260078
    else (s.takeFrog p h c).settle)

/-- 2 ms have passed without a commit communicator: no vote (R322 step 3). -/
def execFrogVoteWait (job : BitVec 24) (s : State) : Outcome State Fault Refusal :=
  .next (match (s.job job.toNat).frog with
    | some f => if f.phase = .noCommit then (s.frogDone job.toNat f).settle else s
    | none => s)

/-- Copies every saved unit of a journal back from its undo copy (R322 step 4). -/
def State.undo (s : State) (j : Journal) : State :=
  j.saved.foldl (fun s u => (s.pwrite (j.base + u * UNIT) (s.pread (j.undo u) UNIT)).count 0x230028) s

/-- Step 4 at a member: the undo copies return, or the prepared step is committed (R322). -/
def State.frogRestore (s : State) (comm rank : Nat) (t : DWord × Word) : State :=
  match s.journal? comm with
  | none => s
  | some j =>
    let kept := s.keptSnap comm
    let frogged := fun (s : State) => match kept.bind s.run? with
      | some r => s.completeWith r stFrogged
      | none => s
    if j.cstep = t.1 then
      let s := s.undo j
      let j : Journal := { j with st := .idle, saved := [] }
      frogged ((s.clearBitmap j).putJournal j)
    else if j.st = .prepared ∧ j.pstep = t.1 then s.commitStep comm rank t.1 t.2 kept
    else frogged (s.putJournal { j with st := .idle })

/-- A rank whose units are missing: its node is lost, or no spare has its units yet. -/
def State.unitsMissing (s : State) (r : Rank) : Bool := r.state != .ready || s.lost.contains r.node

/-- Lost lines of this node's commit area (R291). -/
def State.linesLost (s : State) (comm : Nat) : List Nat :=
  (s.journal? comm).elim [] (fun j => s.lostLines.filter (fun l => !(j.touched l 64).isEmpty))

/-- The groups of a commit communicator that cannot be darned (R332): JOB_NEEDS_RESTORE for each. A member with a lost line is missing a unit. -/
def State.needRestore (s : State) (comm : Nat) : State :=
  match s.comm comm with
  | none => s
  | some c =>
    let bad := fun (r : Rank) => s.unitsMissing r || (r.node == s.self && !(s.linesLost comm).isEmpty)
    let gs := ((c.ranks.filter (fun r => r.pgroup != 2 ^ 20 - 1)).map (fun r => r.pgroup)).dedup
    (gs.filter (fun g => decide (2 ≤ (c.ranks.filter (fun r => r.pgroup == g && bad r)).length))).foldl
      (fun s g => s.raise c.creator jobNeedsRestore noQueue 0 comm g 0) s

/-- The lost lines of the commit area are back (R291): what the parity of the other members gives is what the line held at the commit; without a group,
or with another member of it missing, the contents are free values (DEDUCED, log entry 70). The accesses that waited go on. -/
def State.rebuildLines (s : State) (comm rank : Nat) : State :=
  let ls := s.linesLost comm
  if ls.isEmpty then s
  else
    let grp := (s.comm comm).elim [] (fun c => (c.group rank).filterMap (fun i => if i = rank then none else c.ranks[i]?))
    let s : State := { s with lostLines := s.lostLines.filter (fun l => !ls.contains l) }
    let s := if grp.isEmpty || grp.any s.unitsMissing then ls.foldl (fun s l => let d := s.drawBytes 64; d.2.engineWrite l d.1) s else s
    s.winRelease

/-- The marked window lines of the units that a restore of this node's commit area writes (R322, R350). -/
def State.undoMarked (s : State) (comm : Nat) : List Nat :=
  (s.journal? comm).elim [] (fun j => j.saved.flatMap (fun u => s.markedLines (j.base + u * UNIT) UNIT))

/-- Snoops window lines (R350). -/
def State.snoopLines (s : State) (ls : List Nat) : State := ls.foldl (fun s l => (s.emit (.biSnp l)).count 0x240048) s

/-- The restore of a frog is done (R322 steps 4 and 5); while the host may hold lines of the units that it writes it snoops them, and is not done (R350). -/
def execFrogRestoreDone (job : BitVec 24) (s : State) : Outcome State Fault Refusal :=
  let j := job.toNat
  .next (match (s.job j).frog, (s.job j).commit with
    | some f, some comm => (match f.phase, f.target with
      | .restore, some t =>
        if !(s.undoMarked comm).isEmpty then s.snoopLines (s.undoMarked comm)
        else
        let s := s.frogRestore comm ((s.rankHere comm).getD 0) t
        let s := s.needRestore comm
        let s := s.rebuildLines comm ((s.rankHere comm).getD 0)
        let again := (s.job j).again
        let s := s.frogDone j f
        let s := if again then (s.setJob j { s.job j with again := false }).frogCause j 5 comm none else s
        s.settle.retryLatoms
      | _, _ => s)
    | _, _ => s)

/-- A unit's contents are in its undo copy, and the write that waited goes on (R319). A unit with a lost line waits for the line (R291), and
one whose undo copy lies under lines that the host may hold for their snoops (R350). -/
def execUnitSaveDone (comm : BitVec 24) (unit : Nat) (s : State) : Outcome State Fault Refusal :=
  .next (match s.journal? comm.toNat with
    | none => s
    | some j =>
      if j.jmode || !j.committed || j.saved.contains unit || decide (j.n + j.np ≤ unit) || s.lineLost (j.base + unit * UNIT) UNIT then s
      else if !(s.markedLines (j.undo unit) UNIT).isEmpty then s.snoopLines (s.markedLines (j.undo unit) UNIT)
      else (s.saveUnit j unit).settle.retryLatoms)

/-! ## Darning (R326 to R328) -/

/-- A member honours a darning read from the claim holder of a rank of its group, and a unit read from a member of its group (R326). -/
def State.darnAllowed (s : State) (src : Nat) (r : ReqF) : Bool :=
  match s.comm r.comm.toNat with
  | none => false
  | some c =>
    let grp := (s.rankHere r.comm.toNat).elim [] (fun me => c.group me)
    grp.any (fun i => (c.ranks[i]?).elim false (fun k => k.node == src && (r.arg != 0 || k.state == .claimed)))

/-- A darning read, or a holder's read of one unit (R326). One that is not honoured fails with ACCESS_VIOLATION_REMOTE (log entry 17). -/
def State.takeDarning (s : State) (h : Hdr) (r : ReqF) (payload : List Byte) : State :=
  let pkt : Packet := { hdr := h, body := .request r, payload }
  if !s.darnAllowed h.src.toNat r then s.failOutcome h stAccessRemote rsNotRanked id
  else if r.arg != 0 && (s.journal? r.comm.toNat).isNone then s.failOutcome h stAccessRemote rsRange id
  else ({ s with darnWait := s.darnWait ++ [pkt] } : State).outcome h stOk 0

def execDarningRead (h : Hdr) (r : ReqF) (s : State) : Outcome State Fault Refusal :=
  let s := s.consume { hdr := h, body := .request r, payload := [] }
  .next (s.arrive h true (fun s => s.takeDarning h r [])).settle

/-- Writes of a claim's units wait for snoops (R350). -/
def State.claimWaits (s : State) (x : Claim) : Bool :=
  s.winWaits.any (fun w => decide (w.off < x.base + (x.n + x.np) * UNIT) && decide (x.base < w.off + w.data.length))

/-- Every claim of the job has its units, and its report can go (R328). -/
def State.darned (s : State) (j : Nat) : Bool :=
  let xs := s.claims.filter (fun x => x.job == j)
  !xs.isEmpty && xs.all (fun x => x.phase == .darning && x.todo.isEmpty && !s.claimWaits x)

/-- The spare writes the journal of a darned rank and its registrations, and reports it ready (R310 step 5, R326, R327). -/
def State.finishClaim (s : State) (x : Claim) : State :=
  let j := x.job
  let s := if (s.job j).commit = some x.comm ∧ x.n ≠ 0 then
      let jm := (s.comm x.comm).elim false (fun c => c.jmode)
      let jr : Journal := { newJournal x.comm jm with
        base := x.base, n := x.n, np := x.np, cstep := x.target.1, ccseq := x.target.2, committed := x.target.1 != 0, parityValid := true }
      let s := (s.clearBitmap jr).putJournal jr
      s.recreateKeys x.comm x.rank ((s.comm x.comm).elim 0 (fun c => c.creator)) (s.unitBytes jr (x.n - 1))
    else s
  let g := x.cgen + 1
  let s := s.setRank x.comm x.rank (fun r => { r with cgen := g })
  let s := { s.setComm x.comm ((s.comm x.comm).map (fun c => { c with anySeq := true })) with
    claims := s.claims.filter (fun y => !(y.comm == x.comm && y.rank == x.rank)) }
  ((s.floodClaim x.comm x.rank g).releaseXfers x.comm x.rank).showClaiming

/-- The frog of a host loss that waited for the spare's ready report (R323, R332). -/
def State.frogAfter (s : State) (j comm : Nat) : State :=
  if (s.job j).again then (s.setJob j { s.job j with again := false }).frogCause j 4 comm none else s

/-- Darning is complete: the claims of the job are reported ready (R310 step 5, R328). -/
def execDarningDone (job : BitVec 24) (s : State) : Outcome State Fault Refusal :=
  let xs := s.claims.filter (fun x => x.job == job.toNat)
  .next (if s.darned job.toNat then ((xs.foldl (fun s x => s.finishClaim x) s).frogAfter job.toNat (xs.head?.elim 0 (fun x => x.comm))).settle else s)

/-! ## The accounting sweep (R28) and the job commands (R342, R343) -/

def acctCode : AcctStruct → Nat
  | .linkCredits => 1
  | .cells => 2
  | .inflight => 3
  | .queueCounts => 4
  | .slotGrants => 5

def execAccountingSweep (found : SweepFinding) (s : State) : Outcome State Fault Refusal :=
  let s := s.count 0x200008
  .next (match found with
    | .clean => s
    | .corrected st shadow => (s.count 0x200000).raise 0 accountingCorrected noQueue 0 (acctCode st) (if shadow then 1 else 0) 0
    | .disagree _ => s.bindOff 1)

/-- JOB_CMD is written with an OP: ignored and counted while GO reads 1 (R343). -/
def State.jobCmd (s : State) (f op : Nat) (k : State → State) : State :=
  if s.bit (page f 0x1140) 31 then s.count (page f 0x2010) else k (s.setFld (page f 0x1140) 24 2 op)
def State.jobDone (s : State) (f res : Nat) : State := (s.setFld (page f 0x1140) 31 1 0).setResult (page f 0x1150) res

/-- The communicator of JOB_CMD, where the function created it here. -/
def State.jobCommOf (s : State) (f : Nat) : Option (Nat × Comm) :=
  let h := s.fld (page f 0x1140) 0 24
  ((s.comm h).filter (fun c => c.creator == f)).map (fun c => (h, c))

def execJobFrog (f : Nat) (s : State) : Outcome State Fault Refusal :=
  .next (s.jobCmd f 0 (fun s => match s.jobCommOf f with
    | none => s.jobDone f 2
    | some (h, c) => ((s.frogCause c.job 5 h none).jobDone f 1).settle))

/-- A collective or SNAP of the job is accepted here and has not started (R343). -/
def State.jobWaits (s : State) (j : Nat) : Bool :=
  let cs := (s.jobComms j).map (fun x => x.1)
  s.queues.any (fun q => q.2.held.any (fun a => namesComm cs a.ins || a.body.any (namesComm cs)) || q.2.rep.elim false (fun r => r.body.any (namesComm cs)))

/-- A collective of the job is incomplete, a frog of it runs, or its journal here is not IDLE (R343). -/
def State.jobBusy (s : State) (j : Nat) : Bool :=
  (s.job j).frog.isSome || s.jobWaits j || (s.jobComms j).any (fun x => s.colls.any (fun c => c.comm == x.1) || (s.journal? x.1).elim false (fun k => k.st != .idle))

/-- SET_STEP sets CSTEP, clears the bitmap and PARITY_VALID, and records the commit communicator; step 0 only records it (R317, R343). -/
def State.setStep (s : State) (h : Nat) (c : Comm) (step : DWord) : State :=
  let s := s.setJob c.job { s.job c.job with commit := some h }
  let j := (s.journal? h).getD (newJournal h c.jmode)
  let j : Journal := { j with cstep := step, saved := [], parityValid := false, committed := step != 0 && j.n != 0 }
  (s.clearBitmap j).putJournal j

def execJobSetStep (f : Nat) (s : State) : Outcome State Fault Refusal :=
  .next (s.jobCmd f 1 (fun s => match s.jobCommOf f with
    | none => s.jobDone f 2
    | some (h, c) =>
      let step := s.reg64 (page f 0x1148)
      if s.jobBusy c.job then s.jobDone f 3
      else if step = BitVec.allOnes 64 ∨ (s.job c.job).commit.elim false (fun x => x != h) then s.jobDone f 4
      else (s.setStep h c step).jobDone f 1))

/-- FAIL_RETIRE written by function f (R342). -/
def execFailRetire (f : Nat) (code : BitVec 32) (s : State) : Outcome State Fault Refusal :=
  .next (if f = 0 ∧ code = 0xB1D00FF5 then s.bindOff 6 else s.count (page f 0x2010))

end Sys2Proof.Machine
end

