-- ==== Sys2Proof/Machine/ResetCmds.lean ====
section
/-! DEFINITION. The function resets and the host-domain reset as commands (R115, R133, R178, R323, R360, R439 to R441). -/

namespace Sys2Proof.Machine

open Host (Outcome)

/-- Key slots, program slots and monitors of a function are emptied or forgotten (R195, R386, R394). -/
def State.emptySlots (s : State) (f : Nat) : State :=
  let ks := (List.range (s.grant f 0x24 8 9)).map (fun i => s.grant f 0x24 0 8 + i)
  let ps := (List.range (s.grant f 0x20 8 7)).map (fun i => s.grant f 0x20 0 6 + i)
  { s.setFld (page f 0x1340) 31 1 0 with
    keyCmds := s.keyCmds.filter (fun c => c.1 != f)
    kslots := s.kslots.filter (fun e => !ks.contains e.1)
    progs := s.progs.filter (fun e => !ps.contains e.1)
    mons := s.mons.filter (fun x => x.f != f) }

/-- A communicator of function f at which this node holds a rank of a job. -/
def State.rankComms (s : State) (f : Nat) : List (Nat × Comm) :=
  s.comms.filterMap (fun x => x.2.bind (fun c => if c.creator = f ∧ c.ranks.any (fun r => r.node == s.self) then some (x.1, c) else none))

/-- The jobs whose communicators function f created are frogged, and the registrations of their rank records are to be re-created (R320, R323). -/
def State.frogFunction (s : State) (f : Nat) : State :=
  let cs := s.rankComms f
  if cs.isEmpty then s
  else
    let s : State := { s with rekey := if s.rekey.contains f then s.rekey else s.rekey ++ [f] }
    (cs.foldl (fun (a : List Nat × State) x =>
      if a.1.contains x.2.job then a else (a.1 ++ [x.2.job], a.2.frogCause x.2.job 4 x.1 none)) ([], s)).2

/-- A function-wide reset with FUNCTION_RESET: every registration of the function goes (R115, R133, R360; log entry 18). -/
def State.functionReset (s : State) (f cause : Nat) (host : Bool) : State :=
  ((s.resetFunction f cause stFuncReset host (fun k => k.owner == f)).emptySlots f).frogFunction f

/-- FLR: of a virtual function, that function; of the physical function, every virtual function and then itself (R360). -/
def execFlr (f : Nat) (s : State) : Outcome State Fault Refusal :=
  .next (if f = 0 then ((List.range 255).foldl (fun s i => s.functionReset (i + 1) 1 false) s).functionReset 0 1 false
    else s.functionReset f 1 false).settle

/-- VF Enable is cleared: every virtual function resets, and is no longer enabled (R360). -/
def execVfEnableClear (s : State) : Outcome State Fault Refusal :=
  .next ((List.range 255).foldl (fun s i =>
    let s := s.functionReset (i + 1) 3 false
    s.setFunc (i + 1) { s.func (i + 1) with vfEnabled := false }) s).settle

/-- D3hot to D0: as an FLR of that function (R360). -/
def execD3hotToD0 (f : Nat) (s : State) : Outcome State Fault Refusal := .next (s.functionReset f 4 false).settle

/-- The crossings between the host link and the core are flushed (R26, R438, R440 step 2). Writes not sent are discarded and counted as such (R360);
what else stood in the crossings is discarded and counted: the reads and translation requests that had not left, the window accesses that had not been
taken, and the snoops and events whose number is not known, a free value (log entry 71). -/
def State.crossingFlush (s : State) : State :=
  let writes := s.parks.filter (fun p => p.write && !p.probe)
  let s := (s.count 0x240040 writes.length).count 0x200040
    (s.parks.length - writes.length + s.winHeld.length + Config.crossingEvents s.freeIdx)
  { s with parks := [], winHeld := [], freeIdx := s.freeIdx + 1 }

/-- What the host domain loses with its link beside the functions' work (R360, R440): reads are abandoned, the translation cache, page requests, dirty
logs and window directory are cleared, and the decoder is uncommitted. -/
def State.clearHostDomain (s : State) : State :=
  let s : State := { s with
    xlates := [], parks := [], invals := [], winDir := []
    hreads := s.hreads.map (fun r => { r with ticket := .nobody }) }
  let s := (List.range 256).foldl (fun s f =>
    ((s.setFld (dlogBase f + 8) 4 1 0).setReg (dlogBase f + 0xC) 0).setFunc f { s.func f with dlogFilter := [], priStopped := false }) s
  (((s.setFld 0x190000 17 1 0).setFld 0x190008 0 1 0).setDirEmpty)

/-- Every function ends its work with a status, its ACCEL registrations revoked (R115, R133, R440). -/
def State.hostDomainReset (s : State) (cause : Nat) (st : BitVec 8) : State :=
  let s := (List.range 256).foldl (fun s f =>
    (s.resetFunction f cause st false (fun k => k.owner == f && k.space == 1)).emptySlots f) s.crossingFlush
  let s := s.clearHostDomain
  (List.range 256).foldl (fun s f => s.frogFunction f) s

/-- CXL Reset: as link down, with the link up and FUNCTION_RESET (R360). -/
def execCxlReset (s : State) : Outcome State Fault Refusal :=
  .next ((((s.setFld 0x190000 18 4 5).bumpSeq 0x190000).hostDomainReset 5 stFuncReset).settle.retryLatoms)

/-- EVENT of a link-down event (R371). -/
def linkEvent : LinkDownEvent → Nat
  | .linkDown => 2
  | .hotReset => 3
  | .perst => 4

/-- The host link goes down: domain H resets with HOST_LINK_LOST (R39, R360, R440). The functions' configuration space goes with it
(DEDUCED, log entry 18). -/
def execHostLinkDown (ev : LinkDownEvent) (s : State) : Outcome State Fault Refusal :=
  let s := ((s.setFld 0x190000 8 3 0).setFld 0x190000 11 5 0).setFld 0x190000 16 1 0
  let s := (((s.setFld 0x190000 18 4 (linkEvent ev)).bumpSeq 0x190000).count 0x240008).hostDomainReset 6 stHostLost
  .next ((List.range 256).foldl (fun s f =>
    s.setFunc f { s.func f with vfEnabled := false, busMaster := false, ats := false, pri := false }) s).settle.retryLatoms

/-- The physical function resets one function; its records reach HOSTVA rings (R115, R441). GO reads 1 until the reset ends. -/
def execFuncResetCmd (f : Nat) (s : State) : Outcome State Fault Refusal :=
  .next (if s.enabled f then
      ((((s.setFld 0x1B4010 0 8 f).setFld 0x1B4010 31 1 1).functionReset f 2 (s.hostReach f))).settle
    else s.count 0x200010)

/-- Steps 1 to 4 of R115 have ended (R441). -/
def execFuncResetEnd (f : Nat) (s : State) : Outcome State Fault Refusal :=
  .next (if s.resetting f then
      let s := (s.setFld (page f 0x1A00) 8 1 0).bumpSeq (page f 0x1A00)
      (if s.bit 0x1B4010 31 && s.fld 0x1B4010 0 8 == f then s.setFld 0x1B4010 31 1 0 else s).settle
    else s)

end Sys2Proof.Machine
end

