-- ==== Sys2Proof/Machine/Security.lean ====
section
/-! DEFINITION. Firmware images, secure boot, measurement and attestation, and the security commands (R399 to R406). -/

namespace Sys2Proof.Machine

open Host (Outcome)

/-! ## Images (R399, R400) -/

/-- The bytes of a header field, and the number that they spell. -/
def hdrBytes (img : List Byte) (o n : Nat) : List Byte := (img.drop o).take n
def hdrNat (img : List Byte) (o n : Nat) : Nat := leNat (hdrBytes img o n)
/-- The body of an image. -/
def imgBody (img : List Byte) : List Byte := (img.drop 8192).take (hdrNat img 16 8)

/-- A list of exactly n bytes: cut, or filled up with zeros. -/
def padTo (n : Nat) (bs : List Byte) : List Byte := bs.take n ++ List.replicate (n - bs.length) 0

/-- FAIL_REASON of an image for a component, 0 where it verifies (R400, R406). -/
def State.verifyImage (s : State) (comp : Nat) (img : List Byte) : Nat :=
  let ri := hdrNat img 7 1
  if hdrBytes img 0 4 ≠ ascii "QNFW" ∨ hdrNat img 4 2 ≠ 1 ∨ hdrNat img 6 1 ≠ comp then 1
  else if 4 ≤ ri ∨ sha3_512 (hdrBytes img 88 2592) ≠ Config.rootHash ri then 2
  else if s.sec.revoke.getLsbD ri then 3
  else if !Config.mldsaVerify (hdrBytes img 88 2592) (hdrBytes img 0 2680) (ascii "QN4096-FW") (hdrBytes img 2680 4627) then 4
  else if sha3_512 (imgBody img) ≠ hdrBytes img 24 64 then 5
  else if hdrNat img 8 4 < s.sec.svn then 6
  else 0

/-- The image of a component in a slot: written since manufacture, or by manufacture (R399). -/
def State.slotImage (s : State) (b : Bool) (comp : Nat) : List Byte :=
  match s.sec.flash.find? (fun x => x.slotB == b && x.comp == comp) with
  | some x => x.bytes
  | none => Config.factoryImage b comp

/-! ## Measurement (R403) -/

def State.mr (s : State) (i : Nat) : List Byte := Tab.get (fun _ => List.replicate 64 0) s.mrs i
/-- MR := SHA3-512(MR ‖ d). -/
def State.extendMr (s : State) (i : Nat) (d : List Byte) : State :=
  { s with mrs := Tab.put (fun _ => List.replicate 64 0) s.mrs i (sha3_512 (s.mr i ++ d)) }

/-! ## Secure boot (R401, R404) -/

/-- The node is in RECOVERY. -/
def State.inRecovery (s : State) : Bool := s.bit 0x8000 0

/-- Steps 1 and 2 of R401 for a slot: FAIL_REASON, 0 where the three images verify. -/
def State.bootSlot (s : State) (readable b : Bool) : Nat × State :=
  let s := s.extendMr 0 Config.romDigest
  let why := if readable then (([1, 2, 3].map (fun c => s.verifyImage c (s.slotImage b c))).find? (· ≠ 0)).getD 0 else 7
  if why = 0 then
    let s := [1, 2, 3].foldl (fun s c => s.extendMr c (hdrBytes (s.slotImage b c) 24 64)) s
    (0, s.extendMr 4 (Config.stateDigest s.sec.svn s.sec.revoke.toNat s.sec.debugLock.toNat (s.fld 0x610 0 10) (s.fld 0x8000 2 1)))
  else (why, (s.setFld 0x8000 4 4 why).count 0x250060)

/-- MR0 to MR4, and the two seeds of R404. -/
def State.mr04 (s : State) : List Byte := [0, 1, 2, 3, 4].flatMap s.mr
def identitySeed : List Byte := kmac256 Config.uds [] 32 (ascii "QN4096DEVID")
def State.attestationSeed (s : State) : List Byte := kmac256 Config.uds s.mr04 32 (ascii "QN4096ATTEST")

/-- The attestation key and its certificate (R404). -/
def State.deriveKeys (s : State) : State :=
  let seed := s.attestationSeed
  { s with sec := { s.sec with attSeed := seed, attCert := Config.x509 identitySeed (Config.mldsaPublic seed) s.mr04 } }

/-- Step 4: keys, UDS locked, and the versions of the slot that booted (R401, R410). -/
def State.booted (s : State) (b : Bool) : State :=
  let s := s.deriveKeys
  let s : State := { s with sec := { s.sec with udsLocked := true } }
  let s := s.setFld 0x8000 1 1 b.toNat
  [1, 2, 3].foldl (fun s c => s.setReg (0xC + 4 * c) (BitVec.ofNat 32 (hdrNat (s.slotImage b c) 12 4))) s

/-- Step 6: RECOVERY, with every port held (R401, R445). -/
def State.enterRecovery (s : State) : State :=
  let s := (s.deriveKeys.setFld 0x8000 0 1 1).setFld 0x200 8 4 5
  (List.range 36).foldl (fun s p => (s.modPort p (fun x => { x with heldBy := .recovery })).setPstate p psHeld) (s.bumpSeq 0x200)

/-- The ROM's boot (R401): whether the boot loader starts. -/
def State.romBoot (s : State) (r : FlashRead) : Bool × State :=
  let s := s.setFld 0x8000 8 7 s.sec.svn
  let readable := fun (b : Bool) => if b then r.slotB else r.slotA
  if !s.bit 0x610 8 then (false, (s.extendMr 0 Config.romDigest).enterRecovery)
  else
    let b := s.sec.bootB
    let x := s.bootSlot (readable b) b
    if x.1 = 0 then (true, x.2.booted b)
    else
      let y := x.2.bootSlot (readable !b) !b
      if y.1 = 0 then (true, y.2.booted !b) else (false, y.2.enterRecovery)

/-! ## Attestation (R405) -/

/-- The registers FUNC_GRANT_f of every function, in ascending f. -/
def State.grantBytes (s : State) : List Byte :=
  (List.range 4096).flatMap (fun i => leBytes 4 (s.reg (0x1B0000 + 4 * i)).toNat)

/-- Bytes 0 to 687 of a report. -/
def State.reportBody (s : State) (nonce : List Byte) : List Byte :=
  ascii "QNAT" ++ leBytes 2 1
    ++ leBytes 2 (s.fld 0x8000 2 1 + 2 * s.fld 0x8000 0 1 + 4 * s.fld 0x170004 16 1)
    ++ leBytes 4 s.self ++ leBytes 4 s.sec.svn ++ leBytes 4 (s.reg 0x10).toNat ++ leBytes 4 (s.reg 0x14).toNat ++ leBytes 4 (s.reg 0x18).toNat
    ++ leBytes 4 0 ++ padTo 64 nonce ++ (List.range 8).flatMap s.mr ++ sha3_512 s.grantBytes ++ leBytes 8 s.sec.boots ++ leBytes 8 0

/-- The report of 5,315 B in its buffer of 8,192 B. -/
def State.attestReport (s : State) (nonce : List Byte) : List Byte :=
  let b := s.reportBody nonce
  padTo 8192 (b ++ padTo 4627 (Config.mldsaSign s.sec.attSeed b (ascii "QN4096-ATTEST")))

/-- The two certificates, each after its length. -/
def State.certBytes (s : State) : List Byte :=
  leBytes 4 s.sec.attCert.length ++ s.sec.attCert ++ leBytes 4 Config.identityCertificate.length ++ Config.identityCertificate

/-! ## Security commands (R402, R403, R405, R406)

Each answers its RESULT, the bytes that it writes to its buffer and the state. ok says that the buffer can be read and written; len is its length. -/

def State.secAttest (s : State) (nonce : List Byte) (len : Nat) (ok : Bool) : Nat × List Byte × State :=
  if len < 8192 ∨ !ok then (2, [], s) else (1, s.attestReport nonce, s)

def State.secCerts (s : State) (len : Nat) (ok : Bool) : Nat × List Byte × State :=
  if s.inRecovery then (6, [], s)
  else if len < s.certBytes.length ∨ !ok then (2, [], s) else (1, s.certBytes, s)

def State.secExtend (s : State) (mr : Nat) (d : List Byte) : Nat × List Byte × State :=
  if s.inRecovery then (6, [], s)
  else if mr = 6 ∨ mr = 7 then (1, [], s.extendMr mr d) else (4, [], s)

/-- The image goes to the slot that did not boot, which the boot-select record then names (R402). -/
def State.writeSlot (s : State) (img : List Byte) : State :=
  let b := !s.bit 0x8000 1
  let n := hdrNat img 6 1
  { s with sec := { s.sec with
      bootB := b
      flash := s.sec.flash.filter (fun x => !(x.slotB == b && x.comp == n)) ++ [{ slotB := b, comp := n, bytes := img }] } }

def State.secUpdate (s : State) (img : List Byte) (ok : Bool) : Nat × List Byte × State :=
  if img.length < 8193 ∨ !ok then (2, [], s)
  else
    let n := hdrNat img 6 1
    let why := s.verifyImage (if n = 1 ∨ n = 2 ∨ n = 3 then n else 0) img
    let why := if n = 1 ∨ n = 2 ∨ n = 3 then why else 1
    if why = 0 then (1, [], s.writeSlot (img.take (8192 + hdrNat img 16 8))) else (3, [], s.setFld 0x8000 4 4 why)

/-- The SVN of the running management firmware. -/
def State.runningSvn (s : State) : Nat := hdrNat (s.slotImage (s.bit 0x8000 1) 2) 8 4

def State.secAdvance (s : State) : Nat × List Byte × State :=
  if s.inRecovery then (6, [], s)
  else if s.sec.svn < s.runningSvn then
    (1, [], ({ s with sec := { s.sec with svn := s.runningSvn } } : State).setFld 0x8000 8 7 s.runningSvn)
  else (5, [], s)

/-- SEC_ARG as bytes. -/
def State.secArg (s : State) : List Byte := (List.range 16).flatMap (fun i => leBytes 4 (s.reg (0x8040 + 4 * i)).toNat)
def State.secLen (s : State) : Nat := (s.reg 0x8010).toNat

/-- SEC_CMD is written with an OP: ignored and counted while GO reads 1; otherwise it runs, what it writes goes to the buffer in host memory, and
GO is 0 again (R406). -/
def State.secCmd (s : State) (op : Nat) (k : State → Nat × List Byte × State) : State :=
  if s.bit 0x8014 31 then s.count 0x250058
  else
    let r := k (s.setFld 0x8014 0 4 op)
    (if r.2.1.isEmpty then r.2.2 else r.2.2.emit (.hostWrite 0 0 false (r.2.2.reg64 0x8008) r.2.1)).setResult 0x8018 r.1

/-- The buffer in host memory can be reached, and its read or write succeeds. -/
def State.secHost (s : State) (bufferOk : Bool) : Bool := bufferOk && s.hostReach 0

def execAttest (bufferOk : Bool) (s : State) : Outcome State Fault Refusal :=
  .next (s.secCmd 0 (fun s => s.secAttest s.secArg s.secLen (s.secHost bufferOk)))

def execCerts (bufferOk : Bool) (s : State) : Outcome State Fault Refusal :=
  .next (s.secCmd 1 (fun s => s.secCerts s.secLen (s.secHost bufferOk)))

/-- EXTEND names its register in SEC_CMD.MR. -/
def execExtend (mr : BitVec 3) (s : State) : Outcome State Fault Refusal :=
  .next (s.secCmd 2 (fun s => (s.setFld 0x8014 4 3 mr.toNat).secExtend mr.toNat s.secArg))

/-- UPDATE reads the image from the buffer: at most SEC_CMD_LEN bytes. -/
def execUpdate (image : List Byte) (bufferOk : Bool) (s : State) : Outcome State Fault Refusal :=
  .next (s.secCmd 3 (fun s => s.secUpdate (image.take s.secLen) (s.secHost bufferOk)))

def execAdvanceSvn (s : State) : Outcome State Fault Refusal := .next (s.secCmd 4 State.secAdvance)

end Sys2Proof.Machine
end

