-- ==== Sys2Proof/Machine/Bringup.lean ====
section
/-! DEFINITION. Cold resets, cast-on, PLLs and the watchdog (R432, R439, R442 to R446). -/

namespace Sys2Proof.Machine

open Host (Outcome)

/-! ## Cold reset (R439, R443) -/

/-- LAST_COLD (R442). -/
def coldCode : ColdCause → Nat
  | .powerOn => 1
  | .resetPin => 2
  | .register => 3
  | .mgtCommand => 4
  | .wake => 5

/-- What the checkpoint tier keeps of an object: its durable versions (R334, R439). -/
def TObj.durable (o : TObj) : Option TObj := if o.cur.isNone && o.prev.isNone then none else some { o with writing := [] }

/-- The CTR from which requests are accepted after a cold reset: the next multiple of 2^20 (R451). -/
def ctrFloor (c : Nat) : Nat := (c / 2 ^ 20 + 1) * 2 ^ 20

/-- Every domain is reset; what R439 keeps stays. The commands that wait and the record of outputs are the model's own. -/
def State.coldState (s : State) : State := { State.reset with
  pending := s.pending
  out := s.out
  freeIdx := s.freeIdx
  tier := s.tier.filterMap TObj.durable
  govRate := s.govRate
  govCredit := s.govCredit
  firstCastOn := s.firstCastOn
  mediaTotal := s.mediaTotal
  epoch := s.epoch + s.time
  sec := { s.sec with boots := s.sec.boots + 1, attSeed := [], attCert := [], udsLocked := false }
  mgt := { State.reset.mgt with key := s.mgt.key, ctr := ctrFloor s.mgt.ctr }
  pwr := { State.reset.pwr with present := s.pwr.present, straps := s.pwr.straps } }

/-- The wake filters keep their values through the cold reset that ends STANDBY (R452). -/
def State.keepFilters (s old : State) : State :=
  (List.range 64).foldl (fun s i => s.setReg (0x420 + 4 * i) (old.reg (0x420 + 4 * i))) s

/-- Straps are sampled, PLLs lock, and what the tier's devices hold is shown again (R443 steps 1 and 2, R453, R469). -/
def State.powerUp (s old : State) (cause : ColdCause) : State :=
  let s := if cause = .wake then s.keepFilters old else s
  let s := (s.setReg 0x610 (s.pwr.straps.setWidth 32)).setFld 0x408 1 8 (s.pwr.straps.toNat % 256)
  let s : State := { s with mgt := { s.mgt with plca := s.reg 0x408 } }
  let s := (s.setFld 0x200 12 4 (coldCode cause)).setFld 0x208 0 10 0x3FF
  (s.setReg 0x18000C (old.reg 0x18000C)).setFld 0x410 12 1 s.mgt.key.isSome.toNat

/-- Steps 1 to 6 of R443: STAGE ends at HOST_READY, or at RECOVERY where no slot boots. -/
def State.coldReset (s : State) (cause : ColdCause) (boot : FlashRead) : State :=
  let r := (s.coldState.powerUp s cause).romBoot boot
  if r.1 then ((((r.2.setFld 0x200 8 4 1).bumpSeq 0x200).setFld 0x200 8 4 2).bumpSeq 0x200) else r.2

def execColdReset (cause : ColdCause) (boot : FlashRead) (s : State) : Outcome State Fault Refusal := .next (s.coldReset cause boot)

/-- NODE_RESET_N low for 10 µs: a cold reset, also where the regulators stay off after a shutdown limit (R439, R460). Without input power nothing
happens. -/
def execNodeResetN (boot : FlashRead) (s : State) : Outcome State Fault Refusal :=
  .next (if s.pwr.state = .off ∧ !s.pwr.latched then s else s.coldReset .resetPin boot)

/-- Pooled memory is cleared: POOL_READY is set, and what waited for it goes on (R443). -/
def execPoolReady (s : State) : Outcome State Fault Refusal :=
  .next (if s.poolReady then s else s.poolComesReady.winRelease.settle)

/-! ## Cast-on (R444, R445) -/

/-- A port is up in every dimension in use. -/
def State.dimsUp (s : State) : Bool := s.dims.all (fun n => (List.range 32).any (fun p => s.portDim p == n && s.portUp p))

/-- The conditions of R444, of a node that has not bound off (R445). -/
def State.mayCastOn (s : State) : Bool :=
  s.fld 0x200 8 4 == 3 && s.poolReady && s.dimsUp && decide (100000000 ≤ s.time) && !s.boundOff

/-- CAST_ON is flooded with the low 32 bits of BOOTS as its FSEQ; the year count starts at the first cast-on (R337). -/
def execCastOnSend (s : State) : Outcome State Fault Refusal :=
  .next (if s.mayCastOn then
      let n := { newNotice s.self with fseq := BitVec.ofNat 32 s.sec.boots }
      let s := (s.floodPorts none).foldl (fun s p => s.sendCtl p (BitVec.ofNat 20 s.self) (.notice .castOn n)) s
      let s : State := { s with firstCastOn := some (s.firstCastOn.getD (s.epoch + s.time)) }
      (s.setFld 0x200 8 4 4).bumpSeq 0x200
    else s)

/-- The path context with a node returns to its initial state; held packets of logical ranks are unaffected, and other packets toward its former
incarnation end as lost (R444). -/
def State.freshPath (s : State) (x : Nat) : State :=
  let s := s.dropToward x
  let held := s.path x
  (s.modPath (heldPath x) (fun p => { p with waitq := p.waitq ++ held.retained ++ held.waitq })).setPath x {}

/-- A node acts on the CAST_ON of node x. -/
def State.actCastOn (s : State) (x : BitVec 20) : State :=
  let s := [NoticeKind.deadNode, .rankClaim, .linkDown, .linkUp].foldl
    (fun (s : State) k => { s with fseqSeen := Tab.put (fun _ => 0) s.fseqSeen (noticeCode k * 2 ^ 20 + x.toNat) 0 }) s
  ({ s with lost := s.lost.filter (· != x.toNat) } : State).freshPath x.toNat |>.rowsChanged

/-- A CAST_ON of this node's own, or not above the last one seen from its source, does nothing; one from a source never seen is acted on. -/
def execCastOn (p : Nat) (h : Hdr) (n : NoticeF) (s : State) : Outcome State Fault Refusal :=
  let s := s.consume { hdr := h, body := .notice .castOn n, payload := [] }
  let seen := Tab.get (fun _ => 0) s.fseqSeen (noticeCode .castOn * 2 ^ 20 + n.subject.toNat)
  .next (if s.boundOff ∨ n.subject.toNat = s.self ∨ (seen ≠ 0 ∧ n.fseq ≤ seen) then s
    else ((((s.noteFseq .castOn n.subject n).actCastOn n.subject).forwardNotice p .castOn h n)).settle)

/-! ## Clocks and the watchdog (R432, R446) -/

/-- The ports of I/O die n: FCn and ACn. -/
def diePorts (n : Nat) : List Nat := (List.range 8).map (fun i => 8 * n + i) ++ [32 + n]

/-- The ports of a die go down with cause LOS; ports already down or held stay. -/
def State.dieDown (s : State) (n : Nat) : State :=
  (diePorts n).foldl (fun s p => if s.pstate p = psDown ∨ s.pstate p = psHeld then s else s.portDown p dcLos .nothing) s

def execPllLockLoss (lost : PllLost) (s : State) : Outcome State Fault Refusal :=
  let s := s.count 0x200140
  match lost with
  | .sys => .next ((s.setFld 0x208 0 4 0).bindOff 4)
  | .io n => .next (if n < 4 then (s.setFld 0x208 (6 + n) 1 0).dieDown n else s)
  | .host => if s.hostUp then execHostLinkDown .linkDown (s.setFld 0x208 4 1 0) else .next (s.setFld 0x208 4 1 0)
  | .mgt => .next ((s.setFld 0x208 5 1 0).bindOff 7)

/-- The PLL of an I/O die locks again: its ports may train (R432). -/
def execPllLockReturn (die : Nat) (s : State) : Outcome State Fault Refusal :=
  .next (if die < 4 then (diePorts die).foldl (fun s p => s.startTraining p) (s.setFld 0x208 (6 + die) 1 1) else s)

def execWatchdogExpire (s : State) : Outcome State Fault Refusal := .next (s.bindOff 7)

end Sys2Proof.Machine
end

