-- ==== Sys2Proof/Machine/Codeword.lean ====
section
/-! DEFINITION. Received codewords: their slots, the packets that slots make up, and the control symbols (R20, R21, R251 to R263, R302). -/

namespace Sys2Proof.Machine

open Host (Outcome)

/-- The state that an outcome leaves; a stop leaves the state given. -/
def State.after (s : State) (o : Outcome State Fault Refusal) : State := match o with
  | .next t => t
  | _ => s

/-- CLASS and VC name a channel that a port has (R229, R364). -/
def channelOk (p : Nat) (h : Hdr) : Bool :=
  if p < 32 then decide (h.cls.toNat < 6) && decide (h.vc.toNat < 3) else h.vc == 1 && (h.cls == 1 || h.cls == 5)

/-- A slot of a pair is written into a cell: RCVD advances, bytes are counted for telemetry (R245, R258). Reserved channels have no pair. -/
def State.slotIn (s : State) (p : Nat) (h : Hdr) : State :=
  s.modPort p (fun x =>
    let x : Port := { x with rx := x.rx + 64 }
    if h.cls.toNat < 6 ∧ h.vc.toNat < 3 then
      let k := pairKey h.cls h.vc
      x.setPair k { x.pair k with rcvd := (x.pair k).rcvd + 1 }
    else x)

/-- A packet in reception is discarded: its counted slots are freed (R29, R258). -/
def State.rxDiscard (s : State) (p : Nat) (x : List Byte × List Byte) : State := s.dropRx p x.1 x.2

/-- A packet of an accelerator, with its CRC-32C verified (R364 to R366). -/
def State.attachPacket (s : State) (p : Nat) (x : List Byte × List Byte) : State :=
  let h := parseHdr x.1
  match (List.range 4).find? (fun a => (s.accel a).links.any (·.1 == p)) with
  | none => s.rxDiscard p x
  | some a =>
    let s := s.rxDiscard p x
    let m := parseAttach x.1 (x.2.take h.plen.toNat)
    if h.ackpkt then s.attachAcked a (hbv x.1 32 4 0 32) (hbv x.1 36 8 0 64)
    else match attachCommand a m (hbv x.1 60 4 0 32) with
      | none => s.count (pctr p 0x38)
      | some c => s.attachArrive a h.psn h.lup (some c)

/-- A fabric packet, with its CRC-32C verified: to its consumer in this node, or to the router (R19, R21, R302). CTL packets go one hop at a time: a
notice or frog request is for the node that receives it, and a chunk-loss notice goes on, hop by hop, to the node it names (R229). -/
def State.fabricPacket (s : State) (p : Nat) (h : Hdr) (b : Body) (payload : List Byte) (x : List Byte × List Byte) : State :=
  let pkt : Packet := { hdr := h, body := b, payload := payload.take h.plen.toNat }
  let i : InPkt := { pkt, port := some p, originated := false, vcIn := h.vc, gen := (s.port p).gen }
  let onward := (match b with | .coll .chunkLoss c => h.dst.toNat != s.self && c.opcode != 0x40 | _ => false)
  if h.cls = 0 ∧ !onward then { s with localIn := s.localIn ++ [i] }
  else if s.lost.contains h.src.toNat then (s.rxDiscard p x).count 0x260078
  else if h.dst.toNat = s.self then { s with localIn := s.localIn ++ [i] }
  else { s with routeQ := s.routeQ ++ [i] }

/-- A transit packet whose CRC-32C has failed had begun its egress: the copy leaves whole, and an ABORT in the slot after it poisons its tail (R20,
R254). It had to have the credit of its channel, with nothing of its pair queued before it (R22, R257). -/
def State.poison (s : State) (x : InPkt) : State :=
  let r := s.nextHop x
  match r.1.2 with
  | some q =>
    let e := r.1.1
    let k := pairKey e.pkt.hdr.cls e.pkt.hdr.vc
    if r.2.portRuns q && !((r.2.port q).egress.any (fun y => pairKey y.pkt.hdr.cls y.pkt.hdr.vc == k))
        && decide (slotsOf e.pkt.payload.length ≤ ((r.2.port q).pair k).avail) then
      (r.2.transmit q e).emit (.symbol q (ctrlSymbol 0x05 []))
    else s.freePkt x
  | none => s.freePkt x

/-- A packet that fails its CRC-32C is discarded and counted. The spec lets a transit packet start egress before its check (R20): whether this one
had is a free choice; every other packet is stored before it is forwarded (DESIGN CHOICE, log entry 55). -/
def State.crcFails (s : State) (p : Nat) (x : List Byte × List Byte) : State :=
  let h := parseHdr x.1
  let s := s.count (pctr p 0x28)
  match parseBody h x.1 with
  | some b =>
    if p < 32 ∧ h.cls ≠ 0 ∧ h.dst.toNat ≠ s.self ∧ h.hops ≠ 15 ∧ s.lost.contains h.src.toNat = false then
      let begun := Config.cutThrough s.freeIdx
      let s : State := { s with freeIdx := s.freeIdx + 1 }
      let i : InPkt := { pkt := { hdr := h, body := b, payload := x.2.take h.plen.toNat }, port := some p, originated := false, vcIn := h.vc, gen := (s.port p).gen }
      if begun then s.poison i else s.freePkt i
    else s.rxDiscard p x
  | none => s.rxDiscard p x

/-- The packet whose following slot has been decoded is released (R20, R21, R254). -/
def State.release (s : State) (p : Nat) : State :=
  match (s.port p).last with
  | none => s
  | some x =>
    let s := s.modPort p (fun y => { y with last := none })
    let h := parseHdr x.1
    if !channelOk p h || decide (4096 < h.plen.toNat) then (s.rxDiscard p x).count (pctr p 0x38)
    else if !crcOk x.1 (x.2.take h.plen.toNat) then s.crcFails p x
    else if 32 ≤ p then s.attachPacket p x
    else match parseBody h x.1 with
      | none => (s.rxDiscard p x).count (pctr p 0x38)
      | some b => s.fabricPacket p h b x.2 x

/-- A packet in progress whose slots are complete waits for the slot that follows its last (R254). -/
def State.complete1 (s : State) (p : Nat) (x : List Byte × List Byte) : State :=
  s.modPort p (fun y => if x.2.length ≥ (parseHdr x.1).plen.toNat then { y with cur := none, last := some x } else { y with cur := some x })

/-- What a port has received of packets is discarded and counted (R254). -/
def State.abortRx (s : State) (p : Nat) : State :=
  let y := s.port p
  let drop := fun (s : State) (x : Option (List Byte × List Byte)) => match x with
    | some x => (s.rxDiscard p x).count (pctr p 0x20)
    | none => s
  drop (drop (s.modPort p (fun y => { y with cur := none, last := none })) y.cur) y.last

/-- One of the two entries of a CREDIT symbol, where VALID is 1 (R256). -/
def creditOf (b : List Byte) : List CreditEntry :=
  if hbit b 0 1 7 && decide ((hbv b 0 1 0 3).toNat < 6) && decide ((hbv b 0 1 3 2).toNat < 3) then
    [{ cls := hbv b 0 1 0 3, vc := hbv b 0 1 3 2, freed := hbv b 1 4 0 32 }]
  else []

/-- A valid BIND_OFF in any state: the port is HELD with cause PARTNER_BIND_OFF until the partner's signal returns, and a fabric partner is declared
lost at once (R263, R266, R301). A port that this node holds for its own sake stays so held. -/
def State.bindOffHeard (s : State) (p : Nat) (node : BitVec 20) : State :=
  let s := if s.pstate p = psHeld then
      (s.setFld (plink p 8) 15 4 dcPartnerBindOff).modPort p (fun x =>
        { x with heldBy := if x.heldBy = .boundOff ∨ x.heldBy = .recovery then x.heldBy else .partner })
    else s.portDown p dcPartnerBindOff .partner
  if p < 32 ∧ node.toNat ≠ s.self ∧ !s.boundOff then s.declareLost node.toNat 2 else s

/-- A BIND_OFF symbol; a reserved CAUSE makes it a discarded symbol (R299). -/
def execBindOffSymbol (p : Nat) (node : BitVec 20) (cause : BitVec 8) (s : State) : Outcome State Fault Refusal :=
  .next (if cause = 0 ∨ cause.toNat ≥ 8 then s.count (pctr p 0x30) else s.bindOffHeard p node)

/-- One control symbol (R255, R256); ABORT has been seen to. -/
def State.symbolIn (s : State) (p : Nat) (b : List Byte) : State :=
  if crc8 (b.take 15) != b.getD 15 0 then s.count (pctr p 0x30)
  else match (b.getD 0 0).toNat with
    | 0x00 => s
    | 0x01 => s.after (execCredit p (creditOf (b.drop 1) ++ creditOf (b.drop 6)) s)
    | 0x02 => s.after (execKeepalive p {
        node := hbv b 1 3 0 20, port := hbv b 4 1 0 6, load := hbv b 5 1 0 8, lanes := hbv b 6 1 0 2, kseq := hbv b 8 4 0 32 } s)
    | 0x03 => s.after (execAudit p (hbv b 1 1 0 3) (hbv b 2 4 0 32) (hbv b 6 4 0 32) (hbv b 10 4 0 32) s)
    | 0x04 => s.after (execBindOffSymbol p (hbv b 1 3 0 20) (hbv b 4 1 0 8) s)
    | 0x05 => s
    | 0x10 => s.after (execTsIdent p {
        node := hbv b 1 3 0 20, port := hbv b 4 1 0 6, lanesOk := hbv b 5 1 0 2, version := hbv b 6 1 0 8, fast := hbit b 7 1 0,
        link := hbv b 4 1 0 2, nlinksm1 := hbv b 4 1 2 2, maxrd := hbv b 8 2 0 16 } s)
    | 0x11 => s.after (execTsCredit p (hbv b 1 1 0 3) (hbv b 2 2 0 16) (hbv b 4 2 0 16) (hbv b 6 2 0 16) s)
    | 0x12 =>
      let go := fun (m : SwatchMsg) => s.after (execTsSwatch p m (hbv b 2 2 0 16) (hbv b 4 2 0 16) s)
      (match (b.getD 1 0).toNat with
      | 1 => go .startA
      | 2 => go .startB
      | 3 => go .result
      | 4 => go .abort
      | _ => s)
    | 0x13 => s.after (execTsReady p s)
    | _ => s.count (pctr p 0x30)

/-- The four symbols of a CTRL slot, and whether the first is a valid ABORT (R254, R255). -/
def symbolsOf (b : List Byte) : List (List Byte) := (List.range 4).map (fun i => (b.drop (16 * i)).take 16)
def isAbort (b : List Byte) : Bool := crc8 (b.take 15) == b.getD 15 0 && b.getD 0 0 == 5

/-- One slot of a good codeword (R253, R254). Packets come only over a port that runs. -/
def State.slot (s : State) (p : Nat) (x : Slot) : State :=
  match x with
  | .idle => s.release p
  | .ctrl b =>
    let s := if isAbort (b.take 16) then s.after (execAbort p s) else s.release p
    (symbolsOf b).foldl (fun s c => s.symbolIn p c) s
  | .head b =>
    let s := s.release p
    if !s.portRuns p then s
    else
      let s := (match (s.port p).cur with
        | some x => ((s.modPort p (fun y => { y with cur := none })).rxDiscard p x).count (pctr p 0x20)
        | none => s)
      (s.slotIn p (parseHdr b)).complete1 p (b, [])
  | .body b =>
    let s := s.release p
    match (s.port p).cur with
    | none => s
    | some y => (s.slotIn p (parseHdr y.1)).complete1 p (y.1, y.2 ++ b)

/-! ## Codewords (R249 to R252) -/

/-- The port looks for or has codeword lock: it is in LOCK or past it (R264). -/
def State.listens (s : State) (p : Nat) : Bool := decide (psLock ≤ s.pstate p) && decide (s.pstate p ≤ psUp)

/-- The lanes in use of what the lanes of a port have brought: in ascending logical order, each with its polarity (R250). -/
def State.lanesIn (s : State) (p : Nat) (cw : Codeword) : List (Bool × List Nat) :=
  let x := s.port p
  let n := laneCount p
  let mask := laneMask p (s.lanesNow p).1 (s.lanesNow p).2
  ((List.range n).filter (fun l => mask.getLsbD l)).map (fun l =>
    let phys := if x.reversed then n - 1 - l else l
    (x.inverted.getLsbD phys, (cw.lanes.getD phys []).map (fun v => v.toNat)))

/-- What the receiver of a port makes of a codeword, and what its descrambler keeps (R249 to R251). -/
def State.decode (s : State) (p : Nat) (cw : Codeword) : Option (Nat × List Slot) × Nat := receive (s.port p).descr (fromLanes (s.lanesIn p cw))

/-- A correctable codeword: the fourth in a row gives lock (R251). -/
def Port.goodCodeword (x : Port) : Port := { x with good := min 4 (x.good + 1), bad := 0, lock := x.lock || decide (3 ≤ x.good) }

/-- An uncorrectable codeword while locked: the 64th in a row loses lock, and the one that reaches 2^UNC_EXP within 1 ms is an event of R261. -/
def State.badCodeword (s : State) (p : Nat) : State :=
  let x := s.port p
  let times := x.uncTimes.filter (fun t => decide (s.time < t + 1000000)) ++ [s.time]
  if x.bad + 1 ≥ 64 then (s.setPort p { x with lock := false, good := 0, bad := 0, uncTimes := times }).loseLock p
  else if times.length ≥ 2 ^ s.fld (plink p 4) 24 4 then (s.setPort p { x with good := 0, bad := x.bad + 1, uncTimes := [] }).errorLimit p
  else s.setPort p { x with good := 0, bad := x.bad + 1, uncTimes := times }

/-- A codeword whose slots have come out of the decoder is used slot by slot (R253). A bound-off node discards what it receives (R300). -/
def State.useCodeword (s : State) (p n : Nat) (slots : List Slot) : State :=
  let s := s.count (pctr p (0x80 + 8 * n))
  let s := if n = 0 then s else (s.count (pctr p 0x08)).count (pctr p 0x18) n
  if s.boundOff then s else slots.foldl (fun s x => s.slot p x) s

/-- A codeword as its slots or as uncorrectable: of a locked port it is counted and used, or discarded whole with the packets that lost a slot (R251,
R252, R254); without lock it only counts toward it. -/
def State.codeword (s : State) (p : Nat) (r : Option (Nat × List Slot)) : State :=
  if !(s.port p).lock then s.modPort p (fun x => if r.isSome then x.goodCodeword else { x with good := 0 })
  else
    let s := s.count (pctr p 0)
    match r with
    | none => ((s.count (pctr p 0x10)).abortRx p).badCodeword p
    | some x => (s.modPort p Port.goodCodeword).useCodeword p x.1 x.2

/-- A codeword comes in on the lanes of a port: it is decoded, descrambled and used (R249 to R254). -/
def execCodewordRx (p : Nat) (cw : Codeword) (s : State) : Outcome State Fault Refusal :=
  .next (if !s.listens p then s
    else
      let d := s.decode p cw
      (s.modPort p (fun x => { x with descr := d.2 })).codeword p d.1)

/-! ## The stream that a port sends (R249, R250, R253 to R256) -/

/-- The slots that the node's outputs on a port make up, from the symbols that wait for a CTRL slot on: a packet's slots stand in order with no other
packet's between them, and an ABORT has the first place in the slot after its packet (R253, R254, R256). -/
def txSlots (p : Nat) : List (List Byte) → List Out → List Slot
  | w, [] => ctrlSlots w
  | w, .symbol q b :: os => if q = p then txSlots p (w ++ [b]) os else txSlots p w os
  | w, .packet q k :: os => if q = p then ctrlSlots w ++ packetSlots (headBytes k) k.payload ++ txSlots p [] os else txSlots p w os
  | w, .attach _ q psn lup m :: os => if q = p then ctrlSlots w ++ packetSlots (attachHead psn lup m) m.payload ++ txSlots p [] os else txSlots p w os
  | w, _ :: os => txSlots p w os

/-- The codewords of those slots after the bits scrambled before them, as the levels of each lane in use (R249, R250). -/
def State.txLanes (s : State) (p before : Nat) : List (List (List Nat)) :=
  let slots := txSlots p [] s.out
  (codewordsOf slots.length before slots).map (toLanes (laneCount p * 2 ^ (s.lanesOf p).1 / 8))

end Sys2Proof.Machine
end

