-- ==== Sys2Proof/Machine/Collective.lean ====
section
/-! DEFINITION. The meanings of the collectives, SNAP and the set-up and integrity instructions, of the collective packets and of slots
(R67 to R85, R149 to R178). -/

namespace Sys2Proof.Machine

open Host (Outcome)

/-! ## Instructions -/

/-- A collective of queue g starts, if its turn has come. -/
def State.startCollective (s : State) (g : Nat) (op : BitVec 8) : State := (s.startOp g op State.coReasons (State.collReady g) State.startColl).settle

def execRdsc (g : Nat) (s : State) : Outcome State Fault Refusal := .next (s.startCollective g 0x30)
def execAgth (g : Nat) (s : State) : Outcome State Fault Refusal := .next (s.startCollective g 0x31)
def execAred (g : Nat) (s : State) : Outcome State Fault Refusal := .next (s.startCollective g 0x32)
def execA2a (g : Nat) (s : State) : Outcome State Fault Refusal := .next (s.startCollective g 0x33)
def execA2av (g : Nat) (s : State) : Outcome State Fault Refusal := .next (s.startCollective g 0x34)
def execDisp (g : Nat) (s : State) : Outcome State Fault Refusal := .next (s.startCollective g 0x35)
def execComb (g : Nat) (s : State) : Outcome State Fault Refusal := .next (s.startCollective g 0x36)
def execRug (g : Nat) (s : State) : Outcome State Fault Refusal := .next (s.startCollective g 0x37)

def execSnap (g : Nat) (s : State) : Outcome State Fault Refusal := .next (s.startOp g 0x40 State.snapReasons (State.snapReady g) State.startSnap).settle

/-- PERS waits until NV_READY (R443). -/
def execPers (g : Nat) (s : State) : Outcome State Fault Refusal := .next (s.startOp g 0x41 State.persReasons (fun s _ => s.bit 0x200 17) State.startPers).settle
def execDigest (g : Nat) (s : State) : Outcome State Fault Refusal := .next (s.startOp g 0x48 State.digestReasons always State.startDigest).settle

def upsetCode : TagUpset → Nat
  | .none => 0
  | .firstRun => 1
  | .bothRuns => 2
  | .compare => 3
  | .keyLost => 4

def execTag (g : Nat) (upset : TagUpset) (s : State) : Outcome State Fault Refusal :=
  .next (s.startOp g 0x4A State.tagReasons always (fun s r => s.startTag (upsetCode upset) r)).settle

def execUprog (g : Nat) (s : State) : Outcome State Fault Refusal := .next (s.startOp g 0x50 State.uprogReasons always State.startUprog).settle

/-- COMM of one ACTION: the next instruction of queue g where it has that ACTION (R85). -/
def State.startCommAction (s : State) (g act : Nat) : State :=
  match (s.queue g).nextInst with
  | some (i, _, _) => if commAction i.w = act then (s.startOp g 0x58 State.commReasons always State.startComm).settle else s
  | none => s

def execCommCreate (g : Nat) (s : State) : Outcome State Fault Refusal := .next (s.startCommAction g 0)
def execCommReplace (g : Nat) (s : State) : Outcome State Fault Refusal := .next (s.startCommAction g 1)
def execCommDestroy (g : Nat) (s : State) : Outcome State Fault Refusal := .next (s.startCommAction g 2)

/-! ## Taking a collective packet (R150, R164, R241) -/

/-- Takes a packet from the delivered packets without freeing its cells. -/
def State.takePkt (s : State) (pkt : Packet) : InPkt × State :=
  match s.localIn.find? (fun x => x.pkt == pkt) with
  | some x => (x, { s with localIn := s.localIn.erase x })
  | none => ({ pkt, port := none, originated := false }, s)

/-- The packet's PSN has not been delivered before (R241). -/
def State.freshPsn (s : State) (h : Hdr) : Bool := h.src.toNat == s.self || (s.rxCheck h.src.toNat h.psn h.lup).1 == .fresh

/-- Delivers a collective packet once: from a lost node it is discarded (R302); otherwise k acts on a fresh one, and decides about its cells. -/
def State.takeColl (s : State) (h : Hdr) (kind : CollKind) (c : CollF) (payload : List Byte) (k : State → InPkt → State) : State :=
  let t := s.takePkt { hdr := h, body := .coll kind c, payload }
  let x := t.1
  let s := t.2
  if s.boundOff then s.freePkt x
  else if s.isLost h.src.toNat then (s.count 0x260078).freePkt x
  else if s.freshPsn h then
    (s.arrive h false (fun s =>
      let s := if h.src.toNat = s.self then s else s.delivered h.src.toNat h.psn h.ce stOk 0
      k s x)).settle
  else (s.arrive h false id).freePkt x

/-- The handle of a packet is known with the packet's tag, or the packet is answered or discarded (R150). -/
def State.knownHandle (s : State) (h : Hdr) (c : CollF) (x : InPkt) (k : State → State) : State :=
  match s.comm c.comm.toNat with
  | none => (s.sendColl h.src.toNat none .notReady c.comm.toNat c.cseq c.opcode c.chunk.toNat 0 c.pdig).freePkt x
  | some m =>
    if m.tag = h.ttag then k s
    else
      let e := (c.comm.toNat, c.cseq.toNat)
      let s := (s.count 0x260070).freePkt x
      if s.foreign.contains e then s
      else ({ s with foreign := s.foreign ++ [e] } : State).raise 0 collectiveForeign noQueue 0 (c.comm.toNat + c.cseq.toNat * 2 ^ 32)
        (h.src.toNat + h.ttag.toNat * 2 ^ 32) 0

/-- A packet of a chunk transfer, a count or a grant goes to the store. -/
def State.takeTransfer (s : State) (h : Hdr) (kind : CollKind) (c : CollF) (payload : List Byte) : State :=
  s.takeColl h kind c payload (fun s x => s.knownHandle h c x (fun s => s.storePacket x kind c))

def execContrib (h : Hdr) (c : CollF) (payload : List Byte) (s : State) : Outcome State Fault Refusal := .next (s.takeTransfer h .contrib c payload)
def execResult (h : Hdr) (c : CollF) (payload : List Byte) (s : State) : Outcome State Fault Refusal := .next (s.takeTransfer h .result c payload)
def execData (h : Hdr) (c : CollF) (payload : List Byte) (s : State) : Outcome State Fault Refusal := .next (s.takeTransfer h .data c payload)
def execCount (h : Hdr) (c : CollF) (payload : List Byte) (s : State) : Outcome State Fault Refusal := .next (s.takeTransfer h .count c payload)
def execGrant (h : Hdr) (c : CollF) (payload : List Byte) (s : State) : Outcome State Fault Refusal := .next (s.takeTransfer h .grant c payload)

/-! ## Answers to transfers (R165, R174, R178) -/

/-- A header-only answer: its cells are freed, and k acts. -/
def State.takeAnswer (s : State) (h : Hdr) (kind : CollKind) (c : CollF) (k : State → State) : State :=
  s.takeColl h kind c [] (fun s x => s.knownHandle h c x (fun s => k (s.freePkt x)))

/-- A transfer that an answer names: a result, or any other kind. -/
def Xfer.named (x : Xfer) (c : CollF) (result : Bool) : Bool :=
  x.comm == c.comm.toNat && x.cseq == c.cseq && x.op == c.opcode && x.chunk == c.chunk.toNat && (x.kind == .result) == result
    && x.peers.any (fun p => p.rank == c.srank.toNat)

/-- A receiver has acknowledged: the copy goes with the last of them, and with it what a retention ticket still waited for (R283). -/
def State.peerAcked (s : State) (c : CollF) (result : Bool) : State :=
  let t : State := { s with xfers := s.xfers.filterMap (fun x =>
      if x.named c result then
        let ps := x.peers.filter (fun p => p.rank != c.srank.toNat)
        if ps.isEmpty then none else some { x with peers := ps }
      else some x) }
  if s.xfers.length = t.xfers.length then t else t.ackTicket c.comm.toNat c.cseq c.chunk.toNat (!result)

/-- The neighbours of this position in the tree of a chunk of a collective, in progress here or over with a transfer still kept (R176). -/
def State.treeTargets (s : State) (comm : Nat) (cseq : Word) (chunk : Nat) : List Nat :=
  match s.collAt comm cseq with
  | some c => if c.isUp || c.isDown then c.treeKin chunk else []
  | none => (s.xfers.filter (fun x => x.comm == comm && x.cseq == cseq && x.chunk == chunk && (x.kind == .contrib || x.kind == .result))).flatMap (·.kin)

/-- A chunk-loss notice leaves at once on the escape channel, before the frog request that follows it (R176, R229). -/
def State.sendLoss (s : State) (dst : Nat) (tag : BitVec 16) (c : CollF) : State :=
  s.escape {
    pkt := { hdr := { newHdr 0 tag with vc := 2, dst := BitVec.ofNat 20 dst, src := BitVec.ofNat 20 s.self }, body := .coll .chunkLoss c, payload := [] }
    port := none, originated := true }

/-- A chunk of a collective is lost here, or a notice says so: the notice goes along the chunk's tree, or to the other end of the pair, the collective
completes with RESULT_LOST, and the job frogs (R176). kin are the neighbours of the lost transfer, and from_ is where a notice came from. A SNAP has
no such status: its job frogs (R90). -/
def State.loseChunk (s : State) (comm : Nat) (cseq : Word) (op : BitVec 8) (chunk : Nat) (kin : List Nat) (from_ : Option Nat) : State :=
  let e := (comm, cseq.toNat, chunk)
  if s.losses.contains e then s
  else
    let s : State := { s with losses := s.losses ++ [e] }
    let rank := (s.rankHereAt comm cseq).getD 0
    let f : CollF := { headF comm cseq op chunk rank ((s.collAt comm cseq).elim 0 (fun c => c.pdig)) with cgen := s.cgenOf comm cseq rank }
    let to_ := ((kin ++ s.treeTargets comm cseq chunk).dedup).filter (fun n => from_ != some n && n != s.self)
    let s := if op = 0x40 then s else to_.foldl (fun s n => s.sendLoss n (s.commTag comm) f) s
    let s := match (s.collAt comm cseq).bind (fun c => s.run? c.rid) with
      | some r => if op = 0x40 then s else s.completeWith r stResultLost
      | none => s
    match s.comm comm with
    | some m => s.frogCause m.job 2 comm none
    | none => s

/-- A packet of a transfer. -/
def Retained.isOf (y : Retained) (x : Xfer) : Bool := match y.pkt.body with
  | .coll k c => k == x.kind && c.comm.toNat == x.comm && c.cseq == x.cseq && c.chunk.toNat == x.chunk && c.opcode == x.op
  | _ => false

/-- Packets of the last re-send of a transfer to a receiver are still on the wire (R178). -/
def State.onWire (s : State) (x : Xfer) (p : Peer) : Bool :=
  decide (1 < p.tries) && ((s.path p.node).waitq.any (fun y => y.isOf x)
    || (s.path p.node).retained.any (fun y => y.isOf x && !y.acked && !psnBefore y.pkt.hdr.psn p.mark))

/-- One more attempt of a transfer to a receiver: the ninth failure, or a copy that fails its own CRC-64, loses the chunk; no second copy goes while
an earlier re-send is on the wire (R174, R176, R178). -/
def State.tryAgain (s : State) (x : Xfer) (p : Peer) : State :=
  if p.tries ≥ 9 ∨ crc64 x.bytes ≠ x.crc then s.loseChunk x.comm x.cseq x.op x.chunk x.kin none
  else
    let wire := s.onWire x p
    let q : Peer := { p with tries := p.tries + 1, mark := if wire then p.mark else (s.path p.node).nextPsn }
    let s : State := { s with xfers := s.xfers.map (fun y => if y = x then { x with peers := x.peers.map (fun z => if z = p then q else z) } else y) }
    if wire then s else (s.count 0x260068).sendXfer x p.node

/-- A NAK or a re-send request for a transfer that this node still keeps. -/
def State.resendNamed (s : State) (c : CollF) (result : Bool) : State :=
  match s.xfers.find? (fun x => x.named c result) with
  | none => s
  | some x => match x.peers.find? (fun p => p.rank == c.srank.toNat) with
    | some p => s.tryAgain x p
    | none => s

/-- Another member tells the digest of its map for a collective. It is kept until this member's collective is over; a member that does not compare
answers with its own (R85, log entry 21). -/
def State.takeMap (s : State) (c : CollF) : State :=
  let comm := c.comm.toNat
  let own := s.collAt comm c.cseq
  let ahead := (s.comm comm).elim false (fun m => seqFollows m.seq c.cseq)
  let s : State := if own.isSome || ahead then { s with mapDigs := s.mapDigs ++ [(comm, c.cseq, c.srank.toNat, c.tcrc)] } else s
  let silent := c.exc || (match own with
    | some k => k.mapCmp || (s.run? k.rid).elim false (fun r => r.phase == .reading)
    | none => ahead)
  if silent then s
  else (s.rankAt? comm c.cseq c.srank.toNat).elim s (fun r => s.tellMap comm c.cseq c.opcode c.srank.toNat r.node true)

/-- A NAK: a transfer failed its check at its receiver; or, where this node keeps no transfer with its digest, another member tells a digest
of a collective that is not over here (R73; log entry 20). -/
def State.takeNak (s : State) (c : CollF) : State :=
  if c.opcode != 0x40 && c.chunk.toNat == mapChunk then s.takeMap c
  else if c.cseq == 0 || s.xfers.any (fun x => x.comm == c.comm.toNat && x.cseq == c.cseq && x.pdig == c.pdig) then s.resendNamed c false
  else if (s.collAt c.comm.toNat c.cseq).isSome || (s.comm c.comm.toNat).elim false (fun m => seqFollows m.seq c.cseq) then
    { s with digests := s.digests ++ [(c.comm.toNat, c.cseq, c.pdig)] }
  else s

def execAcceptAck (h : Hdr) (c : CollF) (s : State) : Outcome State Fault Refusal := .next (s.takeAnswer h .acceptAck c (fun s => s.peerAcked c false))
def execResultAck (h : Hdr) (c : CollF) (s : State) : Outcome State Fault Refusal := .next (s.takeAnswer h .resultAck c (fun s => s.peerAcked c true))
def execNak (h : Hdr) (c : CollF) (s : State) : Outcome State Fault Refusal := .next (s.takeAnswer h .nak c (fun s => s.takeNak c))
def execResendReq (h : Hdr) (c : CollF) (s : State) : Outcome State Fault Refusal := .next (s.takeAnswer h .resendReq c (fun s => s.resendNamed c true))

/-! ## Handles that a receiver does not know (R150) -/

/-- The receivers of a communicator's transfers at a node: held or not. -/
def State.holdPeers (s : State) (p : Xfer → Bool) (node : Nat) (held : Bool) : State :=
  { s with xfers := s.xfers.map (fun x => if p x then { x with peers := x.peers.map (fun q => if q.node = node then { q with held := held } else q) } else x) }

def execNotReady (h : Hdr) (c : CollF) (s : State) : Outcome State Fault Refusal :=
  .next (s.takeColl h .notReady c [] (fun s x => (s.freePkt x).holdPeers
    (fun x => x.comm == c.comm.toNat && x.cseq == c.cseq && x.chunk == c.chunk.toNat) h.src.toNat true))

/-- The transfers of a communicator that a node has not been ready for, and that could reach it. -/
def State.unready (s : State) (comm node : Nat) : List Xfer :=
  s.xfers.filter (fun x => x.comm == comm && x.peers.any (fun q => q.node == node && q.held && s.rankReach comm x.cseq q.rank node))

def execNotReadyRetry (comm : BitVec 24) (node : BitVec 20) (s : State) : Outcome State Fault Refusal :=
  .next ((s.unready comm.toNat node.toNat).foldl (fun s x => (s.holdPeers (fun y => y == x) node.toNat false).sendXfer x node.toNat) s).settle

def execHandleTimeout (comm : BitVec 24) (node : BitVec 20) (s : State) : Outcome State Fault Refusal :=
  let xs := s.unready comm.toNat node.toNat
  .next ((xs.map (fun x => x.cseq)).dedup.foldl (fun s q =>
    let s : State := { s with xfers := s.xfers.filter (fun x => !(xs.any (fun y => y.cseq == q && y.chunk == x.chunk && y.kind == x.kind)
      && x.comm == comm.toNat && x.cseq == q && x.peers.all (fun z => z.node == node.toNat))) }
    match (s.collAt comm.toNat q).bind (fun c => s.run? c.rid) with
    | some r => s.completeWith r stMismatch
    | none => s) s).settle

/-- A chunk-loss notice of a collective, for a handle that is known with its tag; with OPCODE 0x40 it is a frog request (R150, R176, R321). -/
def execChunkLoss (p : Nat) (h : Hdr) (c : CollF) (s : State) : Outcome State Fault Refusal :=
  let t := s.takePkt { hdr := h, body := .coll .chunkLoss c, payload := [] }
  .next (if s.boundOff then t.2.freePkt t.1
    else if s.isLost h.src.toNat then (t.2.freePkt t.1).count 0x260078
    else if c.opcode = 0x40 then ((t.2.freePkt t.1).takeFrog p h c).settle
    else (t.2.knownHandle h c t.1 (fun s =>
      (s.freePkt t.1).loseChunk c.comm.toNat c.cseq c.opcode c.chunk.toNat [] (some h.src.toNat))).settle)

/-! ## Slots (R160, R162) -/

def execSlotGrant (s : State) : Outcome State Fault Refusal := .next s.slotGrant.settle
def execSlotFinish (slot : Nat) (s : State) : Outcome State Fault Refusal := .next (s.slotFinish slot).settle

end Sys2Proof.Machine
end

