-- ==== Sys2Proof/Machine/Sched.lean ====
section
/-! DEFINITION. Queue weights and rate limits, token buckets, queue sampling and fault-queue control (R378 to R385, R425). -/

namespace Sys2Proof.Machine

open Host (Outcome)

/-- QUEUE_SCHED acts on one set of its registers; a write while GO reads 1 is ignored and counted (R382). -/
def execQueueSched (f : Nat) (s : State) : Outcome State Fault Refusal :=
  let a := page f 0x1060
  let done := fun (s : State) (r : Nat) => (s.setFld a 31 1 0).setResult (page f 0x1068) r
  .next (if s.bit a 31 then s.count (page f 0x2010)
    else match s.globalQ f (s.fld a 0 14) with
      | none => done s 3
      | some g =>
        let q := s.queue g
        if !q.created then done s 2
        else
          let w := s.fld a 16 4
          let q : Queue := if w = 0 then q else { q with weight := w }
          let rate := s.fld (page f 0x1064) 0 13
          let q : Queue := if s.bit a 21 && rate != q.rate then
              { q with rate := rate, tokens := if s.bit a 20 then 65536 else 0 }
            else q
          (done (s.setQueue g q) 1).settle)

/-- Depth of a bucket in bytes (R244, R381, R382). -/
def State.bucketDepth (s : State) : Bucket → Nat
  | .gauge _ => 65536
  | .shaper f => s.fld (0x1B0000 + 0x40 * f + 0x34) 16 8 * 8192
  | .queue _ => 65536

/-- A bucket gains tokens, at most up to its depth, and what waited for them goes on (R244, R381). -/
def execTokenBucketRefill (b : Bucket) (bytes : Nat) (s : State) : Outcome State Fault Refusal :=
  let top := fun (x : Nat) => min (x + bytes) (s.bucketDepth b)
  .next (match b with
    | .gauge n => (s.modPath n (fun p => { p with tokens := top p.tokens })).settle
    | .shaper f => (s.setFunc f { s.func f with tokens := top (s.func f).tokens }).settle
    | .queue g => (s.modQueue g (fun q => { q with tokens := top q.tokens })).settle)

/-! ## Sampling (R383 to R385) -/

/-- ENABLE written as 1 with a reserved SP is ignored and counted; otherwise PI and SNUM start at 0 (R383). -/
def execSampleEnable (f : Nat) (on : Bool) (s : State) : Outcome State Fault Refusal :=
  let a := page f 0x108C
  .next (if on then
      if s.fld a 1 2 > 1 then s.count (page f 0x2010)
      else
        let s := ((s.dropRecs .sample f).setFld a 0 1 1).setReg (page f 0x1094) 0
        s.setFunc f { s.func f with snum := 0 }
    else (s.setRecs .sample f ((s.recs .sample f).take 1)).setFld a 0 1 0)

/-- DEPTH of a queue: entries announced and not yet started (R384). -/
def State.sampleDepth (s : State) (g : Nat) : Nat :=
  let q := s.queue g
  (q.dbpi - q.fetch).toNat + q.heldCount

/-- The oldest entry announced and not started lies this many positions below DBPI; DELAY counts from the doorbell that announced it (R384). -/
def State.sampleDelay (s : State) (g : Nat) : Nat :=
  let q := s.queue g
  let d := s.sampleDepth g
  if d = 0 then 0
  else
    let first := q.dbpi - BitVec.ofNat 32 d
    ((q.bells.find? (fun b => decide (0 < (b.1 - first).toNat) && decide ((b.1 - first).toNat < 2 ^ 31))).map (fun b => s.time - b.2)).getD 0

/-- A bucket holds back the queue's next packet, a contribution, a piece of a COPY or the start of its next instruction (R381, R384). -/
def State.shaped (s : State) (g : Nat) : Bool :=
  (s.headUnsent g).any (fun x => !s.bucketsAllow g x.2.cost)
    || s.paths.any (fun p => p.2.waitq.any (fun x => x.charge == some g && !s.grantable x))
    || s.runs.any (fun r => r.g == g && r.phase == .granting && !s.bucketsAllow g (64 + min 4096 (entBytes r.ins.w 28 4 - r.aux)))
    || ((s.queue g).nextInst.isSome && !s.bucketsAllow g 64)

/-- The 16 B sample record of a queue, with PHASE 0 (R384). -/
def State.sampleRecord (s : State) (g : Nat) (snum : Word) : List Byte :=
  let q := s.queue g
  let b := fun (c : Bool) (n : Nat) => if c then 2 ^ n else 0
  let mine := s.runs.filter (fun r => r.g == g)
  leBytes 2 (s.relQ g)
    ++ [BitVec.ofNat 8 (b q.stale.isSome 0 + b q.txnWait.isSome 1 + b (mine.any (fun r => r.phase == .counter)) 2 + b (!q.heldRecs.isEmpty) 3 + b (s.shaped g) 4), 0]
    ++ leBytes 4 snum.toNat ++ leBytes 2 (min 65535 (s.sampleDepth g)) ++ leBytes 2 mine.length ++ leBytes 4 (min (2 ^ 32 - 1) (s.sampleDelay g))

/-- Writes the records of a period in ascending queue number; one that finds the ring full drops the rest (R384, R385). -/
def State.sampleAll (s : State) (f : Nat) (snum : Word) : List Nat → State
  | [] => s
  | g :: rest =>
    if (s.recNext .sample f - s.reg (page f 0x1098)).toNat = s.recSize .sample f then
      ((s.setFld (page f 0x109C) 8 1 1).bumpSeq (page f 0x109C)).count (page f 0x2038) (rest.length + 1)
    else (s.recPush .sample f 0 (s.sampleRecord g snum)).sampleAll f snum rest

def execSamplePeriod (f : Nat) (s : State) : Outcome State Fault Refusal :=
  .next (if s.bit (page f 0x108C) 0 then
      let s := s.setFunc f { s.func f with snum := (s.func f).snum + 1 }
      s.sampleAll f (s.func f).snum (s.queuesOf f)
    else s)

/-! ## Fault-queue control (R425) -/

/-- ENABLE written as 1 with SP 0b11, or with SP DMA from a virtual function, is ignored and counted; otherwise PI starts at 0 (R425). ENABLE
written as 0 leaves the records that wait behind the one being written unwritten (R427). -/
def execFaultqEnable (f : Nat) (on : Bool) (s : State) : Outcome State Fault Refusal :=
  let a := page f 0x190C
  .next (if on then
      if s.fld a 1 2 = 3 ∨ (s.fld a 1 2 = 2 ∧ f ≠ 0) then s.count (page f 0x2010)
      else
        let s := ((s.dropRecs .fault f).setFld a 0 1 1).setReg (page f 0x1914) 0
        s.setFunc f { s.func f with irqSent := false }
    else
      ((s.recs .fault f).drop 1).foldl (fun s r => s.faultLost f r.1) ((s.setRecs .fault f ((s.recs .fault f).take 1)).setFld a 0 1 0))

end Sys2Proof.Machine
end

