-- ==== Sys2Proof/Machine/Commit.lean ====
section
/-! DEFINITION. Staged fields and COMMIT: the checks of the four blocks, and what an accepted set does (R228, R285, R295, R296, R371, R375, R376,
R382, R412, R413). -/

namespace Sys2Proof.Machine

open Host (Outcome)

/-! ## The staged set (R412) -/

/-- The bits of RWS fields of a word. -/
def rwsMask (a : Nat) : Word := accMask (fun x => x == .rws) a

/-- A field of a word as the nearest value from lo to hi (R412 step 3). -/
def clampField (w : Word) (pos width lo hi : Nat) : Word := insertBits w pos width (min hi (max lo (extractBits w pos width)))

/-- The registers that a COMMIT does not check: a value outside its range is committed as the nearest value within it (R275, R340, R412). -/
def clampWord (a : Nat) (w : Word) : Word :=
  if 0x140000 ≤ a ∧ a < 0x140900 ∧ a % 0x40 = 4 then
    clampField (clampField (clampField (clampField w 0 5 4 16) 8 8 1 255) 16 4 4 8) 20 4 1 15
  else if a = 0x150054 then clampField w 0 8 1 255
  else if a = 0x170000 then clampField (clampField w 0 8 10 200) 8 8 12 255
  else if a = 0x180000 then clampField (clampField w 0 8 1 160) 8 8 1 255
  else if a = 0x190004 then clampField (clampField w 0 16 10 65535) 16 7 1 64
  else if a = 0x1A0040 then clampField (clampField (clampField w 0 8 2 255) 8 8 1 255) 16 5 2 31
  else w

/-- The staged words. -/
def State.stagedWords (s : State) : List (Nat × Word) := s.staged.filterMap (fun e => e.2.map (fun w => (e.1, w)))

/-- The registers as the staged set would make them. -/
def State.candidate (s : State) : State :=
  s.stagedWords.foldl (fun t e => t.setReg e.1 ((s.reg e.1 &&& ~~~ rwsMask e.1) ||| (clampWord e.1 e.2 &&& rwsMask e.1))) s

/-- Some field of a 64 KiB window is staged. -/
def State.stages (s : State) (win : Nat) : Bool := s.stagedWords.any (fun e => e.1 / 0x10000 == win)

/-! ## ROUTE (R228) -/

/-- A constant of ROUTE_ADAPT, ROUTE_E2E or ROUTE_CC0 to ROUTE_CC3 is out of range. -/
def State.badConstant (t : State) : Bool :=
  decide (t.fld 0x110014 16 10 < 16)
    || decide (t.fld 0x110018 0 10 < 4) || decide (t.fld 0x110018 10 12 < t.fld 0x110018 0 10) || decide (t.fld 0x110018 22 5 < 2)
    || decide (t.fld 0x11001C 0 16 < 4) || decide (t.fld 0x11001C 16 8 < 5) || t.fld 0x11001C 24 4 == 0 || decide (8 < t.fld 0x11001C 24 4)
    || t.fld 0x11001C 28 4 == 0
    || t.fld 0x110020 0 13 == 0 || decide (t.fld 0x110020 16 13 < t.fld 0x110020 0 13) || decide (t.fld 0x110028 0 16 < 10)

/-- A map entry that names no peer of this node. -/
def State.badPort (t : State) (p : Nat) : Bool :=
  let d := t.portDim p
  d != 7 && (decide (5 ≤ d) || t.dimSize d == 0 || decide (t.dimSize d ≤ t.portPeer p) || t.portPeer p == t.mine d)

/-- Port p is the fifth that names its peer. -/
def State.fifth (t : State) (p : Nat) : Bool :=
  t.portDim p != 7 && ((t.trunk (t.portDim p) (t.portPeer p)).filter (fun q => decide (q ≤ p))).length == 5

/-- ROUTE_SELF or ROUTE_SIZE changes while a fabric port is up, or the map of an up port changes. -/
def State.liveChange (s t : State) : Bool :=
  let up := (List.range 32).filter s.portUp
  ((s.reg 0x110004 != t.reg 0x110004 || s.reg 0x110008 != t.reg 0x110008) && !up.isEmpty)
    || up.any (fun p => s.reg (0x110100 + 4 * p) != t.reg (0x110100 + 4 * p))

/-- RESULT and PORT of the router's check of the candidate t. -/
def State.routeCheck (s t : State) : Nat × Nat :=
  let z := fun (n : Nat) => t.fld 0x110008 (4 * n) 4
  let bad := (List.range 32).find? t.badPort
  let many := (List.range 32).find? t.fifth
  if (List.range 4).any (fun n => z n == 0 && z (n + 1) != 0) ∨ ((List.range 5).map z).sum > 32 then (2, 0)
  else if !t.namesNode t.self then (3, 0)
  else if bad.isSome then (4, bad.getD 0)
  else if t.dims.any (fun n => (List.range (t.dimSize n)).any (fun v => v != t.mine n && (t.trunk n v).isEmpty)) then (5, 0)
  else if many.isSome then (6, many.getD 0)
  else if s.liveChange t then (7, 0)
  else if t.badConstant then (8, 0)
  else (1, 0)

/-! ## STORE (R281, R296) -/

/-- A LIMIT field is out of range: A0, A1, E of a class (R296). -/
def badLimit (c v x : Nat) : Bool := if c = 0 then (if v < 2 then x != 0 else x == 0) else decide (x < 5)

/-- The first region that SHARED cannot grow to its new minimum, with the cells that the ones before it take. -/
def State.noSpace (s t : State) : Nat → List Nat → Option Nat
  | _, [] => none
  | used, n :: ns =>
    let need := 4096 * t.minMiB n - max (4096 * s.minMiB n) (s.cells n)
    if need > 0 ∧ used + need > s.sharedFree then some n else s.noSpace t (used + need) ns

/-- RESULT and REGION of the check of STORE fields. -/
def State.storeCheck (s t : State) : Nat × Nat :=
  let mx := fun (n : Nat) => t.fld (0x150020 + 4 * n) 16 16
  let bad := [1, 2, 3, 5, 6, 7, 8].find? (fun n => decide (mx n < t.minMiB n) || (n == 5 && mx n != t.minMiB n))
  if (List.range 6).any (fun c => (List.range 3).any (fun v => badLimit c v (t.fld (0x150000 + 4 * c) (10 * v) 10))) then (2, 0)
  else if bad.isSome then (3, bad.getD 0)
  else if ((List.range 10).map t.minMiB).sum > 8192 then (3, 0)
  else match s.noSpace t 0 (List.range 10) with
    | some n => (4, n)
    | none =>
      if t.fld 0x150050 0 2 = 3 ∨ t.fld 0x150050 2 12 > 3063 ∨ (t.reg 0x150050 ≠ s.reg 0x150050 ∧ !s.bit 0x190008 1) then (5, 0) else (1, 0)

/-! ## FUNC (R373 to R376) -/

/-- The allocated ranges of a function: queues, counters, pooled memory, program slots, key slots, as first number and count. -/
def State.ranges (s : State) (f : Nat) : List (Nat × Nat) :=
  [(s.qbase f, s.qcount f), (s.cbase f, s.ccount f), (s.grant f 8 0 12, s.grant f 8 16 12), (s.grant f 0x20 0 6, s.grant f 0x20 8 7),
   (s.grant f 0x24 0 8, s.grant f 0x24 8 9)]

/-- Node totals of the five ranges (R375). -/
def rangeTotals : List Nat := [16384, 32768, 3064, 64, 256]

def State.badRange (t : State) (f : Nat) : Bool :=
  ((t.ranges f).zip rangeTotals).any (fun x => decide (x.2 < x.1.1 + x.1.2))
    || decide (1048576 < t.grant f 0xC 0 21) || decide (1048576 < t.grant f 0x10 0 21) || decide (262144 < t.grant f 0x14 0 19)
    || decide (4096 < t.grant f 0x18 0 13) || decide (4096 < t.grant f 0x1C 0 13) || decide (8192 < t.grant f 0x28 0 14)
    || t.grant f 0x34 0 13 == 0 || t.grant f 0x34 16 8 == 0

/-- Two ranges meet. -/
def meets (a b : Nat × Nat) : Bool := decide (0 < a.2) && decide (0 < b.2) && decide (a.1 < b.1 + b.2) && decide (b.1 < a.1 + a.2)

def State.overlaps (t : State) (f : Nat) : Bool :=
  (List.range 256).any (fun g => g != f && ((t.ranges f).zip (t.ranges g)).any (fun x => meets x.1 x.2))

/-- The registrations that a function holds. -/
def State.keysOf (s : State) (f : Nat) : List KeyEnt := (s.keys.map (·.2)).filter (fun k => k.owner == f && k.state != .free)

/-- A change of function f's grant that running work forbids (R375 IN_USE). -/
def State.inUse (s t : State) (f : Nat) : Bool :=
  [(s.qbase f != t.qbase f, s.qcount f), (s.cbase f != t.cbase f, s.ccount f), (s.grant f 0x20 0 6 != t.grant f 0x20 0 6, s.grant f 0x20 8 7),
   (s.grant f 0x24 0 8 != t.grant f 0x24 0 8, s.grant f 0x24 8 9)].any (fun x => x.1 && x.2 != 0)
    || (s.queuesOf f).any (fun g => decide (t.qcount f ≤ g - s.qbase f))
    || (s.keysOf f).any (fun k => k.space == 2 && (k.state == .valid || k.state == .draining)
        && !(decide (t.poolBase f ≤ k.base) && decide (k.base + k.len ≤ t.poolBase f + t.poolLen f)))
    || (s.ttagOf f != t.ttagOf f && (!(s.queuesOf f).isEmpty || !(s.keysOf f).isEmpty
        || s.comms.any (fun c => c.2.elim false (fun x => x.creator == f))))

/-- The functions with staged fields, in ascending order. -/
def State.stagedFuncs (s : State) : List Nat :=
  (List.range 256).filter (fun f => s.stagedWords.any (fun e => decide (0x1B0000 + 0x40 * f ≤ e.1) && decide (e.1 < 0x1B0000 + 0x40 * f + 0x40)))

/-- RESULT of the check of one function's grant. -/
def State.funcResult (s t : State) (f : Nat) : Nat := if t.badRange f then 2 else if t.overlaps f then 3 else if s.inUse t f then 4 else 1

/-- RESULT and FUNC of the check of FUNC fields: of the lowest function that fails. -/
def State.funcCheck (s t : State) : Nat × Nat :=
  match s.stagedFuncs.find? (fun f => s.funcResult t f != 1) with
  | some f => (s.funcResult t f, f)
  | none => (1, 0)

/-! ## ATTACH (R371) -/

def State.attachResult (s t : State) (a : Nat) : Nat :=
  let old := s.accOwner a
  if t.accOwner a ≠ old ∧ ((s.keysOf old).any (fun k => k.space == 1 && k.base / 2 ^ 38 % 4 == a)
      || (s.queuesOf old).any (fun g => (s.queue g).usesAccel a)) then 2
  else if !s.enabled (t.accOwner a) then 3
  else 1

/-- RESULT and INDEX of the check of ATTACH fields: of the lowest accelerator that fails. -/
def State.attachCheck (s t : State) : Nat × Nat :=
  match (List.range 4).find? (fun a => s.stagedWords.any (fun e => e.1 == 0x1A0000 + 0x10 * a) && s.attachResult t a != 1) with
  | some a => (s.attachResult t a, a)
  | none => (1, 0)

/-! ## COMMIT and DISCARD (R412, R413) -/

/-- BLOCK, window, status register, and width of the second field, of the four blocks that check; with the check of each. -/
def State.blockChecks (s t : State) : List (Nat × Nat × Nat × Nat × (Nat × Nat)) :=
  ([(1, 0x11, 0x11000C, 5, s.routeCheck t), (2, 0x15, 0x150058, 4, s.storeCheck t), (3, 0x1B, 0x1B4000, 8, s.funcCheck t),
    (4, 0x1A, 0x1A0044, 2, s.attachCheck t)]).filter (fun b => s.stages b.2.1)

/-- GLOBAL_COMMIT_STATUS of a write (R410). -/
def State.commitStatus (s : State) (res blk : Nat) : State := ((s.setFld 0x108 8 4 res).setFld 0x108 12 4 blk).bumpSeq 0x108

/-- The geometry registers, in ascending address (R225). -/
def geometryRegs : List Nat := [0x110004, 0x110008] ++ (List.range 32).map (fun p => 0x110100 + 4 * p)

/-- An accepted set with ROUTE fields: the measurement of the geometry, the seed of the route generator, STAGE and the row tables
(R228, R233, R403, R443 step 7). -/
def State.commitRoute (s old : State) : State :=
  let staged := fun (a : Nat) => old.stagedWords.any (fun e => e.1 == a)
  let s := if geometryRegs.any staged then
      let s := s.extendMr 5 (sha3_512 (geometryRegs.flatMap (fun a => leBytes 4 (s.reg a).toNat)))
      (if s.fld 0x200 8 4 = 2 then (s.setFld 0x200 8 4 3).bumpSeq 0x200 else s)
    else s
  let s : State := if staged 0x110004 then { s with lfsr := 0x80000000 ||| BitVec.ofNat 32 s.self } else s
  s.rowsChanged

/-- An accepted set with STORE fields: a new TARGET loses what a store window held (R294). -/
def State.commitStore (s old : State) : State :=
  if s.fld 0x150050 0 2 = old.fld 0x150050 0 2 then s else { s with winStore := [], winPoison := [] }

/-- Numbers of a range that another does not hold. -/
def newNumbers (now was : Nat × Nat) : List Nat :=
  ((List.range now.2).map (fun i => now.1 + i)).filter (fun n => !(decide (was.1 ≤ n) && decide (n < was.1 + was.2)))

/-- The shaper of function f is set where RATE or BURST changes or SHAPE_EN becomes 1 (R382). -/
def State.commitShaper (s old : State) (f : Nat) : State :=
  let a := 0x1B0000 + 0x40 * f
  if s.fld (a + 0x34) 0 13 ≠ old.fld (a + 0x34) 0 13 ∨ s.fld (a + 0x34) 16 8 ≠ old.fld (a + 0x34) 16 8
      ∨ (s.bit (a + 0x30) 8 ∧ !old.bit (a + 0x30) 8) then
    s.setFunc f { s.func f with tokens := if s.bit (a + 0x30) 9 then s.bucketDepth (.shaper f) else 0 }
  else s

/-- A slot newly granted is empty (R195, R394); one taken from the grant is emptied once what started with it is complete (R376). -/
def State.commitSlots (s old : State) (f : Nat) : State :=
  let prog := fun (x : State) => (x.grant f 0x20 0 6, x.grant f 0x20 8 7)
  let key := fun (x : State) => (x.grant f 0x24 0 8, x.grant f 0x24 8 9)
  let users := fun (isKey : Bool) (n : Nat) => (s.runs.filter (fun r => r.slot == n
      && (if isKey then entOpcode r.ins.w == 0x4A else entOpcode r.ins.w == 0x37 || entOpcode r.ins.w == 0x50))).map (·.rid)
  let gone := (newNumbers (prog old) (prog s)).map (fun n => (false, n, users false n))
    ++ (newNumbers (key old) (key s)).map (fun n => (true, n, users true n))
  let waits := (newNumbers (prog s) (prog old)).map (fun n => (false, n, users false n))
    ++ (newNumbers (key s) (key old)).map (fun n => (true, n, users true n))
  { s with slotWaits := s.slotWaits ++ gone ++ waits }

/-- An accepted set with FUNC fields, for one function: counters newly granted read 0 (R107, R376). -/
def State.commitFunc (s old : State) (f : Nat) : State :=
  let s := (newNumbers (s.cbase f, s.ccount f) (old.cbase f, old.ccount f)).foldl (fun s c => s.setRowc c 0) s
  (s.commitSlots old f).commitShaper old f

/-- Every staged field takes effect. -/
def State.commitApply (s t : State) : State :=
  let t : State := { t with staged := [] }
  let t := (t.setFld 0x100 0 16 (s.fld 0x100 0 16 + 1)).commitStatus 1 0
  let t := if s.stages 0x11 then t.commitRoute s else t
  let t := t.commitStore s
  s.stagedFuncs.foldl (fun t f => t.commitFunc s f) t

/-- Each block with staged fields shows the outcome of its own check. -/
def State.blockStatus (s : State) (bs : List (Nat × Nat × Nat × Nat × (Nat × Nat))) : State :=
  bs.foldl (fun s b => ((s.setFld b.2.2.1 8 4 b.2.2.2.2.1).setFld b.2.2.1 12 b.2.2.2.1 b.2.2.2.2.2).bumpSeq b.2.2.1) s

/-- A COMMIT with the right GEN: checked, and applied whole or not at all. -/
def State.commit (s : State) : State :=
  let t := s.candidate
  let bs := s.blockChecks t
  match bs.find? (fun b => b.2.2.2.2.1 != 1) with
  | some b => ((s.blockStatus bs).count 0x200028).commitStatus 2 b.1
  | none => ((s.commitApply t).blockStatus bs).settle

/-- A write of GLOBAL_COMMIT: ignored and counted while BUSY, and GEN_STALE unless GEN is CURRENT + 1 (R413). -/
def State.commitWrite (s : State) (gen : BitVec 16) (k : State → State) : State :=
  if s.bit 0x100 16 then s.count 0x200018
  else if gen.toNat ≠ (s.fld 0x100 0 16 + 1) % 2 ^ 16 then (s.count 0x200020).commitStatus 3 0
  else k s

def execGlobalCommit (gen : BitVec 16) (s : State) : Outcome State Fault Refusal := .next (s.commitWrite gen State.commit)

/-- DISCARD returns every staged field to its committed value; CURRENT stays. -/
def execGlobalDiscard (gen : BitVec 16) (s : State) : Outcome State Fault Refusal :=
  .next (s.commitWrite gen (fun s => ({ s with staged := [] } : State).commitStatus 4 0))

end Sys2Proof.Machine
end

