-- ==== Sys2Proof/Machine/Tier.lean ====
section
/-! DEFINITION. The checkpoint tier, its governor and commands; the sweep of the store and the scrub of pooled memory (R279, R280, R290, R291,
R333 to R343). -/

namespace Sys2Proof.Machine

open Host (Outcome)

/-! ## Versions and the governor (R334 to R338) -/

/-- CREDIT and PACED as NV_GOV_STATUS shows them (R340). -/
def State.showGov (s : State) : State :=
  (s.setFld 0x180004 0 16 (s.govCredit / 2 ^ 30)).setFld 0x180004 16 1 (if s.govCredit = 0 ∧ s.tier.any (fun o => !o.writing.isEmpty) then 1 else 0)

/-- Bytes of media that n bytes of host writes take, die parity counted (R333, R337). -/
def mediaBytes (n : Nat) : Nat := n * 16 / 15

/-- Media bytes are written: NV_MEDIA_BYTES, and the total since manufacture (R337, R341). -/
def State.media (s : State) (n : Nat) : State := { s.count 0x230040 n with mediaTotal := s.mediaTotal + n }

/-- The oldest version being written of an object becomes durable and current; PERS completes (R80, R334). Writes of the tier pause while its NAND is
hot (R459). -/
def execPersDurable (obj : DWord) (s : State) : Outcome State Fault Refusal :=
  .next (if s.pwr.nandPaused then s else match s.tier.find? (fun o => o.obj == obj.toNat && !o.writing.isEmpty) with
    | none => s
    | some o => match o.writing with
      | [] => s
      | (rid, v) :: rest =>
        let s := s.setTobj { o with cur := some v, prev := o.cur, writing := rest }
        let s := ({ s with govCredit := s.govCredit - v.data.length } : State).media (mediaBytes v.data.length)
        let s := s.showGov
        match s.run? rid with
        | some r => (s.complete { r with info := BitVec.ofNat 64 v.data.length }).settle
        | none => s)

/-- Raw bytes of the tier (8.96 TiB), and the rated media bytes (R333, R337). -/
def rawBytes : Nat := 896 * 2 ^ 40 / 100
def ratedBytes : Nat := 30000 * rawBytes
/-- Seconds of a year of 365 days. -/
def yearS : Nat := 365 * 86400

/-- RATE (R337): the rated bytes left over the time left and the write amplification, at most AVG; media and host are the bytes of the last 24 h. -/
def govRateOf (avg left timeLeft media host : Nat) : Nat :=
  if host = 0 ∨ media * 15 ≤ host * 16 then min avg (left * 15 / (timeLeft * 16)) else min avg (left * host / (timeLeft * media))

/-- The governor's turn of every second; the second before it counts as paced where PACED was set at its end (DEDUCED, log entry 41). -/
def execGovernorTick (now24hMedia now24hHost : Nat) (s : State) : Outcome State Fault Refusal :=
  let now := s.epoch + s.time
  let age := (now - s.firstCastOn.getD now) / 10 ^ 9
  let left := ratedBytes - s.mediaTotal
  let rate := govRateOf (s.fld 0x180000 0 8 * 10 ^ 7) left (max (5 * yearS - age) yearS) now24hMedia now24hHost
  let s := if s.bit 0x180004 16 then s.count 0x230060 (10 ^ 6) else s
  .next ({ s with govRate := rate, govCredit := min (s.govCredit + rate) (s.fld 0x180000 8 8 * 2 ^ 36) } : State).showGov

/-- A block is read-scanned; one that needs it is rewritten, 8 MiB, where writes do not pause (R333, R338, R459). -/
def execRetentionScan (_block : Nat) (refresh : Bool) (s : State) : Outcome State Fault Refusal :=
  .next (if refresh && !s.pwr.nandPaused then (s.count 0x230048 (2 ^ 23)).media (2 ^ 23) else s)

/-- A version is lost: the previous one, if any, becomes current (R338). -/
def State.loseVersion (s : State) (f obj : Nat) : State :=
  match s.tobj? f obj with
  | none => s
  | some o => match o.cur with
    | none => s
    | some v => ((s.setTobj { o with cur := o.prev, prev := none }).count 0x230068).raise f nvVersionLost noQueue 0 obj v.step.toNat 0

/-- A block is retired; its page is staged, rebuilt or lost; availGib is the capacity that the devices still have (R335, R338). -/
def execNandBlockFail (_block : Nat) (page : PageFinding) (availGib : Nat) (s : State) : Outcome State Fault Refusal :=
  let s := s.count 0x230050
  let s := s.setFld 0x18000C 16 16 ((s.counter 0x230050).toNat * 2 ^ 23 * 1000 / rawBytes)
  let s := match page with
    | .staged => s
    | .rebuilt => s.count 0x230058
    | .lost f obj => s.loseVersion f obj.toNat
  .next (if availGib < s.fld 0x18000C 0 16 then (s.setFld 0x18000C 0 16 availGib).raise 0 nvCapacityReduced noQueue 0 availGib 0 0 else s)

/-! ## NV_CMD (R343) -/

/-- The checkpoint-tier tables are rebuilt (R442 NV_READY). -/
def State.nvReady (s : State) : Bool := s.bit 0x200 17

/-- NV_CMD is written with an OP: ignored and counted while GO reads 1; before NV_READY it waits with GO reading 1 (R343, R443). -/
def State.nvCmd (s : State) (f op : Nat) (k : State → State) : State :=
  if s.bit (page f 0x1214) 31 then s.count (page f 0x2010)
  else if s.nvReady then k (s.setFld (page f 0x1214) 0 2 op)
  else (s.setFld (page f 0x1214) 0 2 op).setFld (page f 0x1214) 31 1 1
def State.nvDone (s : State) (f res : Nat) : State := (s.setFld (page f 0x1214) 31 1 0).setResult (page f 0x1218) res

/-- The object that NV_CMD names, of this function; or whether another function has one of the number. -/
def State.nvObj (s : State) (f : Nat) : Option TObj := s.tobj? f (s.reg64 (page f 0x1200)).toNat
def State.nvOther (s : State) (f : Nat) : Bool := s.tier.any (fun o => o.obj == (s.reg64 (page f 0x1200)).toNat && o.owner != f)
def State.nvPrev (s : State) (f : Nat) : Bool := s.bit (page f 0x1214) 2
/-- The version that NV_CMD names. -/
def State.nvVersion (s : State) (f : Nat) : Option TVer := (s.nvObj f).bind (fun o => if s.nvPrev f then o.prev else o.cur)
/-- The result where NV_CMD names no version of the function's. -/
def State.nvAbsent (s : State) (f : Nat) : Nat := if (s.nvObj f).isNone && s.nvOther f then 3 else 2

def State.nvQueryAct (s : State) (f : Nat) : State :=
  match s.nvVersion f with
  | none => s.nvDone f (s.nvAbsent f)
  | some v => ((s.setReg64 (page f 0x1220) (BitVec.ofNat 64 v.data.length)).setReg64 (page f 0x1228) v.step).nvDone f 1

def execNvQuery (f : Nat) (s : State) : Outcome State Fault Refusal := .next (s.nvCmd f 0 (fun s => s.nvQueryAct f))

/-- The write of one piece of a version under the key. -/
def restorePkt (f : Nat) (ttag : BitVec 16) (addr : DWord) (key : Word) (bytes : List Byte) : Retained :=
  enginePkt 5 ttag (.request {
    opcode := 0x10, iqueue := BitVec.ofNat 14 f, placed := false, instid := restoreInst, addr := addr, key := key, comm := 0, size := false,
    fetch := false, seterr := false, clrerr := false, arg := 0 }) bytes false

/-- RESTORE sends the version as writes; GO reads 1 until they are placed. -/
def State.nvRestore (s : State) (f : Nat) (v : TVer) : State :=
  let dst := s.reg64 (page f 0x1208)
  let ps := cutRange (v.data.length / 4096 + 2) dst 0 v.data.length
  match s.resolve none dst with
  | .node n =>
    let s : State := { s with restores := s.restores ++ [{ f, obj := (s.reg64 (page f 0x1200)).toNat, prev := s.nvPrev f, left := ps.length, fail := none, node := n }] }
    ps.foldl (fun s c => s.originate n (restorePkt f (s.ttagOf f) (dst + BitVec.ofNat 64 c.1) (s.reg (page f 0x1210)) ((v.data.drop c.1).take c.2)))
      (s.setFld (page f 0x1214) 31 1 1)
  | _ => (s.setReg64 (page f 0x1228) (stTargetLost.setWidth 64)).nvDone f 4

def State.nvRestoreAct (s : State) (f : Nat) : State :=
  match s.nvVersion f with
  | none => s.nvDone f (s.nvAbsent f)
  | some v =>
    let d := s.reg64 (page f 0x1208)
    if (raForm d != 0 && raForm d != 3) || raSpace d != 0 || (raForm d == 3 && raNode d != 0) then s.nvDone f 5
    else (s.nvRestore f v).settle

def execNvRestore (f : Nat) (s : State) : Outcome State Fault Refusal := .next (s.nvCmd f 1 (fun s => s.nvRestoreAct f))

def State.nvDeleteAct (s : State) (f : Nat) : State :=
  match s.nvObj f with
  | none => s.nvDone f (s.nvAbsent f)
  | some o =>
    if s.restores.any (fun x => x.f == f && x.obj == o.obj && x.prev == s.nvPrev f) then s.nvDone f 6
    else if (if s.nvPrev f then o.prev else o.cur).isNone then s.nvDone f (if o.writing.isEmpty then 2 else 6)
    else (s.setTobj (if s.nvPrev f then { o with prev := none } else { o with cur := o.prev, prev := none })).nvDone f 1

def execNvDelete (f : Nat) (s : State) : Outcome State Fault Refusal := .next (s.nvCmd f 2 (fun s => s.nvDeleteAct f))

/-- The tables are rebuilt: what waited for them goes on (R333, R443). -/
def execNvReady (s : State) : Outcome State Fault Refusal :=
  .next (if s.nvReady then s
    else
      let s := (s.setFld 0x200 17 1 1).bumpSeq 0x200
      ((List.range 256).foldl (fun s f =>
        if s.bit (page f 0x1214) 31 && !s.restores.any (fun x => x.f == f) then
          let s := s.setFld (page f 0x1214) 31 1 0
          if s.fld (page f 0x1214) 0 2 = 0 then s.nvQueryAct f
          else if s.fld (page f 0x1214) 0 2 = 1 then s.nvRestoreAct f
          else s.nvDeleteAct f
        else s) s).settle)

/-! ## The sweep of the store (R279, R280, R286) -/

/-- The packet of a source and PSN that is inside the node is discarded, its cells freed (R280). -/
def State.dropTransit (s : State) (psn : Word) (src : BitVec 20) : State :=
  let p := fun (x : InPkt) => x.pkt.hdr.psn == psn && x.pkt.hdr.src == src
  match s.routeQ.find? p, s.localIn.find? p, s.heldEsc.find? p with
  | some x, _, _ => ({ s with routeQ := s.routeQ.erase x } : State).freePkt x
  | _, some x, _ => ({ s with localIn := s.localIn.erase x } : State).freePkt x
  | _, _, some x => ({ s with heldEsc := s.heldEsc.erase x } : State).freePkt x
  | _, _, _ => match (List.range 36).find? (fun q => (s.port q).egress.any p) with
    | none => s
    | some q => ((s.port q).egress.filter p).foldl (fun s x => s.freePkt x) (s.modPort q (fun y => { y with egress := y.egress.filter (fun x => !p x) }))

/-- A retained copy whose packet its acknowledgement has not freed (R280). -/
def State.kept (s : State) (node psn : Nat) : Option Retained := (s.path node).retained.find? (fun x => x.pkt.hdr.psn.toNat == psn)

/-- The copy of a PUT packet is rebuilt: its part of the instruction's source is read again (R142, R280). -/
def State.rebuildPut (s : State) (node : Nat) (x : Retained) : State :=
  match x.rid.bind s.run? with
  | none => s
  | some r => match r.bufs.head? with
    | none => s
    | some (o, _, _) =>
      let t : Ticket := .rebuild node x.pkt.hdr.psn
      let s := s.modPath node (fun p => { p with retained := p.retained.map (fun y => if y.pkt.hdr.psn = x.pkt.hdr.psn then { y with missing := x.len } else y) })
      let d := s.readOpnd (s.runFunc r) (s.runPasid r) (o.part x.off x.len) t
      if d.2.1 = 0 then d.2.2.ticketData t 0 d.1 else d.2.2

/-- What an uncorrectable cell does, by what it holds (R280): a copy that its acknowledgement has freed needs nothing. -/
def State.cellLost (s : State) (use : CellUse) : State :=
  match use with
  | .transit psn src => (s.dropTransit psn src).count 0x220010
  | .retainedPut node psn => (s.kept node psn).elim s (fun x => (s.rebuildPut node x).settle)
  | .retainedOther node psn both => if (s.kept node psn).isNone then s else if both then s.bindOff 2 else s.count 0x220018
  | .retainedGetResponse node psn =>
    (s.modPath node (fun p => { p with
      retained := p.retained.filter (fun x => match x.pkt.body with | .response r => r.rpsn.toNat != psn | _ => true) })).forgetPsn node (BitVec.ofNat 32 psn)
  | .retainedColl comm cseq chunk =>
    match s.xfers.find? (fun x => x.comm == comm && x.cseq.toNat == cseq && x.chunk == chunk) with
    | some x => (s.loseChunk comm x.cseq x.op chunk x.kin none).settle
    | none => s
  | .parked src psn =>
    ({ s with parkedReqs := s.parkedReqs.filter (fun p => !(p.hdr.src.toNat == src && p.hdr.psn.toNat == psn)) } : State).forgetPsn src (BitVec.ofNat 32 psn)
  | .context both => if both then s.bindOff 2 else s.count 0x220030
  | .heldRecord => s
  | .window line => { s with winPoison := if s.winPoison.contains line then s.winPoison else s.winPoison ++ [line] }

def execStoreSweep (found : CellFinding) (s : State) : Outcome State Fault Refusal :=
  .next (match found with
    | .clean => s
    | .corrected => s.count 0x220000
    | .uncorrectable use => (s.count 0x220008).cellLost use)

/-! ## The scrub of pooled memory (R290, R291) -/

/-- The last line of pooled memory ends a pass. -/
def lastLine : Nat := 0xC000000000 - 64

/-- The committed journal whose protected or parity units hold an offset (R291). -/
def State.protectedBy (s : State) (off : Nat) : Option Journal :=
  s.journals.find? (fun j => j.committed && !(j.touched off 64).isEmpty)

/-- An undo copy that a restore in progress needs lies at an offset: its unit is rebuilt from parity by the end of the restore, with the contents that
the copy had (R332). -/
def State.undoNeeded (s : State) (off : Nat) : Bool :=
  s.journals.any (fun j => j.st == .restoring && j.saved.any (fun u => decide (j.undo u < off + 64) && decide (off < j.undo u + UNIT)))

/-- A lost line waits to be rebuilt (R291). -/
def State.loseLine (s : State) (off : Nat) : State :=
  if s.lostLines.contains off then s else { s with lostLines := s.lostLines ++ [off] }

def execPoolScrub (off : Nat) (found : LineFinding) (s : State) : Outcome State Fault Refusal :=
  let s := if off = lastLine then s.count 0x220050 else s
  .next (match found with
    | .clean => s
    | .corrected => s.count 0x220040
    | .uncorrectable =>
      let s := s.count 0x220048
      match s.protectedBy off with
      | some j => (match s.comm j.comm with
        | some c => ((s.loseLine (off / 64 * 64)).frogCause c.job 3 j.comm none).settle
        | none => s)
      | none => if s.undoNeeded off then s else s.bindOff 3)

end Sys2Proof.Machine
end

