-- ==== Sys2Proof/Machine/Regs.lean ====
section
/-! DEFINITION. Reads and writes of the register space: access types, sequence clearing, bit aliases, snapshots, freezes, and the registers that start
something (R5, R94, R397, R408 to R420, R442, R453). -/

namespace Sys2Proof.Machine

open Host (Outcome)

/-! ## Counters as they are read (R416 to R419) -/

/-- A counter lies at address a (R422 to R424). -/
def isCounter (a : Nat) : Bool :=
  let o := a % 0x10000
  match a / 0x10000 with
  | 0x20 => decide (o < 0x48) || (decide (0x100 ≤ o) && decide (o < 0x160))
  | 0x21 => decide (o < 0x2400) && (decide (o % 0x100 < 0x70) || decide (0x80 ≤ o % 0x100))
  | 0x22 => decide (o < 0x60)
  | 0x23 => decide (o < 0x70)
  | 0x24 => decide (o < 0x68) || (decide (0x100 ≤ o) && decide (o < 0x200) && decide (o % 0x40 < 0x28))
  | 0x25 => decide (o < 0x68)
  | 0x26 => decide (o < 0x80)
  | 0x27 => decide (o < 0x600)
  | w => decide (0x40 ≤ w) && decide (w < 0x80)
      && (let p := a % 0x4000; (decide (0x2000 ≤ p) && decide (p < 0x2040)) || (decide (0x2080 ≤ p) && decide (p < 0x20C0)))

/-- The readable value of the counter at a (a multiple of 8): held by a freeze (R419). -/
def State.liveCounter (s : State) (a : Nat) : DWord := Tab.get (fun _ => 0) (s.frozen.elim s.ev (·.ev)) a

/-- Bucket i of the queue that HIST_SEL of function f names; 0 where there is none (R418, R420). -/
def State.liveBucket (s : State) (f i : Nat) : DWord :=
  match s.globalQ f (s.fld (page f 0x1704) 0 14) with
  | none => 0
  | some g =>
    if !(s.queue g).created then 0
    else Tab.get (fun _ => 0) (match s.frozen with | some z => ((z.hist.find? (fun x => x.1 == g)).map (·.2)).getD [] | none => (s.queue g).hist) i

/-- A capture of function f covers the counter at a (R418). -/
def snapCovers (f a : Nat) : Bool := (f == 0 && decide (0x200000 ≤ a) && decide (a < 0x300000)) || (decide (page f 0 ≤ a) && decide (a < page f 0x4000))

/-- The holding copies that a capture of function f takes: counters and the buckets of the histogram window. -/
def State.capture (s : State) (f : Nat) : Tab DWord :=
  (List.range 32).foldl (fun t i => Tab.put (fun _ => 0) t (page f (0x1800 + 8 * i)) (s.liveBucket f i))
    ((s.frozen.elim s.ev (·.ev)).filter (fun e => snapCovers f e.1))

def execCntSnap (f : Nat) (s : State) : Outcome State Fault Refusal :=
  .next (({ s with snaps := Tab.put (fun _ => []) s.snaps f (s.capture f) } : State).setFld (page f 0x1700) 8 8 (s.fld (page f 0x1700) 8 8 + 1))

/-- FREEZE is written: 1 holds every readable value, 0 releases them (R419, R410 EXPIRED). -/
def execCntFreeze (on : Bool) (s : State) : Outcome State Fault Refusal :=
  .next (if on then
      let s := (s.setFld 0x120 0 1 1).setFld 0x120 1 1 0
      if s.frozen.isSome then s
      else { s with frozen := some { ev := s.ev, hist := (s.queues.filter (fun q => q.2.created)).map (fun q => (q.1, q.2.hist)) } }
    else { s.setFld 0x120 0 1 0 with frozen := none })

/-- A freeze has lasted 1 s (R419). -/
def execFreezeExpire (s : State) : Outcome State Fault Refusal :=
  .next (if s.bit 0x120 0 then { (s.setFld 0x120 0 1 0).setFld 0x120 1 1 1 with frozen := none } else s)

/-! ## Reads (R5, R409, R417) -/

/-- Half of a 64-bit value, by bit 2 of the address. -/
def half (a : Nat) (v : DWord) : Word := v.extractLsb' (if a % 8 = 4 then 32 else 0) 32

/-- Values that the node computes or that manufacture set (R296, R340, R410, R447). -/
def State.view (s : State) (a : Nat) : Option Word :=
  if a = 0x4 then some (Config.stepping.setWidth 32)
  else if a = 0x8 ∨ a = 0xC then some (half a Config.serial)
  else if a = 0x20 ∨ a = 0x24 then some (half a (BitVec.ofNat 64 s.time))
  else if a = 0x400 ∨ a = 0x404 then some (half a (Config.macAddress.setWidth 64))
  else if a = 0x180008 then
    some (BitVec.ofNat 32 (min 65535 (s.mediaTotal / rawBytes) + min 65535 (s.mediaTotal * 1000 / ratedBytes) * 2 ^ 16))
  else if 0x150080 ≤ a ∧ a < 0x1500A8 ∧ a % 4 = 0 then some (BitVec.ofNat 32 (s.cells ((a - 0x150080) / 4)))
  else if a = 0x1500A8 then some (BitVec.ofNat 32 s.sharedFree)
  else none

/-- The key-slot registers of another function's page (R397). -/
def foreignKeys (f a : Nat) : Bool :=
  decide (0x400000 ≤ a) && decide (a < 0x800000) && decide (0x1300 ≤ a % 0x4000) && decide (a % 0x4000 < 0x1350) && (a - 0x400000) / 0x4000 != f

/-- A BAR0 word that is no alias, as function f reads it. RWS fields read as they are staged; WO and RSV bits read 0. -/
def State.readWord (s : State) (f a : Nat) : Word :=
  if foreignKeys f a then 0
  else if isCounter a then
    half a (if s.bit (page f 0x1700) 0 then Tab.get (fun _ => 0) (Tab.get (fun _ => []) s.snaps f) (a / 8 * 8) else s.liveCounter (a / 8 * 8))
  else if 0x400000 ≤ a ∧ a < 0x800000 ∧ 0x1800 ≤ a % 0x4000 ∧ a % 0x4000 < 0x1900 then
    let g := (a - 0x400000) / 0x4000
    half a (if s.bit (page f 0x1700) 0 then Tab.get (fun _ => 0) (Tab.get (fun _ => []) s.snaps f) (a / 8 * 8)
      else s.liveBucket g ((a % 0x4000 - 0x1800) / 8))
  else match s.view a with
    | some v => v
    | none =>
      let w := (Tab.get (fun _ => none) s.staged a).getD (s.reg a)
      (s.reg a &&& accMask (fun x => x != .rws && x != .wo) a) ||| (w &&& rwsMask a)

/-- The register and the bit behind an alias word (R414). -/
def State.aliasOf (s : State) (addr : Nat) : Option (Nat × Nat) :=
  let i := (addr - 0x800000) / 4
  if i / 32 % 4 = 0 then some (0x100000 + 0x10000 * s.fld 0x110 0 4 + i / 32, i % 32) else none

/-- A BAR0 word as function f reads it. -/
def State.readReg (s : State) (f a : Nat) : Word :=
  if 0x800000 ≤ a then (match s.aliasOf a with
    | some (r, b) => if (s.readWord f r).getLsbD b then 1 else 0
    | none => 0)
  else s.readWord f a

/-! ## Sequence clearing (R94, R411) -/

/-- The bits that writing SEQ back clears, by the address (or page offset) of a status register. With RESULT go PORT, FUNC, REGION or INDEX,
which only a result names (DEDUCED; log entry 22). -/
def seqOffset (o : Nat) : Option Word :=
  if o = 0x1044 ∨ o = 0x1128 ∨ o = 0x1150 ∨ o = 0x1218 ∨ o = 0x1068 ∨ o = 0x1344 then some (bitMask 8 4)
  else if o = 0x109C then some (bitMask 8 2)
  else if 0x1400 ≤ o ∧ o < 0x1600 ∧ o % 0x40 = 0x28 then some (bitMask 10 2 ||| bitMask 13 1)
  else if o = 0x191C then some (bitMask 8 10)
  else if o = 0x1A00 then some (bitMask 9 3)
  else none

def seqClear (a : Nat) : Option Word :=
  if 0x400000 ≤ a ∧ a < 0x800000 then seqOffset (a % 0x4000)
  else if a = 0x108 then some (bitMask 8 8)
  else if a = 0x8018 then some (bitMask 8 4)
  else if a = 0x11000C then some (bitMask 8 9)
  else if a = 0x150058 then some (bitMask 8 8)
  else if a = 0x1B4000 then some (bitMask 8 12)
  else if a = 0x1A0044 then some (bitMask 8 6)
  else if 0x140000 ≤ a ∧ a < 0x140900 ∧ a % 0x40 = 8 then some (bitMask 15 4)
  else if a = 0x190000 then some (bitMask 18 4)
  else if 0x191000 ≤ a ∧ a < 0x193000 ∧ a % 0x20 = 0x14 then some (bitMask 8 1)
  else if a = 0x410 then some (bitMask 10 2)
  else if a = 0x200 ∨ a = 0x604 ∨ a = 0x170004 then some 0
  else none

/-- A reserved bit among the bits m that is written as 1 is counted (R409). -/
def State.noteReserved (s : State) (a : Nat) (v m : Word) : State :=
  if v &&& m &&& ~~~ accMask (fun _ => true) a = 0 then s else s.count 0x200010

/-- A write of SEQ: the fields clear only where it equals SEQ. -/
def State.seqWrite (s : State) (a : Nat) (v : Word) : State :=
  match seqClear a with
  | none => s
  | some m => if extractBits v 0 8 = s.fld a 0 8 then s.setReg a (s.reg a &&& ~~~ m) else s

/-- Function f reaches address a: the physical function all of BAR0, a virtual function its page (R408). -/
def reaches (f a : Nat) : Bool := f == 0 || (decide (page f 0 ≤ a) && decide (a < page f 0x4000))

def execStatusSeqWrite (f addr : Nat) (v : Word) (s : State) : Outcome State Fault Refusal :=
  .next (if reaches f addr then (s.noteReserved addr v (BitVec.allOnes 32)).seqWrite addr v else s)

/-! ## Writes that start something in the global and block-control ranges -/

/-- The reset code (R442). -/
def rstCode : Word := 0xC01D5E70

/-- RST_CTL: the code from the physical function starts a cold reset; anything else is ignored and counted (R442). -/
def execRstCtl (f : Nat) (code : BitVec 32) (s : State) : Outcome State Fault Refusal :=
  .next (if f = 0 ∧ code = rstCode then s.coldReset .register { slotA := true, slotB := true } else s.count 0x200010)

/-- MGT_KEY as bytes. -/
def State.mgtKeyBytes (s : State) : List Byte := (List.range 8).flatMap (fun i => leBytes 4 (s.reg (0x500 + 4 * i)).toNat)

/-- LOAD keeps MGT_KEY as the management key and clears the registers (R451, R453). -/
def execMgtKeyLoad (s : State) : Outcome State Fault Refusal :=
  let t : State := { s with mgt := { s.mgt with key := some s.mgtKeyBytes } }
  .next (((List.range 8).foldl (fun t i => t.setReg (0x500 + 4 * i) 0) t).setFld 0x410 12 1 1)

def execMgtKeyErase (s : State) : Outcome State Fault Refusal :=
  .next (({ s with mgt := { s.mgt with key := none } } : State).setFld 0x410 12 1 0)

/-! ## One write (R5, R409) -/

/-- The word that a write of the bits m of v makes of a word. -/
def merge (w v m : Word) : Word := (w &&& ~~~ m) ||| (v &&& m)

/-- A write without a behaviour of its own: RW and WO bits are written, RWS bits staged, RO bits left; a reserved bit written as 1 is counted. -/
def State.plainWrite (s : State) (a : Nat) (v m : Word) : State :=
  let s := s.noteReserved a v m
  let s : State := if m &&& rwsMask a = 0 then s else
    { s with staged := Tab.put (fun _ => none) s.staged a (some (merge ((Tab.get (fun _ => none) s.staged a).getD (s.reg a)) v (m &&& rwsMask a))) }
  s.setReg a (merge (s.reg a) v (m &&& accMask (fun x => x == .rw || x == .wo) a))

/-- A plain write in which the bits prot may not change: where they would, they are left and the write is counted at c. -/
def State.guardedWrite (s : State) (a : Nat) (v m prot : Word) (c : Nat) : State :=
  if (merge (s.reg a) v m ^^^ s.reg a) &&& prot = 0 then s.plainWrite a v m else (s.plainWrite a v (m &&& ~~~ prot)).count c

/-- Bit b is written, as 1. -/
def sets (v m : Word) (b : Nat) : Bool := v.getLsbD b && m.getLsbD b

/-- A command register of function f: ignored and counted while GO reads 1; with GO written as 1 the command of its OP runs. -/
def State.commandWrite (s : State) (f a : Nat) (v m : Word) (k : State → State) : State :=
  if s.bit a 31 then s.count (page f 0x2010)
  else
    let s := s.plainWrite a v m
    if sets v m 31 then k s else s

/-- The ring of a queue to be created can be reached, as far as this node knows. -/
def State.ringsReach (s : State) (f : Nat) : Bool :=
  let d := s.queueDesc f
  s.hostReach f || (qRingSp d == 1 && qCringSp d == 1)

def State.queueGo (s : State) (f : Nat) (s' : State) : State :=
  let q := s'.fld (page f 0x1040) 0 14
  match s'.fld (page f 0x1040) 16 3 with
  | 0 => s'.after (execQueueQuery f q s')
  | 1 => s'.after (execQueueCreate f q (s.ringsReach f) s')
  | 2 => s'.after (execQueueModify f q s')
  | 3 => s'.after (execQueueDestroy f q s')
  | _ => s'.queueDone f 8

def State.keyGo (s : State) (f : Nat) : State :=
  match s.fld (page f 0x1124) 0 3 with
  | 0 => s.after (execKeyQuery f s)
  | 1 => s.after (execKeyRegister f s)
  | 2 => s.after (execKeyRevoke f s)
  | 3 => s.after (execKeyRelease f s)
  | _ => s.keyDone f 8 0

def State.jobGo (s : State) (f : Nat) : State :=
  match s.fld (page f 0x1140) 24 2 with
  | 0 => s.after (execJobFrog f s)
  | 1 => s.after (execJobSetStep f s)
  | _ => s.jobDone f 5

def State.nvGo (s : State) (f : Nat) : State :=
  match s.fld (page f 0x1214) 0 2 with
  | 0 => s.after (execNvQuery f s)
  | 1 => s.after (execNvRestore f s)
  | 2 => s.after (execNvDelete f s)
  | _ => s.nvDone f 5

def State.keyslotGo (s : State) (f : Nat) : State :=
  match s.fld (page f 0x1340) 16 2 with
  | 0 => s.after (execKeyslotQuery f s)
  | 1 => s.after (execKeyslotLoad f s)
  | 2 => s.after (execKeyslotClear f s)
  | _ => s.keyslotDone f 5 0

/-- Writes of monitor registers (R386): o is the offset within the monitor. -/
def State.monWrite (s : State) (f mon o a : Nat) (v m : Word) : State :=
  let idle := s.fld (monReg f mon 0x28) 8 2 == 0
  if o = 0 then
    let w := merge (s.reg a) v (m &&& accMask (fun _ => true) a)
    if !idle && (w ^^^ s.reg a) &&& ~~~ 1 != 0 then s.count 0x250040
    else
      let t := s.plainWrite a v (m &&& ~~~ 1)
      if !m.getLsbD 0 then t
      else if v.getLsbD 0 && !t.monCtlOk f mon then s.count 0x250040
      else t.after (execMonEnable f mon (v.getLsbD 0) t)
  else if !idle then s.count 0x250040
  else
    let t := s.plainWrite a v m
    if o = 0x20 ∨ o = 0x24 then t.setFld (monReg f mon 0x28) 12 1 1 else t

/-- A write to SAMPLE_CTL or FAULTQ_CTL: while ENABLE is 1, SP and SIZE may not change; a write of ENABLE as 1 with an SP that bad names is ignored
and counted (R383, R425). -/
def State.recCtlWrite (s : State) (f a : Nat) (v m : Word) (bad : Word → Bool) (enable : Bool → State → State) : State :=
  if sets v m 0 && bad (if s.bit a 0 then s.reg a else merge (s.reg a) v m) then s.count (page f 0x2010)
  else
    let t := if s.bit a 0 then s.guardedWrite a v (m &&& ~~~ 1) (bitMask 1 6) (page f 0x2010) else s.plainWrite a v (m &&& ~~~ 1)
    if m.getLsbD 0 then enable (v.getLsbD 0) t else t

/-- The command register that an operand register of a page is read with, as one set (R343, R382, R395). -/
def setOf (o : Nat) : Option Nat :=
  if o = 0x1148 ∨ o = 0x114C then some 0x1140
  else if 0x1200 ≤ o ∧ o < 0x1214 then some 0x1214
  else if 0x1300 ≤ o ∧ o < 0x1340 then some 0x1340
  else if o = 0x1064 then some 0x1060
  else none

/-- A write to an operand register is ignored and counted while its command's GO reads 1. -/
def State.operandWrite (s : State) (f o a : Nat) (v m : Word) : State :=
  if (setOf o).elim false (fun c => s.bit (page f c) 31) then s.count (page f 0x2010) else s.plainWrite a v m

/-- Writes in function page f at offset o (R94 to R96, R125, R323, R343, R382, R383, R386, R395, R418, R425). -/
def State.pageWrite (s : State) (f o a : Nat) (v m : Word) : State :=
  if o = 0x1040 then s.commandWrite f a v m (s.queueGo f)
  else if o = 0x1060 then s.commandWrite f a v m (fun t => t.after (execQueueSched f t))
  else if o = 0x1124 then s.commandWrite f a v m (fun t => t.keyGo f)
  else if o = 0x1140 then s.commandWrite f a v m (fun t => t.jobGo f)
  else if o = 0x1214 then s.commandWrite f a v m (fun t => t.nvGo f)
  else if o = 0x1340 then s.commandWrite f a v m (fun t => t.keyslotGo f)
  else if 0x1400 ≤ o ∧ o < 0x1600 then s.monWrite f ((o - 0x1400) / 0x40) (o % 0x40) a v m
  else if o = 0x108C then s.recCtlWrite f a v m (fun w => decide (1 < extractBits w 1 2)) (fun on t => t.after (execSampleEnable f on t))
  else if o = 0x1080 ∨ o = 0x1084 ∨ o = 0x1088 ∨ o = 0x1090 then
    if s.bit (page f 0x108C) 0 then s.count (page f 0x2010) else s.plainWrite a v m
  else if o = 0x1700 then
    let t := s.plainWrite a v m
    if sets v m 1 then t.after (execCntSnap f t) else t
  else if o = 0x190C then
    s.recCtlWrite f a v m (fun w => extractBits w 1 2 == 3 || (extractBits w 1 2 == 2 && f != 0)) (fun on t => t.after (execFaultqEnable f on t))
  else if o = 0x1900 ∨ o = 0x1904 ∨ o = 0x1908 ∨ o = 0x1910 then
    if s.bit (page f 0x190C) 0 then s.count (page f 0x2010) else s.plainWrite a v m
  else if o = 0x1918 then
    let t := s.plainWrite a v m
    t.setFunc f { t.func f with irqSent := false }
  else s.operandWrite f o a v m

/-- SEC_CMD through its register: what UPDATE would read from host memory does not come with the write, and counts as a failed read. -/
def State.secGo (s : State) : State :=
  match s.fld 0x8014 0 4 with
  | 0 => s.after (execAttest true s)
  | 1 => s.after (execCerts true s)
  | 2 => s.after (execExtend (BitVec.ofNat 3 (s.fld 0x8014 4 3)) s)
  | 3 => s.after (execUpdate [] false s)
  | 4 => s.after (execAdvanceSvn s)
  | _ => s.setResult 0x8018 6

/-- PORT_LINK_CTL of port p (R275). -/
def State.portCtl (s : State) (p a : Nat) (v m : Word) : State :=
  let t := s.plainWrite a v (m &&& ~~~ (bitMask 0 1 ||| bitMask 5 1))
  let t := if m.getLsbD 0 && v.getLsbD 0 != s.bit a 0 then t.after (execPortLinkEnable p (v.getLsbD 0) t) else t
  let t := if m.getLsbD 5 && v.getLsbD 5 != s.bit a 5 then t.after (execPortHoldDown p (v.getLsbD 5) t) else t
  let t := if sets v m 1 then t.after (execPortRetrain p t) else t
  if sets v m 2 then t.after (execPortSwatch p t) else t

/-- HOST_DLOG_CTL of function f (R357). -/
def State.dlogCtl (s : State) (f a : Nat) (v m : Word) : State :=
  let keep := bitMask 4 2
  let t := if s.bit a 4 then s.guardedWrite a v (m &&& ~~~ keep) (bitMask 0 4) 0x200010 else s.plainWrite a v (m &&& ~~~ keep)
  let t := if m.getLsbD 4 && v.getLsbD 4 != s.bit a 4 then t.after (execHostDlogEnable f (v.getLsbD 4) t) else t
  let t := if m.getLsbD 5 && v.getLsbD 5 != s.bit a 5 then t.after (execHostDlogPause f (v.getLsbD 5) t) else t
  if sets v m 6 then t.after (execHostDlogRound f t) else t

/-- Writes outside the function pages. -/
def State.globalWrite (s : State) (a : Nat) (v m : Word) : State :=
  let w := merge 0 v m
  let n := s.noteReserved a v m
  if a = 0x104 then
    if w.getLsbD 16 then n.after (execGlobalDiscard (w.extractLsb' 0 16) n) else n.after (execGlobalCommit (w.extractLsb' 0 16) n)
  else if a = 0x120 then (if m.getLsbD 0 then n.after (execCntFreeze (v.getLsbD 0) n) else n)
  else if a = 0x204 then s.after (execRstCtl 0 w s)
  else if a = 0x520 then
    let t := if sets v m 0 then n.after (execMgtKeyLoad n) else n
    if sets v m 1 then t.after (execMgtKeyErase t) else t
  else if a = 0x600 then
    let t := s.plainWrite a v m
    t.setReg a (clampField (clampField (t.reg a) 0 10 300 600) 10 6 8 63)
  else if a = 0x8014 then
    if s.bit a 31 then s.count 0x250058
    else
      let t := s.plainWrite a v m
      if sets v m 31 then t.secGo else t
  else if 0x140000 ≤ a ∧ a < 0x140900 ∧ a % 0x40 = 0 then s.portCtl ((a - 0x140000) / 0x40) a v m
  else if a = 0x170008 then s.after (execFailRetire 0 w s)
  else if a = 0x190008 then (if sets v m 0 then n.after (execHostWinFlush n) else n)
  else if 0x191000 ≤ a ∧ a < 0x193000 ∧ a % 0x20 = 8 then s.dlogCtl ((a - 0x191000) / 0x20) a v m
  else if 0x191000 ≤ a ∧ a < 0x193000 ∧ a % 0x20 < 8 then
    if s.bit (a / 0x20 * 0x20 + 8) 4 then s.count 0x200010 else s.plainWrite a v m
  else if a = 0x1B4010 then
    let t := s.plainWrite a v m
    if sets v m 31 then t.after (execFuncResetCmd (t.fld a 0 8) t) else t
  else s.plainWrite a v m

/-- A write of the bits m of v at a word address below the alias range, by function f (R5, R397, R408, R409). -/
def State.wordWrite (s : State) (f a : Nat) (v m : Word) : State :=
  if !reaches f a then s
  else if foreignKeys f a then s.count 0x250048
  else if (regFields a).isEmpty then (if isCounter a then s else s.count 0x200010)
  else if (seqClear a).isSome then (s.noteReserved a v m).seqWrite a (merge (s.reg a) v m)
  else if 0x400000 ≤ a ∧ a < 0x800000 then s.pageWrite ((a - 0x400000) / 0x4000) (a % 0x4000) a v m
  else s.globalWrite a v m

/-- A write to an alias word: bit 0 of v goes to the one bit, under its type; a reserved bit is counted (R414, R415). -/
def State.aliasWrite (s : State) (addr : Nat) (v : Word) : State :=
  match s.aliasOf addr with
  | none => s.count 0x200010
  | some (a, b) =>
    if (accMask (fun _ => true) a).getLsbD b then s.wordWrite 0 a (if v.getLsbD 0 then bitMask b 1 else 0) (bitMask b 1) else s.count 0x200010

/-- Where REGISTER_WRITE's addresses of BAR2 begin: BAR0 has 16 MiB before them (R100, R107, R408; log entry 63). -/
def bar2Base : Nat := 0x1000000

/-- A 4 B write by function f, of BAR0, or of BAR2 from bar2Base on (R100, R107, R347, R408). -/
def State.regWrite (s : State) (f a : Nat) (v : Word) : State :=
  if bar2Base ≤ a then s.bar2Write f (a - bar2Base) v
  else if a % 4 ≠ 0 then s.count 0x240060
  else if 0x800000 ≤ a ∧ f = 0 then s.aliasWrite a v
  else s.wordWrite f a v (BitVec.allOnes 32)

def execAliasWrite (addr : Nat) (v : Word) (s : State) : Outcome State Fault Refusal :=
  .next (if 0x800000 ≤ addr ∧ addr < 0x1000000 ∧ addr % 4 = 0 then s.aliasWrite addr v else s.count 0x240060)

def execRegisterWrite (f addr : Nat) (v : Word) (s : State) : Outcome State Fault Refusal := .next (s.regWrite f addr v)

end Sys2Proof.Machine
end

