-- ==== Sys2Proof/Machine/Mgmt.lean ====
section
/-! DEFINITION. The management port: frames, requests and their answers, PLCA and CSMA/CD, STANDBY and the wake filters (R447 to R453, R457). -/

namespace Sys2Proof.Machine

open Host (Outcome)

/-! ## Transmission (R448) -/

/-- The PLCA fields of the cycle in progress (R448): bits from pos on. -/
def State.plca (s : State) (pos width : Nat) : Nat := extractBits s.mgt.plca pos width

/-- The port transmits in its own opportunities: PLCA with a node id, and not fallen back. -/
def State.plcaOn (s : State) : Bool := s.plca 0 1 == 1 && s.plca 1 8 != 255 && !s.bit 0x410 9

/-- A frame goes onto the segment. -/
def State.frameOut (s : State) (bs : List Byte) : State := (s.emit (.mgmt bs)).count 0x200108

/-- A frame to be sent: it waits for the next opportunity, or goes at once under CSMA/CD. -/
def State.sendFrame (s : State) (bs : List Byte) : State :=
  if s.plcaOn then { s with mgt := { s.mgt with tx := s.mgt.tx ++ [bs] } }
  else ({ s with mgt := { s.mgt with wire := some (bs, 1) } } : State).frameOut bs

/-- The port's transmit opportunity: one frame, and MAX_BC more. -/
def State.opportunity (s : State) : State :=
  let n := 1 + s.plca 25 4
  (s.mgt.tx.take n).foldl (fun s b => s.frameOut b) { s with mgt := { s.mgt with tx := s.mgt.tx.drop n } }

/-- A PLCA cycle starts: changed fields take effect, the coordinator sends the beacon, a follower receives it and returns from fall-back. Where the fields
end PLCA, the frames that wait go under CSMA/CD. -/
def execPlcaCycle (s : State) : Outcome State Fault Refusal :=
  .next (if s.pwr.state != .active then s
    else if !s.bit 0x408 0 || s.fld 0x408 1 8 == 255 then
      let s : State := (({ s with mgt := { s.mgt with plca := s.reg 0x408 } } : State).setFld 0x410 8 1 0).setFld 0x410 9 1 0
      s.mgt.tx.foldl (fun s b => s.sendFrame b) { s with mgt := { s.mgt with tx := [] } }
    else
      let s : State := { s with mgt := { s.mgt with plca := s.reg 0x408 } }
      let s := if s.fld 0x408 1 8 = 0 then s.emit (.beacon (s.fld 0x408 9 8)) else s
      ((s.setFld 0x410 8 1 1).setFld 0x410 9 1 0).opportunity)

/-- A follower receives no beacon: it falls back to CSMA/CD, and its waiting frames go. -/
def execPlcaFallback (s : State) : Outcome State Fault Refusal :=
  .next (if s.pwr.state != .active || !s.plcaOn || s.plca 1 8 == 0 then s
    else
      let s := ((((s.setFld 0x410 8 1 0).setFld 0x410 9 1 1).bumpSeq 0x410).count 0x200128)
      s.mgt.tx.foldl (fun s b => s.sendFrame b) { s with mgt := { s.mgt with tx := [] } })

/-- A collision: the frame is tried again, and abandoned after 16 attempts. -/
def execCsmaCdCollision (s : State) : Outcome State Fault Refusal :=
  .next (match s.mgt.wire with
    | none => s
    | some (b, n) =>
      if n < 16 then ({ s with mgt := { s.mgt with wire := some (b, n + 1) } } : State).emit (.mgmt b)
      else ({ s with mgt := { s.mgt with wire := none } } : State).count 0x200120)

/-! ## Requests (R449 to R451) -/

/-- Bytes 0 to 15 of a frame's payload. -/
def mgmtHead (version : BitVec 16) (op flags : Nat) (ctr : DWord) (blen status : Nat) : List Byte :=
  leBytes 2 version.toNat ++ [BitVec.ofNat 8 op, BitVec.ofNat 8 flags] ++ leBytes 8 ctr.toNat ++ leBytes 2 blen ++ [BitVec.ofNat 8 status, 0]

/-- MAC_TAG over some bytes. -/
def mgmtTag (key bs : List Byte) : List Byte := kmac256 key bs 32 (ascii "QN4096MGT")

/-- The response to a request. -/
def State.responseBytes (s : State) (op : Nat) (ctr : DWord) (status : Nat) (body : List Byte) (keyed : Bool) : List Byte :=
  let b := mgmtHead 1 op 1 ctr body.length status ++ body
  b ++ (match s.mgt.key with
    | some k => if keyed then mgmtTag k b else List.replicate 32 0
    | none => List.replicate 32 0)

/-- The tag is right and CTR is above the last accepted one. -/
def State.authentic (s : State) (op : Nat) (m : MgmtReq) : Bool :=
  match s.mgt.key with
  | none => false
  | some k => m.tag == mgmtTag k (mgmtHead m.version op m.flags.toNat m.ctr m.body.length 0 ++ m.body) && decide (s.mgt.ctr < m.ctr.toNat)

/-- A request that needs a key fails: discarded unanswered. -/
def State.authFails (s : State) : State := ((s.setFld 0x410 11 1 1).bumpSeq 0x410).count 0x200130

/-- Serves a request: broadcasts only for IDENT, the key, then the form; k answers its STATUS, body and state. Nothing is served in STANDBY or OFF. -/
def State.serve (s : State) (op : Nat) (m : MgmtReq) (keyed : Bool) (k : State → Nat × List Byte × State) : State :=
  if s.pwr.state ≠ .active then s
  else if m.broadcast ∧ op ≠ 1 then s.count 0x200138
  else
    let s := s.count 0x200100
    if keyed && !s.authentic op m then s.authFails
    else
      let s : State := if keyed then { s with mgt := { s.mgt with ctr := m.ctr.toNat } } else s
      let r := if m.version ≠ 1 ∨ m.flags ≠ 0 ∨ 1452 < m.body.length then (1, [], s) else k s
      r.2.2.sendFrame (r.2.2.responseBytes op m.ctr r.1 r.2.1 keyed)

/-- A number of four bytes of the body at offset o. -/
def bodyNat (m : MgmtReq) (o : Nat) : Nat := leNat ((m.body.drop o).take 4)

/-- GLOBAL_ID, GLOBAL_SERIAL, MGT_MAC, RST_STATUS, ROUTE_SELF.NODE and the three FW_VERSION values, as their registers read (R451). -/
def State.identBody (s : State) : List Byte :=
  [0x0, 0x4, 0x8, 0xC, 0x400, 0x404, 0x200].flatMap (fun a => leBytes 4 (s.readWord 0 a).toNat) ++ leBytes 4 s.self
    ++ [0x10, 0x14, 0x18].flatMap (fun a => leBytes 4 (s.readWord 0 a).toNat)

def execIdent (m : MgmtReq) (s : State) : Outcome State Fault Refusal :=
  .next (s.serve 1 m false (fun s => if m.body.isEmpty then (0, s.identBody, s) else (1, [], s)))

/-- n words from a BAR0 offset lie in BAR0. -/
def bar0Ok (a n : Nat) : Bool := a % 4 == 0 && decide (a + 4 * n ≤ 0x1000000)

def execRegRead (m : MgmtReq) (s : State) : Outcome State Fault Refusal :=
  .next (s.serve 2 m true (fun s =>
    let a := bodyNat m 0
    let n := bodyNat m 4
    if m.body.length ≠ 8 ∨ n = 0 ∨ 256 < n then (1, [], s)
    else if !bar0Ok a n then (3, [], s)
    else (0, (List.range n).flatMap (fun i => leBytes 4 (s.readReg 0 (a + 4 * i)).toNat), s)))

/-- REG_WRITE acts as writes of the physical function, in ascending address. -/
def execRegWrite (m : MgmtReq) (s : State) : Outcome State Fault Refusal :=
  .next (s.serve 3 m true (fun s =>
    let a := bodyNat m 0
    let n := bodyNat m 4
    if n = 0 ∨ 256 < n ∨ m.body.length ≠ 8 + 4 * n then (1, [], s)
    else if !bar0Ok a n then (3, [], s)
    else (0, [], (List.range n).foldl (fun s i => s.regWrite 0 (a + 4 * i) (BitVec.ofNat 32 (bodyNat m (8 + 4 * i)))) s)))

/-! ## The security buffer (R451) -/

/-- 64 MiB + 8 KiB. -/
def bufSize : Nat := 2 ^ 26 + 2 ^ 13

/-- What is left of open ranges after a write of n bytes at o. -/
def closeRange (o n : Nat) (rs : List (Nat × Nat)) : List (Nat × Nat) :=
  (rs.flatMap (fun r => [(r.1, min r.2 (o - r.1)), (max r.1 (o + n), r.1 + r.2 - max r.1 (o + n))])).filter (fun r => r.2 != 0)

/-- Writes bytes of the buffer; opens says that a command wrote them that anyone may read. -/
def State.bufPut (s : State) (o : Nat) (bs : List Byte) (opens : Bool) : State :=
  { s with mgt := { s.mgt with
      buf := Tab.putAll (fun _ => 0) s.mgt.buf o bs
      open_ := closeRange o bs.length s.mgt.open_ ++ (if opens && !bs.isEmpty then [(o, bs.length)] else []) } }

/-- Every byte of a range was last written by an ATTEST or CERTS. -/
def State.isOpen (s : State) (o n : Nat) : Bool :=
  (List.range n).all (fun i => s.mgt.open_.any (fun r => decide (r.1 ≤ o + i) && decide (o + i < r.1 + r.2)))

def execBufWrite (m : MgmtReq) (s : State) : Outcome State Fault Refusal :=
  .next (s.serve 4 m true (fun s =>
    let o := bodyNat m 0
    if m.body.length < 4 ∨ 1028 < m.body.length then (1, [], s)
    else if bufSize < o + (m.body.length - 4) then (3, [], s)
    else (0, [], s.bufPut o (m.body.drop 4) false)))

/-- BUF_READ needs no key where every byte was last written by an ATTEST or CERTS. -/
def execBufRead (m : MgmtReq) (s : State) : Outcome State Fault Refusal :=
  let o := bodyNat m 0
  let n := bodyNat m 4
  let form := m.body.length == 8 && decide (0 < n) && decide (n ≤ 1024)
  .next (s.serve 5 m (!(form && s.isOpen o n)) (fun s =>
    if !form then (1, [], s)
    else if bufSize < o + n then (3, [], s)
    else (0, Tab.getAll (fun _ => 0) s.mgt.buf o n, s)))

/-- A security command on the buffer: OP and MR, SEC_ARG, offset and length (R406, R451). -/
def State.secPort (s : State) (op mr : Nat) (arg : List Byte) (o n : Nat) : Nat × List Byte × State :=
  match op with
  | 0 => s.secAttest arg n true
  | 1 => s.secCerts n true
  | 2 => s.secExtend mr arg
  | 3 => s.secUpdate (Tab.getAll (fun _ => 0) s.mgt.buf o n) true
  | 4 => s.secAdvance
  | _ => (6, [], s)

/-- SEC: ATTEST and CERTS need no key. -/
def execSec (m : MgmtReq) (s : State) : Outcome State Fault Refusal :=
  let op := (m.body.getD 0 0).toNat
  let o := bodyNat m 66
  let n := bodyNat m 70
  .next (s.serve 6 m (!(op == 0 || op == 1)) (fun s =>
    if m.body.length ≠ 74 then (1, [], s)
    else if bufSize < o + n then (3, [], s)
    else
      let r := s.secPort op (m.body.getD 1 0).toNat ((m.body.drop 2).take 64) o n
      (0, leBytes 1 r.1, if r.2.1.isEmpty then r.2.2 else r.2.2.bufPut o r.2.1 true)))

/-! ## POWER, STANDBY and waking (R451, R452, R457) -/

/-- STANDBY: everything but the power controller, boot flash and the wake logic loses its supply. -/
def State.standby (s : State) : State :=
  ({ s.coldState with
    sec := { s.sec with attSeed := [], attCert := [], udsLocked := false }
    mgt := { State.reset.mgt with key := s.mgt.key, ctr := s.mgt.ctr }
    pwr := { State.reset.pwr with state := .standby, present := s.pwr.present, straps := s.pwr.straps } } : State).keepFilters s
    |>.setReg 0x18000C (s.reg 0x18000C)

/-- POWER names its state in one byte. -/
def powerForm (m : MgmtReq) (v : Byte) : Bool := m.body == [v]

def execPowerActive (m : MgmtReq) (s : State) : Outcome State Fault Refusal :=
  .next (s.serve 7 m true (fun s => if powerForm m 0 then (0, [], s) else (1, [], s)))

/-- STANDBY is allowed up to HOST_READY and after bind-off. -/
def State.mayStandby (s : State) : Bool := decide (s.fld 0x200 8 4 ≤ 2) || s.fld 0x200 8 4 == 6

/-- What a POWER command does once it has been answered: the node was active and the request was served with STATUS OK. -/
def State.powerServed (s : State) (m : MgmtReq) (v : Byte) : Bool :=
  s.pwr.state == .active && !m.broadcast && s.authentic 7 m && m.version == 1 && m.flags == 0 && powerForm m v

def execPowerStandby (m : MgmtReq) (s : State) : Outcome State Fault Refusal :=
  let t := s.serve 7 m true (fun s => if !powerForm m 1 then (1, [], s) else if s.mayStandby then (0, [], s) else (2, [], s))
  .next (if s.powerServed m 1 && s.mayStandby then
      (t.mgt.tx.foldl (fun t b => t.frameOut b) t).standby
    else t)

def execPowerColdReset (m : MgmtReq) (boot : FlashRead) (s : State) : Outcome State Fault Refusal :=
  let t := s.serve 7 m true (fun s => if powerForm m 2 then (0, [], s) else (1, [], s))
  .next (if s.powerServed m 2 then (t.mgt.tx.foldl (fun t b => t.frameOut b) t).coldReset .mgtCommand boot else t)

/-- The CRC-32 of IEEE 802.3. -/
def crc32ieee (bs : List Byte) : BitVec 32 := crcRun (0xEDB88320 : BitVec 32) 0xFFFFFFFF bs ^^^ 0xFFFFFFFF

/-- Wake filter i matches a frame (R452). -/
def State.wakeMatches (s : State) (i : Nat) (frame : List Byte) : Bool :=
  let b := 0x420 + 0x20 * i
  let sel := (List.range 128).filter (fun j => (s.reg (b + j / 32 * 4)).getLsbD (j % 32))
  s.bit (b + 0x14) 0 && sel.all (fun j => decide (j < frame.length)) && crc32ieee (sel.map (fun j => frame.getD j 0)) == s.reg (b + 0x10)

/-- In STANDBY a frame that matches a filter starts a cold reset with cause WAKE. -/
def execWakeMatch (frame : List Byte) (boot : FlashRead) (s : State) : Outcome State Fault Refusal :=
  .next (if s.pwr.state == .standby && (List.range 8).any (fun i => s.wakeMatches i frame) then s.coldReset .wake boot else s)

/-- A frame that carries no valid command (R447, R449, R450). -/
def execManagementFrame (f : BadFrame) (s : State) : Outcome State Fault Refusal :=
  .next (if s.pwr.state != .active then s
    else match f with
      | .tooLong => s.count 0x200138
      | .wrongAddress => s.count 0x200138
      | .wrongEtherType => s.count 0x200138
      | .badFcs => s.count 0x200118
      | .noBuffer => ((s.setFld 0x410 10 1 1).bumpSeq 0x410).count 0x200110
      | .badRequest op ctr =>
        let s := s.count 0x200100
        s.sendFrame (s.responseBytes op.toNat ctr 1 [] false))

end Sys2Proof.Machine
end

