-- ==== Sys2Proof/Machine/Pliok.lean ====
section
/-! DEFINITION. The meanings of the data-movement, atomic, queue-control and CHECK instructions: the queue's next instruction starts (R44, R50). -/

namespace Sys2Proof.Machine

open Host (Outcome)

def execNop (g : Nat) (s : State) : Outcome State Fault Refusal := .next (s.startOp g 0x00 State.nopReasons always State.startNop).settle
def execPut (g : Nat) (s : State) : Outcome State Fault Refusal := .next (s.startOp g 0x10 State.moveReasons always State.startPut).settle
def execPuti (g : Nat) (s : State) : Outcome State Fault Refusal := .next (s.startOp g 0x11 State.putiReasons always State.startPuti).settle
def execGet (g : Nat) (s : State) : Outcome State Fault Refusal := .next (s.startOp g 0x12 State.moveReasons always State.startGet).settle
def execCopy (g : Nat) (s : State) : Outcome State Fault Refusal := .next (s.startOp g 0x13 State.copyReasons always State.startCopy).settle
def execFlush (g : Nat) (s : State) : Outcome State Fault Refusal := .next (s.startOp g 0x14 State.flushReasons always State.startFlush).settle
def execFadd (g : Nat) (s : State) : Outcome State Fault Refusal :=
  .next (s.startOp g 0x18 (State.atomicReasons false) always (fun s r => s.startAtomic r false)).settle
def execCas (g : Nat) (s : State) : Outcome State Fault Refusal :=
  .next (s.startOp g 0x19 (State.atomicReasons true) always (fun s r => s.startAtomic r true)).settle
def execWait (g : Nat) (s : State) : Outcome State Fault Refusal := .next (s.startOp g 0x20 State.waitReasons always State.startWait).settle
def execSignal (g : Nat) (s : State) : Outcome State Fault Refusal := .next (s.startOp g 0x21 State.signalReasons always State.startSignal).settle
def execMark (g : Nat) (s : State) : Outcome State Fault Refusal := .next (s.startOp g 0x22 State.markReasons always State.startMark).settle
def execFence (g : Nat) (s : State) : Outcome State Fault Refusal :=
  .next (s.startOp g 0x23 State.fenceReasons (fun s i => fenceReady s g i) State.startFence).settle
def execCheck (g : Nat) (s : State) : Outcome State Fault Refusal := .next (s.startOp g 0x49 State.checkReasons always State.startCheck).settle

/-- REPEAT starts with the body that was accepted with it (R64, R110). -/
def execRepeat (g : Nat) (s : State) : Outcome State Fault Refusal :=
  let body := ((s.queue g).held.head?).elim [] (fun a => a.body)
  .next (s.startOp g 0x28 (State.repeatReasons body) always (fun s r => s.startRepeat r body)).settle

end Sys2Proof.Machine
end

