-- ==== Sys2Proof/Machine/Power.lean ====
section
/-! DEFINITION. The power controller: throttling, shutdown limits, presence, and the test reset (R439, R455 to R461, R469). -/

namespace Sys2Proof.Machine

open Host (Outcome)

/-! ## Throttling (R459, R461) -/

/-- THROTTLE: the step. -/
def State.throttle (s : State) : Nat := s.fld 0x208 10 4

/-- over of R459, its power and its thermal part. -/
def State.overPower (s : State) (x : Sensors) : Bool := decide (s.fld 0x600 0 10 < x.pin)
def overThermal (x : Sensors) : Bool := decide (100 ≤ x.tj) || decide (95 ≤ x.lp)

/-- under of R459. -/
def State.under (s : State) (x : Sensors) : Bool :=
  decide (x.pin + s.fld 0x600 10 6 < s.fld 0x600 0 10) && decide (x.tj < 95) && decide (x.lp < 90)

/-- PWR_MEAS and THERM_STATUS show the sensors. -/
def State.showSensors (s : State) (x : Sensors) : State :=
  (((((s.setFld 0x608 0 16 x.vin).setFld 0x608 16 16 x.pin).setFld 0x60C 0 8 x.tj).setFld 0x60C 8 8 x.lp).setFld 0x60C 16 8 x.nand).setFld 0x60C 24 8 x.coolOut

/-- A step change: THROTTLE, CAUSE and SEQ. -/
def State.setThrottle (s : State) (step cause : Nat) : State :=
  ((s.setFld 0x208 10 4 step).setFld 0x604 8 2 cause).bumpSeq 0x604

/-- The evaluation of R459. CAUSE of a step down that leaves a step above 0 stays as it is. -/
def execThrottleEval (x : Sensors) (s : State) : Outcome State Fault Refusal :=
  let s := s.showSensors x
  let s := if s.throttle > 0 then s.count 0x200158 100 else s
  let s : State := { s with pwr := { s.pwr with nandPaused := if 80 ≤ x.nand then true else if x.nand < 75 then false else s.pwr.nandPaused } }
  let p := s.overPower x
  let t := overThermal x
  .next (if (p || t) && decide (s.throttle < 3) && x.riseOk then
      let u := s.setThrottle (s.throttle + 1) ((if p then 1 else 0) + (if t then 2 else 0))
      let u := if p then u.count 0x200148 else u
      if t then u.count 0x200150 else u
    else if s.under x && x.underHeld && decide (0 < s.throttle) then
      s.setThrottle (s.throttle - 1) (if s.throttle = 1 then 0 else s.fld 0x604 8 2)
    else s)

/-- ALERT_N is asserted (R469): a PLL unlocked, bound off, RECOVERY, or a throttle step above 0. -/
def State.alertN (s : State) : Bool := s.fld 0x208 0 10 != 0x3FF || s.boundOff || s.fld 0x200 8 4 == 5 || decide (0 < s.throttle)

/-! ## Shutdown limits and presence (R456, R457, R460) -/

/-- The node loses its power: nothing but what R439 keeps survives. -/
def State.powerOff (s : State) : State :=
  { s.coldState with
    sec := { s.sec with attSeed := [], attCert := [], udsLocked := false }
    mgt := { State.reset.mgt with key := s.mgt.key, ctr := s.mgt.ctr }
    pwr := { State.reset.pwr with state := .off, present := s.pwr.present, latched := s.pwr.offDue || s.pwr.latched, straps := s.pwr.straps }
    regs := Tab.put regReset [] 0x18000C (s.reg 0x18000C) }

/-- An environment limit on an active node: bind-off with cause ENVIRONMENT; off says that the regulators follow in 200 µs. -/
def State.envLimit (s : State) (off : Bool) : State :=
  if s.pwr.state ≠ .active then s
  else
    let s := s.bindOff 4
    if off then { s with pwr := { s.pwr with offDue := true } } else s

def execVinOvervoltage (s : State) : Outcome State Fault Refusal := .next (s.envLimit true)
def execOverTemperature (_what : HotPart) (s : State) : Outcome State Fault Refusal := .next (s.envLimit true)
def execPowerOverlimit (s : State) : Outcome State Fault Refusal := .next (s.envLimit true)

/-- VIN below 42 V: an active node binds off; the regulators fall with the input, and the node is OFF (R457, R460). -/
def execVinUndervoltage (s : State) : Outcome State Fault Refusal := .next ((s.envLimit false).powerOff)

/-- PRSNT_N breaks: an active node binds off (R456). -/
def execPrsntBreak (s : State) : Outcome State Fault Refusal :=
  let t := s.envLimit false
  .next { t with pwr := { t.pwr with present := false } }

/-- 200 µs after such a bind-off the regulators are off, until PW is removed and inserted or NODE_RESET_N is asserted (R460). -/
def execRegulatorsOff (s : State) : Outcome State Fault Refusal := .next (if s.pwr.offDue then s.powerOff else s)

/-- PRSNT_N has stayed made for 50 ms: soft-start may begin, and the shutdown is over (R456, R460). -/
def execPrsntNMade (s : State) : Outcome State Fault Refusal :=
  .next (if s.pwr.present then s else { s with pwr := { s.pwr with present := true, latched := false } })

/-- VIN above 46 V starts a cold reset from OFF (R455, R457). -/
def execPowerOn (boot : FlashRead) (s : State) : Outcome State Fault Refusal :=
  .next (if s.pwr.state == .off && s.pwr.present && !s.pwr.latched then s.coldReset .powerOn boot else s)

/-- TRST_N or Test-Logic-Reset: the TAP controller alone (R439). -/
def execTestReset (s : State) : Outcome State Fault Refusal := .next { s with pwr := { s.pwr with tap := 0 } }

end Sys2Proof.Machine
end

