-- ==== Sys2Proof/Machine/Dispatch.lean ====
section
/-! DEFINITION. One arm per command: its meaning, or its refusal by name. -/

namespace Sys2Proof.Machine

/-- The effect of a command on everything but the queue of commands. -/
def exec (i : Instr) (s : State) : Host.Outcome State Fault Refusal :=
  match i with
  | .nop g => Sys2Proof.Machine.execNop g s
  | .put g => Sys2Proof.Machine.execPut g s
  | .puti g => Sys2Proof.Machine.execPuti g s
  | .get g => Sys2Proof.Machine.execGet g s
  | .copy g => Sys2Proof.Machine.execCopy g s
  | .flush g => Sys2Proof.Machine.execFlush g s
  | .fadd g => Sys2Proof.Machine.execFadd g s
  | .cas g => Sys2Proof.Machine.execCas g s
  | .wait g => Sys2Proof.Machine.execWait g s
  | .signal g => Sys2Proof.Machine.execSignal g s
  | .mark g => Sys2Proof.Machine.execMark g s
  | .fence g => Sys2Proof.Machine.execFence g s
  | .repeat_ g => Sys2Proof.Machine.execRepeat g s
  | .rdsc g => Sys2Proof.Machine.execRdsc g s
  | .agth g => Sys2Proof.Machine.execAgth g s
  | .ared g => Sys2Proof.Machine.execAred g s
  | .a2a g => Sys2Proof.Machine.execA2a g s
  | .a2av g => Sys2Proof.Machine.execA2av g s
  | .disp g => Sys2Proof.Machine.execDisp g s
  | .comb g => Sys2Proof.Machine.execComb g s
  | .rug g => Sys2Proof.Machine.execRug g s
  | .snap g => Sys2Proof.Machine.execSnap g s
  | .pers g => Sys2Proof.Machine.execPers g s
  | .digest g => Sys2Proof.Machine.execDigest g s
  | .check g => Sys2Proof.Machine.execCheck g s
  | .tag g upset => Sys2Proof.Machine.execTag g upset s
  | .uprog g => Sys2Proof.Machine.execUprog g s
  | .commCreate g => Sys2Proof.Machine.execCommCreate g s
  | .commReplace g => Sys2Proof.Machine.execCommReplace g s
  | .commDestroy g => Sys2Proof.Machine.execCommDestroy g s
  | .queueQuery f q => Sys2Proof.Machine.execQueueQuery f q s
  | .queueCreate f q reachable => Sys2Proof.Machine.execQueueCreate f q reachable s
  | .queueModify f q => Sys2Proof.Machine.execQueueModify f q s
  | .queueDestroy f q => Sys2Proof.Machine.execQueueDestroy f q s
  | .dbPi f q pi => Sys2Proof.Machine.execDbPi f q pi s
  | .dbCci f q cci => Sys2Proof.Machine.execDbCci f q cci s
  | .entryFetch g r => Sys2Proof.Machine.execEntryFetch g r s
  | .ownReread g r => Sys2Proof.Machine.execOwnReread g r s
  | .staleEntry g => Sys2Proof.Machine.execStaleEntry g s
  | .ringRetry g completion r => Sys2Proof.Machine.execRingRetry g completion r s
  | .cringStall g => Sys2Proof.Machine.execCringStall g s
  | .cntWrite f c part v => Sys2Proof.Machine.execCntWrite f c part v s
  | .cntAdd f c part v => Sys2Proof.Machine.execCntAdd f c part v s
  | .cntSeterr f c v => Sys2Proof.Machine.execCntSeterr f c v s
  | .cntClrerr f c v => Sys2Proof.Machine.execCntClrerr f c v s
  | .flr f => Sys2Proof.Machine.execFlr f s
  | .vfEnableClear => Sys2Proof.Machine.execVfEnableClear s
  | .d3hotToD0 f => Sys2Proof.Machine.execD3hotToD0 f s
  | .cxlReset => Sys2Proof.Machine.execCxlReset s
  | .hostLinkDown ev => Sys2Proof.Machine.execHostLinkDown ev s
  | .hostRetrain rateChange rate width => Sys2Proof.Machine.execHostRetrain rateChange rate width s
  | .busMasterClear f => Sys2Proof.Machine.execBusMasterClear f s
  | .funcResetCmd f => Sys2Proof.Machine.execFuncResetCmd f s
  | .funcResetEnd f => Sys2Proof.Machine.execFuncResetEnd f s
  | .keyQuery f => Sys2Proof.Machine.execKeyQuery f s
  | .keyRegister f => Sys2Proof.Machine.execKeyRegister f s
  | .keyRevoke f => Sys2Proof.Machine.execKeyRevoke f s
  | .keyRelease f => Sys2Proof.Machine.execKeyRelease f s
  | .keyDrained index => Sys2Proof.Machine.execKeyDrained index s
  | .request h r payload => Sys2Proof.Machine.execRequest h r payload s
  | .response h r payload => Sys2Proof.Machine.execResponse h r payload s
  | .placementAnswer src psn => Sys2Proof.Machine.execPlacementAnswer src psn s
  | .contextFetchDone src psn => Sys2Proof.Machine.execContextFetchDone src psn s
  | .deliveryAck h a => Sys2Proof.Machine.execDeliveryAck h a s
  | .ackTimer node => Sys2Proof.Machine.execAckTimer node s
  | .e2eRetransmit node psn => Sys2Proof.Machine.execE2eRetransmit node psn s
  | .e2eRespAbandon node psn => Sys2Proof.Machine.execE2eRespAbandon node psn s
  | .packetRoute => Sys2Proof.Machine.execPacketRoute s
  | .escapeTimeout p => Sys2Proof.Machine.execEscapeTimeout p s
  | .linkDownNotice p h n => Sys2Proof.Machine.execLinkDownNotice p h n s
  | .linkUpNotice p h n => Sys2Proof.Machine.execLinkUpNotice p h n s
  | .linkReannounce => Sys2Proof.Machine.execLinkReannounce s
  | .gaugeUpdate node => Sys2Proof.Machine.execGaugeUpdate node s
  | .gaugeIdle node => Sys2Proof.Machine.execGaugeIdle node s
  | .telemetrySample stall => Sys2Proof.Machine.execTelemetrySample stall s
  | .codewordRx p cw => Sys2Proof.Machine.execCodewordRx p cw s
  | .lockLost p => Sys2Proof.Machine.execLockLost p s
  | .errorRate p => Sys2Proof.Machine.execErrorRate p s
  | .laneLos p lanes => Sys2Proof.Machine.execLaneLos p lanes s
  | .fastRetrainEnd p => Sys2Proof.Machine.execFastRetrainEnd p s
  | .credit p es => Sys2Proof.Machine.execCredit p es s
  | .creditReportTimer p => Sys2Proof.Machine.execCreditReportTimer p s
  | .audit p cls usedA0 usedA1 usedE => Sys2Proof.Machine.execAudit p cls usedA0 usedA1 usedE s
  | .auditSend p => Sys2Proof.Machine.execAuditSend p s
  | .keepalive p k => Sys2Proof.Machine.execKeepalive p k s
  | .keepaliveSend p => Sys2Proof.Machine.execKeepaliveSend p s
  | .keepaliveTimeout p => Sys2Proof.Machine.execKeepaliveTimeout p s
  | .bindOffSymbol p node cause => Sys2Proof.Machine.execBindOffSymbol p node cause s
  | .abort p => Sys2Proof.Machine.execAbort p s
  | .tsIdent p x => Sys2Proof.Machine.execTsIdent p x s
  | .tsCredit p cls a0 a1 e => Sys2Proof.Machine.execTsCredit p cls a0 a1 e s
  | .tsSwatch p msg lanePass duration => Sys2Proof.Machine.execTsSwatch p msg lanePass duration s
  | .tsReady p => Sys2Proof.Machine.execTsReady p s
  | .trainStateDone found => Sys2Proof.Machine.execTrainStateDone found s
  | .trainTimeout p => Sys2Proof.Machine.execTrainTimeout p s
  | .trainRetry p => Sys2Proof.Machine.execTrainRetry p s
  | .swatchPhase p lanePass => Sys2Proof.Machine.execSwatchPhase p lanePass s
  | .portLinkEnable p on => Sys2Proof.Machine.execPortLinkEnable p on s
  | .portRetrain p => Sys2Proof.Machine.execPortRetrain p s
  | .portSwatch p => Sys2Proof.Machine.execPortSwatch p s
  | .portHoldDown p on => Sys2Proof.Machine.execPortHoldDown p on s
  | .contrib h c payload => Sys2Proof.Machine.execContrib h c payload s
  | .result h c payload => Sys2Proof.Machine.execResult h c payload s
  | .data h c payload => Sys2Proof.Machine.execData h c payload s
  | .count h c payload => Sys2Proof.Machine.execCount h c payload s
  | .grant h c payload => Sys2Proof.Machine.execGrant h c payload s
  | .resendReq h c => Sys2Proof.Machine.execResendReq h c s
  | .acceptAck h c => Sys2Proof.Machine.execAcceptAck h c s
  | .nak h c => Sys2Proof.Machine.execNak h c s
  | .resultAck h c => Sys2Proof.Machine.execResultAck h c s
  | .notReady h c => Sys2Proof.Machine.execNotReady h c s
  | .notReadyRetry comm node => Sys2Proof.Machine.execNotReadyRetry comm node s
  | .handleTimeout comm node => Sys2Proof.Machine.execHandleTimeout comm node s
  | .chunkLoss p h c => Sys2Proof.Machine.execChunkLoss p h c s
  | .slotGrant => Sys2Proof.Machine.execSlotGrant s
  | .slotFinish slot => Sys2Proof.Machine.execSlotFinish slot s
  | .accountingSweep found => Sys2Proof.Machine.execAccountingSweep found s
  | .bindOffSquelch => Sys2Proof.Machine.execBindOffSquelch s
  | .deadConfirm x => Sys2Proof.Machine.execDeadConfirm x s
  | .deadNode p h n => Sys2Proof.Machine.execDeadNode p h n s
  | .rankClaim p h n => Sys2Proof.Machine.execRankClaim p h n s
  | .claimSettle job shard units => Sys2Proof.Machine.execClaimSettle job shard units s
  | .rankAbandoned comm rank => Sys2Proof.Machine.execRankAbandoned comm rank s
  | .frogRequest p h c => Sys2Proof.Machine.execFrogRequest p h c s
  | .frogVoteWait job => Sys2Proof.Machine.execFrogVoteWait job s
  | .frogRestoreDone job => Sys2Proof.Machine.execFrogRestoreDone job s
  | .unitSaveDone comm unit => Sys2Proof.Machine.execUnitSaveDone comm unit s
  | .darningRead h r => Sys2Proof.Machine.execDarningRead h r s
  | .darningDone job => Sys2Proof.Machine.execDarningDone job s
  | .persDurable obj => Sys2Proof.Machine.execPersDurable obj s
  | .governorTick now24hMedia now24hHost => Sys2Proof.Machine.execGovernorTick now24hMedia now24hHost s
  | .retentionScan block refresh => Sys2Proof.Machine.execRetentionScan block refresh s
  | .nandBlockFail block page availGib => Sys2Proof.Machine.execNandBlockFail block page availGib s
  | .jobFrog f => Sys2Proof.Machine.execJobFrog f s
  | .jobSetStep f => Sys2Proof.Machine.execJobSetStep f s
  | .nvQuery f => Sys2Proof.Machine.execNvQuery f s
  | .nvRestore f => Sys2Proof.Machine.execNvRestore f s
  | .nvDelete f => Sys2Proof.Machine.execNvDelete f s
  | .failRetire f code => Sys2Proof.Machine.execFailRetire f code s
  | .storeSweep found => Sys2Proof.Machine.execStoreSweep found s
  | .poolScrub off found => Sys2Proof.Machine.execPoolScrub off found s
  | .translationAnswer f pasid page ans => Sys2Proof.Machine.execTranslationAnswer f pasid page ans s
  | .prgResponse f pasid page code => Sys2Proof.Machine.execPrgResponse f pasid page code s
  | .priTimeout f pasid page => Sys2Proof.Machine.execPriTimeout f pasid page s
  | .atsInvalidate f pasid page log2 itag => Sys2Proof.Machine.execAtsInvalidate f pasid page log2 itag s
  | .hostReadError tag why => Sys2Proof.Machine.execHostReadError tag why s
  | .windowRead line => Sys2Proof.Machine.execWindowRead line s
  | .windowWrite line bytes => Sys2Proof.Machine.execWindowWrite line bytes s
  | .birsp line dirty => Sys2Proof.Machine.execBirsp line dirty s
  | .hostWinFlush => Sys2Proof.Machine.execHostWinFlush s
  | .hostDlogEnable f on => Sys2Proof.Machine.execHostDlogEnable f on s
  | .hostDlogRound f => Sys2Proof.Machine.execHostDlogRound f s
  | .hostDlogPause f on => Sys2Proof.Machine.execHostDlogPause f on s
  | .placeRsp a tag status => Sys2Proof.Machine.execPlaceRsp a tag status s
  | .ardData a tag roff bytes status => Sys2Proof.Machine.execArdData a tag roff bytes status s
  | .aatomRsp a tag old status => Sys2Proof.Machine.execAatomRsp a tag old status s
  | .doorbell a q slotOff v => Sys2Proof.Machine.execDoorbell a q slotOff v s
  | .counter a cnt op v => Sys2Proof.Machine.execCounter a cnt op v s
  | .cntRd a tag cnt => Sys2Proof.Machine.execCntRd a tag cnt s
  | .lrd a tag addr len key => Sys2Proof.Machine.execLrd a tag addr len key s
  | .lwr a tag addr key payload => Sys2Proof.Machine.execLwr a tag addr key payload s
  | .latom a tag addr key cas size operand swap => Sys2Proof.Machine.execLatom a tag addr key cas size operand swap s
  | .attachRetransmit a psn => Sys2Proof.Machine.execAttachRetransmit a psn s
  | .accelLost a => Sys2Proof.Machine.execAccelLost a s
  | .queueSched f => Sys2Proof.Machine.execQueueSched f s
  | .sampleEnable f on => Sys2Proof.Machine.execSampleEnable f on s
  | .samplePeriod f => Sys2Proof.Machine.execSamplePeriod f s
  | .faultqEnable f on => Sys2Proof.Machine.execFaultqEnable f on s
  | .monEnable f m on => Sys2Proof.Machine.execMonEnable f m on s
  | .monDrainDone f m => Sys2Proof.Machine.execMonDrainDone f m s
  | .keyslotQuery f => Sys2Proof.Machine.execKeyslotQuery f s
  | .keyslotLoad f => Sys2Proof.Machine.execKeyslotLoad f s
  | .keyslotClear f => Sys2Proof.Machine.execKeyslotClear f s
  | .attest bufferOk => Sys2Proof.Machine.execAttest bufferOk s
  | .certs bufferOk => Sys2Proof.Machine.execCerts bufferOk s
  | .extend mr => Sys2Proof.Machine.execExtend mr s
  | .update image bufferOk => Sys2Proof.Machine.execUpdate image bufferOk s
  | .advanceSvn => Sys2Proof.Machine.execAdvanceSvn s
  | .globalCommit gen => Sys2Proof.Machine.execGlobalCommit gen s
  | .globalDiscard gen => Sys2Proof.Machine.execGlobalDiscard gen s
  | .aliasWrite addr v => Sys2Proof.Machine.execAliasWrite addr v s
  | .statusSeqWrite f addr v => Sys2Proof.Machine.execStatusSeqWrite f addr v s
  | .cntSnap f => Sys2Proof.Machine.execCntSnap f s
  | .cntFreeze on => Sys2Proof.Machine.execCntFreeze on s
  | .freezeExpire => Sys2Proof.Machine.execFreezeExpire s
  | .rstCtl f code => Sys2Proof.Machine.execRstCtl f code s
  | .mgtKeyLoad => Sys2Proof.Machine.execMgtKeyLoad s
  | .mgtKeyErase => Sys2Proof.Machine.execMgtKeyErase s
  | .registerWrite f addr v => Sys2Proof.Machine.execRegisterWrite f addr v s
  | .pllLockLoss lost => Sys2Proof.Machine.execPllLockLoss lost s
  | .coldReset cause boot => Sys2Proof.Machine.execColdReset cause boot s
  | .nodeResetN boot => Sys2Proof.Machine.execNodeResetN boot s
  | .poolReady => Sys2Proof.Machine.execPoolReady s
  | .nvReady => Sys2Proof.Machine.execNvReady s
  | .castOnSend => Sys2Proof.Machine.execCastOnSend s
  | .castOn p h n => Sys2Proof.Machine.execCastOn p h n s
  | .watchdogExpire => Sys2Proof.Machine.execWatchdogExpire s
  | .ident m => Sys2Proof.Machine.execIdent m s
  | .regRead m => Sys2Proof.Machine.execRegRead m s
  | .regWrite m => Sys2Proof.Machine.execRegWrite m s
  | .bufWrite m => Sys2Proof.Machine.execBufWrite m s
  | .bufRead m => Sys2Proof.Machine.execBufRead m s
  | .sec m => Sys2Proof.Machine.execSec m s
  | .powerActive m => Sys2Proof.Machine.execPowerActive m s
  | .powerStandby m => Sys2Proof.Machine.execPowerStandby m s
  | .powerColdReset m boot => Sys2Proof.Machine.execPowerColdReset m boot s
  | .wakeMatch frame boot => Sys2Proof.Machine.execWakeMatch frame boot s
  | .plcaFallback => Sys2Proof.Machine.execPlcaFallback s
  | .throttleEval x => Sys2Proof.Machine.execThrottleEval x s
  | .prsntBreak => Sys2Proof.Machine.execPrsntBreak s
  | .vinUndervoltage => Sys2Proof.Machine.execVinUndervoltage s
  | .vinOvervoltage => Sys2Proof.Machine.execVinOvervoltage s
  | .overTemperature what => Sys2Proof.Machine.execOverTemperature what s
  | .powerOverlimit => Sys2Proof.Machine.execPowerOverlimit s
  | .powerOn boot => Sys2Proof.Machine.execPowerOn boot s
  | .hostReadCompletion tag bytes => Sys2Proof.Machine.execHostReadCompletion tag bytes s
  | .hostLinkUp rate width => Sys2Proof.Machine.execHostLinkUp rate width s
  | .h2dSnoop addr => Sys2Proof.Machine.execH2dSnoop addr s
  | .busMasterEnableSet f => Sys2Proof.Machine.execBusMasterEnableSet f s
  | .hdmDecoderCommit => Sys2Proof.Machine.execHdmDecoderCommit s
  | .partnerSignalDetected p => Sys2Proof.Machine.execPartnerSignalDetected p s
  | .pllLockReturn die => Sys2Proof.Machine.execPllLockReturn die s
  | .tokenBucketRefill b bytes => Sys2Proof.Machine.execTokenBucketRefill b bytes s
  | .regulatorsOff => Sys2Proof.Machine.execRegulatorsOff s
  | .prsntNMade => Sys2Proof.Machine.execPrsntNMade s
  | .testReset => Sys2Proof.Machine.execTestReset s
  | .plcaCycle => Sys2Proof.Machine.execPlcaCycle s
  | .csmaCdCollision => Sys2Proof.Machine.execCsmaCdCollision s
  | .managementFrame f => Sys2Proof.Machine.execManagementFrame f s

end Sys2Proof.Machine
end

