-- ==== Sys2Proof/Safety.lean ====
section
/-! DEFINITION. What a safe state and a safe step are: the canonical forms of the tables, and a step that ends in a next state. -/

namespace Sys2Proof.Machine

/-- Pooled memory is in canonical form: offsets rising, no entry 0 (R287, R443). -/
def State.poolWf (s : State) : Bool := Tab.wf (fun _ => (0 : Byte)) s.pool

/-- The register file is in canonical form: addresses rising, no entry at its reset value (R408). -/
def State.regsWf (s : State) : Bool := Tab.wf regReset s.regs

/-- A step that ends in a next state, neither a fault nor a refusal. -/
def safeStep (s : State) : Prop := ∃ t, step s = .next t

/-- Both canonical forms. -/
abbrev State.canonical (s : State) : Prop := s.poolWf = true ∧ s.regsWf = true

/-! ## Words that the statements share -/

/-- t is s but for the registers at the addresses as and the event counters at the addresses cs. -/
def State.onlyRegs (s t : State) (as cs : List Nat) : Prop :=
  { t with regs := s.regs, ev := s.ev } = s ∧ (∀ b, b ∉ as → t.reg b = s.reg b) ∧ ∀ b, b ∉ cs → t.counter b = s.counter b

/-- Queue g may start its next instance now: entry i on pass iter, with opcode op, not consumed by a malformed REPEAT, its ORDER met
(R42, R44, R66, R106). -/
abbrev State.startable (s : State) (g : Nat) (op : BitVec 8) (i : Fetched) (iter : Nat) : Prop :=
  (s.queue g).nextInst = some (i, iter, false) ∧ entOpcode i.w = op ∧ s.mayStart g = true ∧ s.orderMet g i.w = true

/-- The next instance of queue g has left the queue and is started; what it does has not begun. -/
def State.started (s : State) (g : Nat) (i : Fetched) (iter : Nat) : State :=
  ((s.modQueue g Queue.popInst).addRun (s.newRun g i iter)).monStart (s.newRun g i iter)

/-- The same, with the start's 64 B charged (R378). -/
def State.charged (s : State) (g : Nat) (i : Fetched) (iter : Nat) : State := (s.started g i iter).chargeStart g

/-- A run with the program slot that its opcode names: RUG's, 0 for any other. -/
def State.collRun (s : State) (r : Run) : Run :=
  { r with slot := if entOpcode r.ins.w == 0x37 then (s.progSlot (s.ownerOf r.g) (rugSlot r.ins)).getD 0 else 0 }

/-- The entry that opens a collective of queue g is well formed, supported, on a communicator of the queue's function whose turn has come, and no
frog or lost rank stops it (R69, R72, R311, R322). -/
abbrev State.collOpens (s : State) (g : Nat) (op : BitVec 8) (i : Fetched) (iter : Nat) (x : Comm) : Prop :=
  s.startable g op i iter ∧ State.collReady g s i = true ∧ (s.started g i iter).coReasons ((s.started g i iter).collRun (s.newRun g i iter)) = []
    ∧ coUnsupported i.w op = false ∧ (s.charged g i iter).ownComm g (coComm i.w) = some x ∧ i.frogged = false
    ∧ (s.charged g i iter).jobAbandoned x.job = false

/-- From s to t the status register at a has taken RESULT v and its SEQ has advanced by one, modulo 256 (R94, R125, R411). -/
abbrev State.told (s t : State) (a v : Nat) : Prop := t.fld a 8 4 = v ∧ t.fld a 0 8 = (s.fld a 0 8 + 1) % 256

/-- A management request that the firmware serves: of the right form, and addressed to this node (R450). -/
abbrev MgmtReq.plain (m : MgmtReq) : Prop := m.version = 1 ∧ m.flags = 0 ∧ m.body.length ≤ 1452 ∧ m.broadcast = false

end Sys2Proof.Machine
end

