-- ==== Sys2Proof/Certificates/Slice0/Obligations.lean ====
section
/-! DEFINITION. The statements for the provers: what a step does, what every command completes with, and what every step keeps. -/


open Sys2Proof Sys2Proof.Machine
open Host (Outcome)

/-! ## The machine -/

/-- A step takes the command at the front of the queue and runs its meaning on the state with the queue's rest. -/
def Obligations.StepRunsFrontCommand : Prop :=
  ∀ (c : Instr) (rest : List Instr) (s : State), step { s with pending := c :: rest } = exec c { s with pending := rest }

/-- On an empty queue nothing changes but GLOBAL_TIME, which advances by 1 ns (the model's choice: log entry 3). -/
def Obligations.EmptyQueueIdles : Prop :=
  ∀ s : State, s.pending = [] → step s = .next { s with time := s.time + 1 }

/-- Right after reset every register reads as regReset gives it (the reset value of its table; where the spec states none, the model's, log entry 4),
every counter and row counter as 0 without ERR, pooled memory as 0; no queue exists, no key is valid, nothing runs or waits, no command is queued and
GLOBAL_TIME is 0. (R107, R408, R416, R439, R443) -/
def Obligations.ResetValues : Prop :=
  (∀ a, State.reset.reg a = regReset a) ∧ (∀ a, State.reset.counter a = 0) ∧ (∀ c, State.reset.rowc c = 0) ∧ (∀ o, State.reset.pbyte o = 0)
    ∧ (∀ g, (State.reset.queue g).created = false) ∧ (∀ i, (State.reset.key i).state = .free)
    ∧ State.reset.pending = [] ∧ State.reset.runs = [] ∧ State.reset.time = 0 ∧ State.reset.internal = none

/-- The state after reset is in canonical form. -/
def Obligations.ResetIsCanonical : Prop := State.reset.canonical

/-- Every step keeps pooled memory and the register file in canonical form. -/
def Obligations.StepKeepsCanonicalForm : Prop :=
  ∀ s t : State, s.canonical → step s = .next t → t.canonical

/-- A packet whose body fits its header's class and ACKPKT comes back whole from its 64 B header, at every value of every field, and the header
carries the CRC32C that its receivers check. -/
def Obligations.HeaderRoundTrip : Prop :=
  ∀ p : Packet, Machine.Body.fits p.hdr p.body = true →
    (headBytes p).length = 64 ∧ parseHdr (headBytes p) = p.hdr ∧ parseBody p.hdr (headBytes p) = some p.body ∧ crcOk (headBytes p) p.payload = true

/-- What is written to pooled memory reads back, and every byte outside the written range reads as before; an offset is told by its channel and the
address in it, and no channel is beyond the 32 of the eight packages. (R138, R287, R288) -/
def Obligations.PoolReadAfterWrite : Prop :=
  ∀ (s : State) (o : Nat) (bs : List Byte),
    (s.pwrite o bs).pread o bs.length = bs ∧ (∀ a, (a < o ∨ o + bs.length ≤ a) → (s.pwrite o bs).pbyte a = s.pbyte a)
    ∧ poolOffset (poolChannel o) (poolLocal o) = o ∧ poolChannel o < 32 ∧ poolPackage (poolChannel o) < 8

/-- A register reads what was last written to it, and a write to one address leaves every other register; a field write leaves the other bits. -/
def Obligations.RegisterReadAfterWrite : Prop :=
  ∀ (s : State) (a : Nat),
    (∀ v, (s.setReg a v).reg a = v ∧ ∀ b, b ≠ a → (s.setReg a v).reg b = s.reg b)
    ∧ ∀ lo w v, lo + w ≤ 32 → (s.setFld a lo w v).fld a lo w = v % 2 ^ w
        ∧ ∀ k, k < 32 → (k < lo ∨ lo + w ≤ k) → ((s.setFld a lo w v).reg a).getLsbD k = (s.reg a).getLsbD k

/-- FP32 square root: R205 case by case. -/
def Obligations.SquareRootCases : Prop :=
  ∀ a : Word,
    ((fval a = .nan) → (fsqrt a).1 = 0x7FC00000)
    ∧ (a = 0x00000000 → (fsqrt a).1 = 0x00000000) ∧ (a = 0x80000000 → (fsqrt a).1 = 0x80000000) ∧ (a = 0x7F800000 → (fsqrt a).1 = 0x7F800000)
    ∧ (a.getLsbD 31 = true → fval a ≠ .nan → a ≠ 0x80000000 → (fsqrt a).1 = 0x7FC00000 ∧ (fsqrt a).2.invalid = true)
    ∧ (a.getLsbD 31 = false → fval a ≠ .nan → a ≠ 0x00000000 → a ≠ 0x7F800000 → (fsqrt a).1 = (fmul a (frsqrt a).1).1)

/-- The integer operators on the 64-bit accumulator: SUM saturates and raises OVERFLOW, MAX and MIN compare as signed, XOR, AND and OR act bit by bit. -/
def Obligations.IntegerOperators : Prop :=
  ∀ a b : DWord,
    (-(2 : Int) ^ 63 ≤ a.toInt + b.toInt → a.toInt + b.toInt < 2 ^ 63 → (opElem true 0 a b).1 = a + b ∧ (opElem true 0 a b).2.overflow = false)
    ∧ (2 ^ 63 ≤ a.toInt + b.toInt → (opElem true 0 a b).1 = 0x7FFFFFFFFFFFFFFF ∧ (opElem true 0 a b).2.overflow = true)
    ∧ (a.toInt + b.toInt < -(2 : Int) ^ 63 → (opElem true 0 a b).1 = 0x8000000000000000 ∧ (opElem true 0 a b).2.overflow = true)
    ∧ (opElem true 1 a b).1.toInt = max a.toInt b.toInt ∧ (opElem true 2 a b).1.toInt = min a.toInt b.toInt
    ∧ (opElem true 3 a b).1 = a ^^^ b ∧ (opElem true 4 a b).1 = a &&& b ∧ (opElem true 5 a b).1 = a ||| b

/-! ## Instructions of a queue -/

/-- NOP, well formed, completes with OK, and so does a well-formed FENCE with KIND 0 once every earlier instruction of its queue has completed; one with
KIND 1 then asks every node whose writes it covers and that is not known to have placed them. (R44, R50, R63) -/
def Obligations.NopAndFenceComplete : Prop :=
  (∀ s g i iter, s.startable g 0x00 i iter →
    lowestDetail ((s.started g i iter).nopReasons (s.newRun g i iter)) = none →
    exec (.nop g) s = .next ((s.charged g i iter).completeWith (s.newRun g i iter) stOk).settle)
  ∧ (∀ s g i iter, s.startable g 0x23 i iter → (s.earlier g).isEmpty = true → entOpx i.w 0 1 = 0 →
    lowestDetail ((s.started g i iter).fenceReasons (s.newRun g i iter)) = none →
    exec (.fence g) s = .next ((s.charged g i iter).completeWith (s.newRun g i iter) stOk).settle)
  ∧ (∀ s g i iter, s.startable g 0x23 i iter → (s.earlier g).isEmpty = true → entOpx i.w 0 1 = 1 →
    lowestDetail ((s.started g i iter).fenceReasons (s.newRun g i iter)) = none →
    let v := s.charged g i iter
    let r := s.newRun g i iter
    exec (.fence g) s = .next ((v.unplacedNodes g).foldl (fun u n => u.askPlacement g (some r.rid) n)
      (v.setRun { r with phase := .requests, asks := v.unplacedNodes g, reached := v.unplacedNodes g })).settle)

/-- What a well-formed data-movement instruction with valid local keys does: PUT reads its source, COPY waits for the grants of its pieces and, once all
are granted, reads its source, GET names its destination and has its request packets to send, PUTI has one packet with its LEN bytes to send; PUT and
GET with LEN 0 complete with OK at once. -/
def Obligations.MovesStart : Prop :=
  ((∀ s g i iter, s.startable g 0x10 i iter →
    let u := s.started g i iter
    let r := s.newRun g i iter
    let o := moveOpnd i.w
    lowestDetail (u.moveReasons r) = none → o.len ≠ 0 → u.localFail (u.ownerOf g) [o] = none →
    let d := u.readOpnd (u.ownerOf g) (qPasid (u.queue g).desc) o (.run r.rid 0)
    exec (.put g) s = .next (d.2.2.setRun { r with phase := .reading, bufs := [(o, d.1, d.2.1)] }).settle)
  ∧ (∀ s g i iter, s.startable g 0x12 i iter →
    let u := s.started g i iter
    let r := s.newRun g i iter
    let o := moveOpnd i.w
    lowestDetail (u.moveReasons r) = none → o.len ≠ 0 → u.localFail (u.ownerOf g) [o] = none →
    exec (.get g) s = .next
      (u.setRun { r with bufs := [(o, List.replicate o.len 0, 0)], unsent := getPackets r (entQ1 i.w) (entW1 i.w) o.len }).settle)
  ∧ (∀ s g i iter, s.startable g 0x11 i iter →
    let u := s.started g i iter
    let r := s.newRun g i iter
    let n := entOpx i.w 0 7
    lowestDetail (u.putiReasons r) = none →
    exec (.puti g) s = .next
      (u.setRun { r with unsent := [onePacket (r.req 0x11 (entQ1 i.w) (entW1 i.w) 0) ((putiBytes i).take n) n] }).settle)
  ∧ (∀ s g i iter, s.startable g 0x13 i iter →
    let u := s.started g i iter
    let r := s.newRun g i iter
    let len := entBytes i.w 28 4
    lowestDetail (u.copyReasons r) = none → len ≠ 0 → u.localFail (u.ownerOf g) [copyDst i.w, copySrc i.w] = none →
    exec (.copy g) s = .next
      (u.setRun { r with phase := .granting, aux := 0, bufs := [(copySrc i.w, [], 0), (copyDst i.w, [], 0)] }).settle)
  ∧ (∀ (s : State) (r : Run), r.phase = .granting →
    let len := entBytes r.ins.w 28 4
    let n := min 4096 (len - r.aux)
    let d := s.readOpnd (s.ownerOf r.g) (qPasid (s.queue r.g).desc) (copySrc r.ins.w) (.run r.rid 0)
    (r.aux < len → s.bucketsAllow r.g (64 + n) = true →
      s.advanceMove r = some ((s.chargeGrant r.g (64 + n)).setRun { r with aux := r.aux + n }))
    ∧ (r.aux < len → s.bucketsAllow r.g (64 + n) = false → s.advanceMove r = none)
    ∧ (len ≤ r.aux → s.advanceMove r = some
      (d.2.2.setRun { r with phase := .reading, bufs := [(copySrc r.ins.w, d.1, d.2.1), (copyDst r.ins.w, [], 0)] }))))
  ∧ ((∀ s g i iter, s.startable g 0x10 i iter → lowestDetail ((s.started g i iter).moveReasons (s.newRun g i iter)) = none → (moveOpnd i.w).len = 0 →
    exec (.put g) s = .next ((s.charged g i iter).completeWith (s.newRun g i iter) stOk).settle)
  ∧ (∀ s g i iter, s.startable g 0x12 i iter → lowestDetail ((s.started g i iter).moveReasons (s.newRun g i iter)) = none → (moveOpnd i.w).len = 0 →
    exec (.get g) s = .next ((s.charged g i iter).completeWith (s.newRun g i iter) stOk).settle))

/-- FADD and CAS, well formed, have one request packet to send with their operands of 8 B each, with SIZE and FETCH as the entry has them. -/
def Obligations.AtomicsStart : Prop :=
  (∀ s g i iter, s.startable g 0x18 i iter →
    let u := s.started g i iter
    let r := s.newRun g i iter
    let size := entOpx i.w 0 1 == 1
    lowestDetail (State.atomicReasons false u r) = none →
    exec (.fadd g) s = .next (u.setRun { r with
      unsent := [onePacket { r.req 0x18 (entQ1 i.w) (entW1 i.w) 0 with size := size, fetch := entOpx i.w 1 1 == 1 }
        (leBytes 8 (ent64 i.w 16).toNat) (if size then 8 else 4)] }).settle)
  ∧ (∀ s g i iter, s.startable g 0x19 i iter →
    let u := s.started g i iter
    let r := s.newRun g i iter
    let size := entOpx i.w 0 1 == 1
    lowestDetail (State.atomicReasons true u r) = none →
    exec (.cas g) s = .next (u.setRun { r with
      unsent := [onePacket { r.req 0x19 (entQ1 i.w) (entW1 i.w) 0 with size := size, fetch := entOpx i.w 1 1 == 1 }
        (leBytes 8 (ent64 i.w 16).toNat ++ leBytes 8 (ent64 i.w 24).toNat) (if size then 8 else 4)] }).settle)

/-- A local SIGNAL without PLACED updates its counter and completes with the new word as RESULT; a remote one, and a MARK without PLACED, have one packet
to send; with PLACED they wait for the writes they cover first; WAIT waits on a granted counter; FLUSH waits for the writes it covers. A WAIT's condition holds exactly when COUNT has reached
VALUE and the counter carries no ERR mark or PASS_ERR is set; whether the mark is set is told beside it. (R56, R60, R61, R62, R109) -/
def Obligations.SignalsMarksAndWaitsStart : Prop :=
  ((∀ s g i iter, s.startable g 0x21 i iter → raForm (entQ1 i.w) = 3 → i.w.getLsbD 192 = false →
    let u := s.started g i iter
    let r := s.newRun g i iter
    let v := s.charged g i iter
    lowestDetail (u.signalReasons r) = none →
    (u.globalC (u.ownerOf g) (entOpx i.w 0 15)).isSome = true →
    let w := v.signalCounter (v.cbase (v.ownerOf g) + entOpx i.w 0 15) (ent64 i.w 16) (i.w.getLsbD 193) (i.w.getLsbD 194)
    exec (.signal g) s = .next (w.complete { r with result := w.rowc (v.cbase (v.ownerOf g) + entOpx i.w 0 15), info := 8 }).settle)
  ∧ (∀ s g i iter, s.startable g 0x21 i iter → raForm (entQ1 i.w) ≠ 3 → i.w.getLsbD 192 = false →
    let u := s.started g i iter
    let r := s.newRun g i iter
    lowestDetail (u.signalReasons r) = none →
    exec (.signal g) s = .next (u.setRun { r with unsent := [onePacket (signalReq r) (leBytes 8 (ent64 i.w 16).toNat) 8] }).settle)
  ∧ (∀ s g i iter, s.startable g 0x22 i iter → entOpx i.w 0 1 = 0 → 
    let u := s.started g i iter
    let r := s.newRun g i iter
    lowestDetail (u.markReasons r) = none →
    exec (.mark g) s = .next (u.setRun { r with unsent := [markPacket r] }).settle)
  ∧ (∀ s g i iter, s.startable g 0x20 i iter →
    let v := s.charged g i iter
    lowestDetail ((s.started g i iter).waitReasons (s.newRun g i iter)) = none →
    (v.globalC (v.ownerOf g) (entOpx i.w 0 15)).isSome = true →
    exec (.wait g) s = .next (v.setRun { s.newRun g i iter with phase := .counter }).settle)
  ∧ (∀ s g i iter, s.startable g 0x14 i iter →
    let v := s.charged g i iter
    let r := s.newRun g i iter
    let one := entOpx i.w 0 1 == 0
    lowestDetail ((s.started g i iter).flushReasons r) = none →
    exec (.flush g) s = .next (v.setRun { r with
      phase := .covered, covers := v.covered g r.rid r.comm (if one then some (entQ1 i.w) else none)
      reached := if one && (v.flushNode r).isNone then [] else v.unconfirmed g (v.flushNode r) }).settle)
  ∧ (∀ s g i iter, s.startable g 0x22 i iter → entOpx i.w 0 1 = 1 →
    let u := s.started g i iter
    let r := s.newRun g i iter
    lowestDetail (u.markReasons r) = none →
    exec (.mark g) s = .next (u.setRun { r with phase := .covered, covers := u.covered g r.rid r.comm (some (entQ1 i.w)) }).settle)
  ∧ (∀ s g i iter, s.startable g 0x21 i iter → i.w.getLsbD 192 = true →
    let u := s.started g i iter
    let r := s.newRun g i iter
    lowestDetail (u.signalReasons r) = none → (raForm (entQ1 i.w) = 3 → (u.globalC (u.ownerOf g) (entOpx i.w 0 15)).isSome = true) →
    exec (.signal g) s = .next ((u.chargeStartIf (raForm (entQ1 i.w) == 3) g).setRun { r with
      phase := .covered, covers := u.covered g r.rid r.comm (some (entQ1 i.w))
      reached := if raForm (entQ1 i.w) == 3 then u.unconfirmed g (some u.self) else [] }).settle))
  ∧ (∀ (e : Entry) (v : DWord),
    ((waitMet e v).1 = true ↔ entBits e 64 63 ≤ v.toNat % 2 ^ 63 ∧ (v.getLsbD 63 = false ∨ entBits e 32 1 = 1)) ∧ (waitMet e v).2 = v.getLsbD 63)

/-- A REPEAT whose body obeys R64 to R66 becomes the queue's REPEAT in progress, at pass 0 and body instruction 0. -/
def Obligations.RepeatStarts : Prop :=
  ∀ s g i iter, s.startable g 0x28 i iter →
    let u := s.charged g i iter
    let r := s.newRun g i iter
    let body := ((s.queue g).held.head?).elim [] (fun a => a.body)
    lowestDetail (State.repeatReasons body u r) = none →
    exec (.repeat_ g) s = .next
      ((u.modQueue g (fun q => { q with rep := some { rid := r.rid, ins := i, body, pass := 0, next := 0 } })).setRun { r with phase := .passes }).settle

/-- A collective that may start: its CSEQ is admitted and it is in progress; RDSC, AGTH, ARED, A2A and RUG check their operands, A2AV reads its send counts, DISP and COMB
read the assignment array and the expert map and translate the drop mask. An admitted collective: its CSEQ is the communicator's last, and it is in progress behind those before it. -/
def Obligations.CollectivesStart : Prop :=
  ((∀ c ∈ ([(Instr.rdsc, 0x30), (Instr.agth, 0x31), (Instr.ared, 0x32), (Instr.a2a, 0x33), (Instr.rug, 0x37)]
      : List ((Nat → Instr) × BitVec 8)),
    ∀ s g i iter x, s.collOpens g c.2 i iter x →
      let v := s.charged g i iter
      let r := (s.started g i iter).collRun (s.newRun g i iter)
      exec (c.1 g) s = .next ((v.admitColl r (coComm i.w) x).collRead r (v.newColl r (coComm i.w) x)).settle)
  ∧ (∀ s g i iter x, s.collOpens g 0x34 i iter x →
      let v := s.charged g i iter
      let r := (s.started g i iter).collRun (s.newRun g i iter)
      let a := (coArrays i 0x34 x.ranks.length).take 1
      (v.admitColl r (coComm i.w) x).localFail ((v.admitColl r (coComm i.w) x).ownerOf g) a = none →
      exec (.a2av g) s = .next (((v.admitColl r (coComm i.w) x).setRun { r with phase := .reading, aux := 0 }).readMore r.rid a []).settle)
  ∧ (∀ c ∈ ([(Instr.disp, 0x35), (Instr.comb, 0x36)] : List ((Nat → Instr) × BitVec 8)),
    ∀ s g i iter x, s.collOpens g c.2 i iter x →
      let v := s.charged g i iter
      let r := (s.started g i iter).collRun (s.newRun g i iter)
      let a := coArrays i c.2 x.ranks.length
      (v.admitColl r (coComm i.w) x).localFail ((v.admitColl r (coComm i.w) x).ownerOf g) a = none →
      exec (c.1 g) s = .next ((((v.admitColl r (coComm i.w) x).setRun { r with phase := .reading, aux := 0 }).readMore r.rid (a.take 2) (a.drop 2)).probeOpnd
        r.rid (coAux i 2 ((coT i.w * coK i.w + 7) / 8)) true).settle))
  ∧ (∀ (s : State) (r : Run) (h : Nat) (x : Comm),
    ((s.admitColl r h x).comm h).map (fun c => (c.seq, c.anySeq, c.ranks)) = some (coSeq r.ins.w, false, x.ranks)
    ∧ (s.admitColl r h x).colls = s.colls ++ [s.newColl r h x]
    ∧ (∀ k, k ≠ h → (s.admitColl r h x).comm k = s.comm k)
    ∧ (s.admitColl r h x).pool = s.pool ∧ (s.admitColl r h x).regs = s.regs ∧ (s.admitColl r h x).queues = s.queues)

/-- SNAP records its communicator as the job's commit communicator, opens the journal of its area and writes the rank record behind the shard; PERS
reads its source into a new version that is being written, charged to NV_HOST_BYTES. -/
def Obligations.SnapAndPersStart : Prop :=
  (∀ s g i iter x, s.startable g 0x40 i iter → State.snapReady g s i = true →
    let v := s.charged g i iter
    let r := s.newRun g i iter
    let h := coComm i.w
    lowestDetail ((s.started g i iter).snapReasons r) = none → v.ownComm g h = some x → i.frogged = false → v.jobAbandoned x.job = false →
    let c := v.newColl r h x
    let k := x.groupK c.rank
    let grp := if k = 0 then [] else x.group c.rank
    let c : Coll := { c with
      pdig := snapPdig i.w, emap := grp
      sendCounts := [(grp.findIdx? (· == c.rank)).getD 0, k, (snapUnits i.w k).1, (snapUnits i.w k).2] }
    let a := ((v.admitColl r h x).setColl c).setJob x.job { ((v.admitColl r h x).setColl c).job x.job with commit := some h }
    let area := snapArea i.w k x.jmode
    a.localFail (a.ownerOf g) [area] = none → (a.rankedKeys h c.rank).length ≤ 2046 →
    let j := a.snapJournal i.w k x.jmode
    let b := a.putJournal { j with st := if j.st = .idle then .active else j.st }
    let w := b.poolWrite (snapShard i.w + snapLen i.w) (b.rankRecord h c.rank (snapStep_ i.w)) (.run r.rid wOther)
    exec (.snap g) s = .next (w.2.setRun { r with phase := .coll, writes := if w.1 then 0 else 1, bufs := [(area, [], 0)] }).settle)
  ∧ (∀ s g i iter, s.startable g 0x41 i iter → s.bit 0x200 17 = true →
    let v := s.charged g i iter
    let r := s.newRun g i iter
    let len := entBytes i.w 16 8
    let obj := entBytes i.w 24 8
    let f := v.ownerOf g
    lowestDetail ((s.started g i iter).persReasons r) = none → v.localFail (v.ownerOf g) [persOpnd i.w] = none → v.lineLost (entQ1 i.w).toNat len = false →
    v.tierOf f + len ≤ v.grant f 0x28 0 14 * 2 ^ 30 → v.tierAll + len ≤ v.fld 0x18000C 0 16 * 2 ^ 30 →
    let o := (v.tobj? f obj).getD { obj, owner := f, cur := none, prev := none, writing := [] }
    exec (.pers g) s = .next
      (((v.setTobj { o with writing := o.writing ++ [(r.rid, { step := 0, data := v.pread (entQ1 i.w).toNat len })] }).count 0x230038 len).setRun
        { r with phase := .tier, bufs := [(persOpnd i.w, [], 0)] }).settle)

/-- DIGEST, TAG, UPROG and CHECK, well formed and with valid keys, TAG with a loaded key slot, read their sources. -/
def Obligations.IntegrityInstructionsStart : Prop :=
  (∀ s g i iter, s.startable g 0x48 i iter →
    let v := s.charged g i iter
    let r := s.newRun g i iter
    lowestDetail ((s.started g i iter).digestReasons r) = none →
    v.localFail (v.ownerOf g) [digestSrc i.w, digestOut i.w] = none →
    exec (.digest g) s = .next ((v.setRun { r with phase := .reading }).readMore r.rid [digestSrc i.w] [digestOut i.w]).settle)
  ∧ (∀ s g i iter n, s.startable g 0x4A i iter →
    let v := s.charged g i iter
    let r := s.newRun g i iter
    lowestDetail ((s.started g i iter).tagReasons r) = none →
    v.kslotOf (v.ownerOf g) (entOpx i.w 0 8) = some n → v.kslot n ≠ {} → v.slotEmptied true n r.rid = false → v.localFail (v.ownerOf g) [tagSrc i.w, tagOut i.w] = none →
    ∀ u, u ≠ .keyLost → exec (.tag g u) s = .next ((v.setRun { r with phase := .reading, aux := upsetCode u, slot := n }).readMore r.rid
      (tagSrc i.w :: (if tagCmp i.w then [tagOut i.w] else [])) (if tagCmp i.w then [] else [tagOut i.w])).settle)
  ∧ (∀ s g i iter, s.startable g 0x50 i iter →
    let v := s.charged g i iter
    let r := s.newRun g i iter
    let n := (s.started g i iter).progSlot ((s.started g i iter).ownerOf g) (entOpx i.w 0 6)
    lowestDetail ((s.started g i iter).uprogReasons r) = none → v.localFail (v.ownerOf g) [uprogSrc i.w] = none →
    exec (.uprog g) s = .next ((v.setRun { r with phase := .reading, slot := n.getD 0, aux := if n.isSome then 0 else 1 }).readMore r.rid [uprogSrc i.w] []).settle)
  ∧ (∀ s g i iter, s.startable g 0x49 i iter →
    let v := s.charged g i iter
    let r := s.newRun g i iter
    let len := entBytes i.w 16 8
    lowestDetail ((s.started g i iter).checkReasons r) = none → len ≠ 0 → v.localFail (v.ownerOf g) [checkSrc i.w] = none →
    let d := v.readOpnd (v.ownerOf g) (qPasid (v.queue g).desc) (checkSrc i.w) (.run r.rid 0)
    exec (.check g) s = .next (d.2.2.setRun { r with phase := .reading, bufs := [(checkSrc i.w, d.1, d.2.1)] }).settle)

/-- COMM create and replace read the header of the rank map; destroy waits for the collectives of its handle. -/
def Obligations.CommActionsStart : Prop :=
  (∀ c ∈ ([(Instr.commCreate, 0), (Instr.commReplace, 1)] : List ((Nat → Instr) × Nat)),
    ∀ s g i iter, s.startable g 0x58 i iter → commAction i.w = c.2 →
      let v := s.charged g i iter
      let r := s.newRun g i iter
      lowestDetail ((s.started g i iter).commReasons r) = none →
      v.localFail (v.ownerOf g) [commMap i.w 64] = none →
      exec (c.1 g) s = .next ((v.setRun { r with phase := .reading, aux := 0 }).readMore r.rid [commMap i.w 64] []).settle)
  ∧ (∀ s g i iter, s.startable g 0x58 i iter → commAction i.w = 2 →
      let v := s.charged g i iter
      let r := s.newRun g i iter
      lowestDetail ((s.started g i iter).commReasons r) = none →
      exec (.commDestroy g) s = .next (v.setRun { r with phase := .coll }).settle)

/-! ## Queue commands, doorbells, rings and counter slots -/

/-- The four queue commands that R95 answers DONE: QUERY writes the descriptor and R97's registers, CREATE makes a queue of QUEUE_DESC with nothing in
it, MODIFY replaces the descriptor of an existing one, DESTROY leaves none; RESULT is 1, SEQ advances, and no other queue changes. A queue command that R95 does not answer DONE changes no queue; its RESULT says why. -/
def Obligations.QueueCommands : Prop :=
  (∀ (s : State) (f q : Nat),
    let g := s.qbase f + q
    ((s.queueCmd f q 0).queueResult f q 0 true = 1 → ∃ t, exec (.queueQuery f q) s = .next t ∧ State.told s t (page f 0x1044) 1
      ∧ t.queueDesc f = (s.queue g).desc ∧ t.reg (page f 0x1048) = (s.queue g).fetch ∧ t.reg (page f 0x104C) = (s.queue g).dbpi
      ∧ t.reg (page f 0x1050) = (s.queue g).cpi ∧ t.reg (page f 0x1054) = (s.queue g).cci ∧ { t with regs := s.regs } = s)
    ∧ (∀ reach, (s.queueCmd f q 1).queueResult f q 1 reach = 1 → ∃ t, exec (.queueCreate f q reach) s = .next t
      ∧ State.told s t (page f 0x1044) 1 ∧ t.queue g = { created := true, desc := s.queueDesc f }
      ∧ (∀ k, k ≠ g → t.queue k = s.queue k) ∧ { t with regs := s.regs, queues := s.queues } = s
      ∧ ∀ b, b ≠ page f 0x1040 → b ≠ page f 0x1044 → t.reg b = s.reg b)
    ∧ ((s.queueCmd f q 2).queueResult f q 2 true = 1 → ∃ t, exec (.queueModify f q) s = .next t
      ∧ State.told s t (page f 0x1044) 1 ∧ t.queue g = { s.queue g with desc := s.queueDesc f }
      ∧ (∀ k, k ≠ g → t.queue k = s.queue k) ∧ { t with regs := s.regs, queues := s.queues } = s
      ∧ ∀ b, b ≠ page f 0x1040 → b ≠ page f 0x1044 → t.reg b = s.reg b)
    ∧ ((s.queueCmd f q 3).queueResult f q 3 true = 1 → ∃ t, exec (.queueDestroy f q) s = .next t
      ∧ State.told s t (page f 0x1044) 1 ∧ t.queue g = {} ∧ ∀ k, k ≠ g → t.queue k = s.queue k))
  ∧ (∀ (s : State) (f q : Nat),
    ∀ c ∈ [(Instr.queueQuery f q, 0), (Instr.queueCreate f q true, 1), (Instr.queueModify f q, 2), (Instr.queueDestroy f q, 3)],
      (s.queueCmd f q c.2).queueResult f q c.2 true ≠ 1 → ∃ t, exec c.1 s = .next t ∧ { t with regs := s.regs } = s
        ∧ State.told s t (page f 0x1044) ((s.queueCmd f q c.2).queueResult f q c.2 true))

/-- R101: a doorbell to a queue that exists takes an index that advances within the ring, ignores and counts one that does not advance, and ignores, counts
and reports one that claims more than the ring holds; PI against DBPI and FETCH, CCI against CCI and CPI; a doorbell to no queue is ignored and counted. -/
def Obligations.DoorbellRules : Prop :=
  ∀ (s : State) (f q : Nat) (v : BitVec 32),
    (s.globalQ f q = none → exec (.dbPi f q v) s = .next (s.count (page f 0x2008)) ∧ exec (.dbCci f q v) s = .next (s.count (page f 0x2008)).settle)
    ∧ ∀ g, s.globalQ f q = some g →
      let x := s.queue g
      (x.created = false → exec (.dbPi f q v) s = .next (s.count (page f 0x2008)) ∧ exec (.dbCci f q v) s = .next (s.count (page f 0x2008)).settle)
      ∧ (x.created = true → (s.resetting f = true ∨ s.boundOff = true) →
        exec (.dbPi f q v) s = .next (s.count (page f 0x2008)) ∧ exec (.dbCci f q v) s = .next (s.count (page f 0x2008)).settle)
      ∧ (x.created = true → s.resetting f = false → s.boundOff = false →
        ((v = x.dbpi ∨ 2 ^ 31 ≤ (v - x.dbpi).toNat) → exec (.dbPi f q v) s = .next (s.count (page f 0x2000)))
        ∧ (v ≠ x.dbpi → (v - x.dbpi).toNat < 2 ^ 31 → qRingSize x.desc < (v - x.fetch).toNat →
          exec (.dbPi f q v) s = .next ((s.count (page f 0x2008)).raise f doorbellInvalid (s.relQ g) 0 (v.toNat + x.fetch.toNat * 2 ^ 32) 0 0))
        ∧ (v ≠ x.dbpi → (v - x.dbpi).toNat < 2 ^ 31 → (v - x.fetch).toNat ≤ qRingSize x.desc →
          exec (.dbPi f q v) s = .next (s.setQueue g { x with dbpi := v, bells := x.bells ++ [(v, s.time)] }))
        ∧ ((v = x.cci ∨ 2 ^ 31 ≤ (v - x.cci).toNat) → exec (.dbCci f q v) s = .next (s.count (page f 0x2000)).settle)
        ∧ (v ≠ x.cci → (v - x.cci).toNat < 2 ^ 31 → qCringSize x.desc < (x.cpi - v).toNat →
          exec (.dbCci f q v) s = .next
            ((s.count (page f 0x2008)).raise f doorbellInvalid (s.relQ g) 0 (v.toNat + x.cpi.toNat * 2 ^ 32) 1 0).settle)
        ∧ (v ≠ x.cci → (v - x.cci).toNat < 2 ^ 31 → (x.cpi - v).toNat ≤ qCringSize x.desc →
          exec (.dbCci f q v) s = .next (s.setQueue g { x with cci := v }).settle))

/-- Fetching: a fetch takes entries in order, up to 16, the end of the ring and DBPI, waits for a translation, or fails with RING_FAULT; an entry at the
ring's last index waits for its extension, which the next read brings; a re-read that finds OWN right goes on, one that does not is counted, and
STALE_ENTRY is raised once after 64 of them; a retry of a ring that succeeds ends the episode; CRING_STALL is raised once for a record that waits. An
entry is taken exactly when OWN is the lap value of its position; an entry with the other OWN is not taken and the queue waits on it. (R42, R43, R98,
R102, R103, R105) -/
def Obligations.FetchRules : Prop :=
  (∀ (s : State) (g : Nat),
    let q := s.queue g
    let p0 := q.readFrom.1
    let m := min 16 (q.readMax p0)
    (∀ es, s.mayFetch g = true → s.ringWay g p0 m = .clear → es.take m ≠ [] → exec (.entryFetch g (.entries es)) s = .next
      ((s.touchRing g p0).setQueue g (Queue.takeEntries (q.readFrom.2 ++ es.take m) { q with half := none })).settle)
    ∧ (∀ a, s.mayFetch g = true → s.ringWay g p0 m = .waits a → s.hostReach (s.ownerOf g) = true → ∀ r, exec (.entryFetch g r) s = .next (s.parkRing g a))
    ∧ (∀ why a, s.mayFetch g = true → s.ringWay g p0 m = .fails why a → ∀ r, exec (.entryFetch g r) s = .next
      ((s.setQueue g { q with workFault := true }).raise (s.ownerOf g) ringFault (s.relQ g) 0 (2 * why) a.toNat 0))
    ∧ (∀ p n raised e es, q.stale = some (p, n, raised) → q.workFault = false → q.half = none → 0 < q.readMax q.fetch → s.ringWay g q.fetch 1 = .clear →
      (entOwn e = lap p (qRingSize q.desc) → exec (.ownReread g (.entries (e :: es))) s = .next
        ((s.touchRing g q.fetch).setQueue g (Queue.takeEntries [e] { q with stale := none })).settle)
      ∧ (entOwn e ≠ lap p (qRingSize q.desc) → exec (.ownReread g (.entries (e :: es))) s = .next
        ((s.touchRing g q.fetch).setQueue g { q with stale := some (p, n + 1, raised) }).settle))
    ∧ (∀ p n, q.stale = some (p, n, false) → 64 ≤ n → exec (.staleEntry g) s = .next
      ((s.setQueue g { q with stale := some (p, n, true) }).raise (s.ownerOf g) staleEntry (s.relQ g) p n 0 0))
    ∧ (∀ es, q.workFault = true → q.stale = none → s.ringWay g p0 m = .clear → es.take m ≠ [] → exec (.ringRetry g false (.entries es)) s = .next
      ((s.touchRing g p0).setQueue g (Queue.takeEntries (q.readFrom.2 ++ es.take m) { q with half := none, workFault := false })).settle)
    ∧ (∀ es t, q.compFault = true → s.tryRecord g true = some t → exec (.ringRetry g true (.entries es)) s = .next t.settle)
    ∧ (q.heldRecs ≠ [] → q.cringRoom = false → q.stallRaised = false → exec (.cringStall g) s = .next
      ((s.setQueue g { q with stallRaised := true }).raise (s.ownerOf g) cringStall (s.relQ g) 0 q.heldRecs.length 0 0)))
  ∧ (∀ (q : Queue) (e : Entry), q.fetch ≠ q.dbpi → q.heldCount < 64 → entExt e = true → entOwn e = lap q.fetch (qRingSize q.desc) →
    2 ≤ (q.dbpi - q.fetch).toNat →
    ((q.fetch.toNat + 1) % qRingSize q.desc = 0 → Queue.takeEntries [e] q = { q with half := some e })
    ∧ ∀ x, q.collect = none → (Queue.takeEntries [e, x] q).held = q.held ++ [{ ins := { pos := q.fetch, w := e, x := some x }, body := [], doomed := false }]
      ∧ (Queue.takeEntries [e, x] q).fetch = q.fetch + 2)
  ∧ (∀ (q : Queue) (e : Entry), q.fetch ≠ q.dbpi → q.heldCount < 64 → q.collect = none → entExt e = false →
    (entOwn e = lap q.fetch (qRingSize q.desc) → (Queue.takeEntries [e] q).held = q.held ++ [{ ins := { pos := q.fetch, w := e, x := none }, body := [], doomed := false }]
      ∧ (Queue.takeEntries [e] q).fetch = q.fetch + 1 ∧ (Queue.takeEntries [e] q).accepted = q.accepted + 1)
    ∧ (entOwn e ≠ lap q.fetch (qRingSize q.desc) → Queue.takeEntries [e] q = { q with stale := some (q.fetch, 1, false) }))

/-- Counter slots (R107): a write within the grant replaces, adds, marks or clears, and every WAIT is evaluated again; one outside it, or one that sets and
clears ERR together, is ignored and counted. -/
def Obligations.CounterSlots : Prop :=
  ∀ (s : State) (f c : Nat),
    (∀ n, s.globalC f c = some n →
      (∀ part v, exec (.cntWrite f c part v) s = .next (s.setRowc n (slotReplace part (s.rowc n) v)).settle)
      ∧ (∀ part v, (slotReplace part 0 v).getLsbD 63 = false →
        exec (.cntAdd f c part v) s = .next (s.setRowc n (rowAdd (s.rowc n) (slotReplace part 0 v))).settle)
      ∧ exec (.cntSeterr f c 1) s = .next (s.setRowc n (s.rowc n ||| (1#64 <<< 63))).settle
      ∧ exec (.cntClrerr f c 2) s = .next (s.setRowc n (s.rowc n &&& ~~~ (1#64 <<< 63))).settle)
    ∧ (s.globalC f c = none →
      (∀ part v, exec (.cntWrite f c part v) s = .next (s.count (page f 0x2010)))
      ∧ exec (.cntSeterr f c 1) s = .next (s.count (page f 0x2010)) ∧ exec (.cntClrerr f c 2) s = .next (s.count (page f 0x2010)))
    ∧ exec (.cntSeterr f c 3) s = .next (s.count (page f 0x2010)) ∧ exec (.cntClrerr f c 3) s = .next (s.count (page f 0x2010))

/-- COUNT advances modulo 2^63 and keeps ERR; SETERR and CLRERR move ERR and keep COUNT. -/
def Obligations.RowCounterArithmetic : Prop :=
  ∀ v n : DWord,
    (rowAdd v n).toNat % 2 ^ 63 = (v.toNat + n.toNat) % 2 ^ 63 ∧ (rowAdd v n).getLsbD 63 = v.getLsbD 63
    ∧ (rowMark v true false).toNat % 2 ^ 63 = v.toNat % 2 ^ 63 ∧ (rowMark v true false).getLsbD 63 = true
    ∧ (rowMark v false true).toNat % 2 ^ 63 = v.toNat % 2 ^ 63 ∧ (rowMark v false true).getLsbD 63 = false
    ∧ rowMark v false false = v

/-! ## Resets of functions and the host link -/

/-- A function-wide reset of function f leaves none of its queues and none of its cached translations, and FUNC_RESET tells that the reset runs. (R115,
R355, R441) -/
def Obligations.ResetEndsAFunction : Prop :=
  ∀ (s : State) (f cause : Nat) (st : BitVec 8) (host : Bool) (revoke : KeyEnt → Bool),
    let t := s.resetFunction f cause st host revoke
    (∀ g ∈ s.queuesOf f, t.queue g = {}) ∧ (∀ x ∈ s.xlates, x.f = f → x ∉ t.xlates)
    ∧ t.bit (page f 0x1A00) 8 = true

/-- FLR of a virtual function runs that function's reset with cause 1; FLR of the physical function runs that of every virtual function and then its own;
clearing VF Enable runs that of every virtual function with cause 3, and leaves each disabled; D3hot to D0 runs that of its function with cause 4;
FUNC_RESET_CMD sets GO and runs that of an enabled function with cause 2, and is counted for one that is not enabled. The end of a reset clears its mark
and advances SEQ, and clears GO where the command was for that function; where no reset runs nothing changes. (R115, R360, R441) -/
def Obligations.FunctionResetCommands : Prop :=
  ∀ (s : State) (f : Nat),
    (f ≠ 0 → exec (.flr f) s = .next (s.functionReset f 1 false).settle)
    ∧ exec (.flr 0) s = .next (((List.range 255).foldl (fun u i => u.functionReset (i + 1) 1 false) s).functionReset 0 1 false).settle
    ∧ exec .vfEnableClear s = .next ((List.range 255).foldl (fun u i =>
        (u.functionReset (i + 1) 3 false).setFunc (i + 1) { (u.functionReset (i + 1) 3 false).func (i + 1) with vfEnabled := false }) s).settle
    ∧ exec (.d3hotToD0 f) s = .next (s.functionReset f 4 false).settle
    ∧ (s.enabled f = true → exec (.funcResetCmd f) s = .next
        (((s.setFld 0x1B4010 0 8 f).setFld 0x1B4010 31 1 1).functionReset f 2 (s.hostReach f)).settle)
    ∧ (s.enabled f = false → exec (.funcResetCmd f) s = .next (s.count 0x200010))
    ∧ (let u := (s.setFld (page f 0x1A00) 8 1 0).bumpSeq (page f 0x1A00)
      (s.resetting f = true → s.bit 0x1B4010 31 = true → s.fld 0x1B4010 0 8 = f → exec (.funcResetEnd f) s = .next (u.setFld 0x1B4010 31 1 0).settle)
      ∧ (s.resetting f = true → (s.bit 0x1B4010 31 = false ∨ s.fld 0x1B4010 0 8 ≠ f) → exec (.funcResetEnd f) s = .next u.settle)
      ∧ (s.resetting f = false → exec (.funcResetEnd f) s = .next s)
      ∧ u.bit (page f 0x1A00) 8 = false ∧ u.fld (page f 0x1A00) 0 8 = (s.fld (page f 0x1A00) 0 8 + 1) % 256)

/-- The host link: CXL Reset resets the host domain with its event told in the status register; the loss of the link ends with Bus Master Enable, VF
Enable, ATS and PRI of every function clear; a retrain and a link that comes up set rate, width and whether CXL runs; Bus Master Enable is cleared and
set. (R346, R355, R360, R361, R371, R440) -/
def Obligations.HostLinkCommands : Prop :=
  ∀ (s : State) (f : Nat) (ev : LinkDownEvent) (rate : BitVec 3) (width : BitVec 5),
    let told := fun (u : State) (e : Nat) => (u.setFld 0x190000 18 4 e).bumpSeq 0x190000
    let cxl := decide (rate.toNat = 5 ∨ rate.toNat = 6)
    let up := ((s.setFld 0x190000 8 3 rate.toNat).setFld 0x190000 11 5 width.toNat).setFld 0x190000 16 1 (if cxl then 1 else 0)
    exec .cxlReset s = .next (((told s 5).hostDomainReset 5 stFuncReset).settle.retryLatoms)
    ∧ (∃ t : State, exec (.hostLinkDown ev) s = .next (t.settle.retryLatoms)
        ∧ ∀ k, k < 256 → (t.func k).busMaster = false ∧ (t.func k).vfEnabled = false ∧ (t.func k).ats = false ∧ (t.func k).pri = false)
    ∧ (∀ b, exec (.hostRetrain b rate width) s = .next ((told up (if b then 6 else 1)).count 0x240000).settle)
    ∧ (up.bit 0x610 9 = true → ∃ t, exec (.hostLinkUp rate width) s = .next t ∧ { t with funcs := s.funcs, regs := s.regs } = s
        ∧ t.fld 0x190000 8 3 = rate.toNat ∧ t.fld 0x190000 11 5 = width.toNat ∧ t.bit 0x190000 16 = cxl
        ∧ ∀ k, k < 256 → (t.func k).ats = cxl ∧ (t.func k).pri = cxl)
    ∧ exec (.busMasterClear f) s = .next (s.setFunc f { s.func f with busMaster := false })
    ∧ (f = 0 → exec (.busMasterEnableSet f) s = .next (s.setFunc 0 { s.func 0 with busMaster := true, vfEnabled := false }).settle)
    ∧ (f ≠ 0 → s.bit 0x8000 0 = false → exec (.busMasterEnableSet f) s = .next
        (s.setFunc f { s.func f with busMaster := true, vfEnabled := true }).settle)

/-! ## Memory keys -/

/-- The key commands while GO reads 0: QUERY tells the descriptor and the state of a registration of the function; REGISTER of a good descriptor takes the
next index with the next GEN, 1 to 4,095 and again 1, and returns the key; REVOKE leaves a VALID key DRAINING or DRAINED; RELEASE frees a DRAINED one;
each tells RESULT 1. A drained registration becomes DRAINED, or free where a reset revoked it. (R123, R124, R125, R126, R127, R131, R132, R133) -/
def Obligations.KeyCommandsDone : Prop :=
  (∀ g : BitVec 12, nextGen g ≠ 0 ∧ (g.toNat < 4095 → (nextGen g).toNat = g.toNat + 1) ∧ (g = 4095 → nextGen g = 1))
  ∧ ∀ (s : State) (f i : Nat), s.bit (page f 0x1124) 31 = false →
    let named := s.namedKey f = some i
    let k := s.key i
    (named → ∃ t, exec (.keyQuery f) s = .next t ∧ { t with regs := s.regs } = s ∧ t.keyDesc f = k.desc
      ∧ State.told s t (page f 0x1128) 1 ∧ t.fld (page f 0x1128) 12 2 = k.state.code)
    ∧ (s.registerResult f (s.keyDesc f) = 1 → s.nextIndex = some i → (s.poolReady = true ∨ ({ desc := s.keyDesc f } : KeyEnt).space ≠ 2) →
      ∃ t, exec (.keyRegister f) s = .next t ∧ State.told s t (page f 0x1128) 1
        ∧ t.key i = { gen := nextGen k.gen, state := .valid, owner := f, desc := s.keyDesc f } ∧ t.reg (page f 0x1120) = keyOf i (nextGen k.gen)
        ∧ (∀ j, j ≠ i → t.key j = s.key j) ∧ t.pool = s.pool ∧ t.queues = s.queues)
    ∧ (named → k.state = .valid → ∃ t, exec (.keyRevoke f) s = .next t ∧ State.told s t (page f 0x1128) 1
        ∧ t.key i = { k with state := if s.keyBusy i then .draining else .drained } ∧ (∀ j, j ≠ i → t.key j = s.key j)
        ∧ { t with regs := s.regs, keys := s.keys } = s)
    ∧ (named → k.state = .drained → ∃ t, exec (.keyRelease f) s = .next t ∧ State.told s t (page f 0x1128) 1
        ∧ t.key i = { k with state := .free } ∧ (∀ j, j ≠ i → t.key j = s.key j) ∧ t.freedKeys = s.freedKeys ++ [i])
    ∧ (k.state = .draining → s.keyBusy i = false → k.autoRelease = false → exec (.keyDrained i) s = .next (s.setKey i { k with state := .drained }))
    ∧ (k.state = .draining → s.keyBusy i = false → k.autoRelease = true → exec (.keyDrained i) s = .next (s.freeKey i))

/-! ## Packets of the end-to-end layer -/

/-- A packet that is not this node's own, from a node not lost, whose PSN has not been seen: its request is taken where RETR can
grow for its response and waits where it cannot, or its response is taken and acknowledged. A placement request is answered when the writes it waits for are placed, and a parked request is accepted when its context is fetched. -/
def Obligations.PacketsAreTaken : Prop :=
  (∀ (s : State) (h : Hdr),
    (∀ r payload, let a := s.consume { hdr := h, body := .request r, payload }
      a.boundOff = false → h.src.toNat ≠ a.self → a.lost.contains h.src.toNat = false → (a.rxCheck h.src.toNat h.psn h.lup).1 = .fresh →
      s.retrFull h r = false → exec (.request h r payload) s = .next ((a.rxCheck h.src.toNat h.psn h.lup).2.takeReq h r payload).settle)
    ∧ (∀ r payload, s.retrFull h r = true → exec (.request h r payload) s = .next (s.noteBorrow 7 (respCells r)))
    ∧ (∀ r payload, let a := s.consume { hdr := h, body := .response r, payload }
      a.boundOff = false → h.src.toNat ≠ a.self → a.lost.contains h.src.toNat = false → (a.rxCheck h.src.toNat h.psn h.lup).1 = .fresh →
      exec (.response h r payload) s = .next
        (((a.rxCheck h.src.toNat h.psn h.lup).2.takeResponse h r payload).delivered h.src.toNat h.psn h.ce stOk 0).settle))
  ∧ (∀ (s : State) (src : BitVec 20) (psn : Word),
    (∀ e r, s.placeReqs.find? (fun e => e.1.hdr.src == src && e.1.hdr.psn == psn) = some e → e.1.body = .request r →
      (∀ w ∈ e.2, ∀ a ∈ s.admitted, ¬ (a.src = src.toNat ∧ a.psn = w)) →
      exec (.placementAnswer src psn) s = .next (({ s with placeReqs := s.placeReqs.erase e } : State).answerPlacement e.1 r).settle)
    ∧ (∀ p r, s.parkedReqs.find? (fun p => p.hdr.src == src && p.hdr.psn == psn) = some p → p.body = .request r →
      (src.toNat ≠ s.self ∨ s.ownMisses psn.toNat = []) →
      (respCells r = 0 ∨ s.canGrow 7 (respCells r) = true) → exec (.contextFetchDone src psn) s = .next (({ s with parkedReqs := s.parkedReqs.erase p } : State).acceptReq p.hdr r p.payload).settle))

/-- The verdict on a PSN, of a packet whose LUP is RBASE: a PSN behind RBASE is stale and counted, one seen before is a duplicate and counted, and any
other is fresh and is remembered as pending; no other node's context changes. (R137, R238, R241) -/
def Obligations.PsnVerdicts : Prop :=
  ∀ (s : State) (src : Nat) (psn : Word),
    let p := s.path src
    let v := s.rxCheck src psn p.rbase
    (psnBefore psn p.rbase = true → v.1 = .stale ∧ v.2.counter 0x260010 = s.counter 0x260010 + 1)
    ∧ (psnBefore psn p.rbase = false → p.rxOf psn = none → v.1 = .fresh ∧ v.2.ev = s.ev ∧ (v.2.path src).rx = p.rx ++ [(psn, .pending)])
    ∧ (psnBefore psn p.rbase = false → p.rxOf psn = some .pending → v.1 = .pendingDup ∧ v.2.counter 0x260018 = s.counter 0x260018 + 1)
    ∧ (∀ a b, psnBefore psn p.rbase = false → p.rxOf psn = some (.done a b) → v.1 = .doneDup a b ∧ v.2.counter 0x260018 = s.counter 0x260018 + 1)
    ∧ ∀ k, k ≠ src → v.2.path k = s.path k

/-- A delivery acknowledgement acknowledges every PSN its map names and counts its echoes; the acknowledgement timer reports every unreported delivery
within 64 of the first, with the marks among them; a retained packet that must be sent again is sent again within its tries, or waits for tokens, fails with
RETRY_EXHAUSTED after them, and fails at once where its target is lost; the copies of a response that is given up go and are counted. (R148, R239, R240,
R242, R244) -/
def Obligations.AcknowledgingAndResending : Prop :=
  ∀ (s : State) (h : Hdr) (a : AckF) (node : BitVec 20) (psn : Word),
    let n := node.toNat
    let limit := s.fld 0x110018 22 5
    (let c := s.consume { hdr := h, body := .ack a, payload := [] };
      c.boundOff = false → c.lost.contains h.src.toNat = false → a.fstatus = 0 →
      exec (.deliveryAck h a) s = .next
        (((ackedPsns a).foldl (fun u p => u.ackOne h.src.toNat p stOk 0) c).modPath h.src.toNat (fun p => { p with newEchoed := p.newEchoed + a.echo.toNat })).settle)
    ∧ (∀ e es, (s.path n).unreported = e :: es → (∀ x ∈ es, (x.1 - e.1).toNat < 64) → exec (.ackTimer node) s = .next
        ((s.modPath n (fun p => { p with unreported := [] })).sendAck n ((e :: es).map (·.1)) ((e :: es).filter (·.2)).length 0 0 0))
    ∧ (∀ x d, (s.path n).retained.find? (fun x => x.pkt.hdr.psn == psn) = some x → n ≠ s.self → isAnswer x.pkt = false →
        (x.acked && !x.needsResp) = false → s.destOf n x = .node d → (x.pkt.hdr.cls = 4 ∨ x.pkt.hdr.cls = 5) →
        (x.tries < limit → (∀ y ∈ (s.path n).retained, y.due = false) → packetCost x.pkt ≤ (s.path n).tokens → x.missing = 0 →
          exec (.e2eRetransmit node psn) s = .next (s.resend n x))
        ∧ (x.tries < limit → (s.path n).tokens < packetCost x.pkt → exec (.e2eRetransmit node psn) s = .next (s.setPath n { s.path n with
            retained := (s.path n).retained.map (fun y => if y.pkt.hdr.psn == x.pkt.hdr.psn then { y with due := true } else y) }))
        ∧ (limit ≤ x.tries → exec (.e2eRetransmit node psn) s = .next (s.packetOver n x stRetry 0).settle))
    ∧ (∀ x, (s.path n).retained.find? (fun x => x.pkt.hdr.psn == psn) = some x → n ≠ s.self → isAnswer x.pkt = false →
        (x.acked && !x.needsResp) = false → s.destOf n x = .lost →
        exec (.e2eRetransmit node psn) s = .next (s.packetOver n x stTargetLost 0).settle)
    ∧ ((s.path n).repliesTo psn ≠ [] → exec (.e2eRespAbandon node psn) s = .next
        ((s.setPath n ((s.path n).dropReplies (· == psn))).count 0x260020))

/-! ## Routing and the congestion gauge -/

/-- The packet first in turn is delivered here where its destination is this node, and is routed on elsewhere; a packet that has made 15 hops is counted
and dropped; a packet that no port takes for too long leaves on the escape network. -/
def Obligations.RoutingChoices : Prop :=
  ∀ (s : State) (x : InPkt) (rest : List InPkt), s.routeQ = x :: rest → s.boundOff = false →
    let u : State := { s with routeQ := rest }
    (x.pkt.hdr.dst.toNat = s.self → exec .packetRoute s = .next { u with localIn := s.localIn ++ [x] })
    ∧ (x.pkt.hdr.dst.toNat ≠ s.self → exec .packetRoute s = .next (u.routeOn x))
    ∧ (x.pkt.hdr.dst.toNat ≠ s.self → x.pkt.hdr.hops = 15 → exec .packetRoute s = .next ((u.count 0x260000).freePkt x))
    ∧ ∀ p e, (s.port p).egress.find? (fun e => e.pkt.hdr.vc != 2) = some e → s.routeFixed = false →
      exec (.escapeTimeout p) s = .next ((s.modPort p (fun y => { y with egress := y.egress.erase e })).escape e)

/-- Notices of links: a notice not seen before, from a node not lost, is applied to this node's rows; a node tells again of its own links that are down. -/
def Obligations.LinkNotices : Prop :=
  ∀ (s : State) (p : Nat) (h : Hdr) (n : NoticeF),
    (let a := s.consume { hdr := h, body := .notice .linkDown n, payload := [] };
      a.boundOff = false → a.isLost h.src.toNat = false → h.src.toNat ≠ a.self → a.noticeFresh .linkDown h.src n = true →
      exec (.linkDownNotice p h n) s = .next ((a.noteFseq .linkDown h.src n).applyLink p .linkDown h n))
    ∧ (let a := s.consume { hdr := h, body := .notice .linkUp n, payload := [] };
      a.boundOff = false → a.isLost h.src.toNat = false → h.src.toNat ≠ a.self → a.noticeFresh .linkUp h.src n = true →
      exec (.linkUpNotice p h n) s = .next ((a.noteFseq .linkUp h.src n).applyLink p .linkUp h n))
    ∧ (s.boundOff = false → exec .linkReannounce s = .next (s.ownDown.foldl (fun u l => u.announceLink .linkDown l.1 l.2) s))

/-- The gauge: with CE echoes it falls by half of ALPHA and not below its minimum, without them it grows by a step, the larger one after quiet updates,
and not above its maximum; ALPHA is an average of weight 2^-G; an idle path forgets it; the telemetry of all 32 fabric ports is taken at one moment.
(R243, R244, R245) -/
def Obligations.GaugeAndTelemetry : Prop :=
  ∀ (s : State) (node : BitVec 20),
    let n := node.toNat
    let p := s.path n
    let f : Rat := (p.newEchoed : Rat) / (p.newAcked : Rat)
    let k : Rat := 1 / (2 ^ s.fld 0x11001C 24 4 : Nat)
    let alpha := p.alpha * (1 - k) + f * k
    (p.newAcked ≠ 0 → 0 < p.newEchoed → exec (.gaugeUpdate node) s = .next (s.setPath n { p with
        gauge := some (max (s.fld 0x110020 0 13 : Rat) (p.gauge.getD (s.gMax : Rat) * (1 - alpha / 2))), alpha, quiet := 0, newAcked := 0, newEchoed := 0 }))
    ∧ (p.newAcked ≠ 0 → p.newEchoed = 0 → p.quiet + 1 < s.fld 0x11001C 28 4 → exec (.gaugeUpdate node) s = .next (s.setPath n { p with
        gauge := some (min (s.gMax : Rat) (p.gauge.getD (s.gMax : Rat) + (s.fld 0x110024 0 13 : Nat))), alpha, quiet := p.quiet + 1, newAcked := 0, newEchoed := 0 }))
    ∧ (p.newAcked ≠ 0 → p.newEchoed = 0 → s.fld 0x11001C 28 4 ≤ p.quiet + 1 → exec (.gaugeUpdate node) s = .next (s.setPath n { p with
        gauge := some (min (s.gMax : Rat) (p.gauge.getD (s.gMax : Rat) + (s.fld 0x110024 16 13 : Nat))), alpha, quiet := p.quiet + 1, newAcked := 0, newEchoed := 0 }))
    ∧ ((∀ x ∈ p.retained, x.acked = true) → exec (.gaugeIdle node) s = .next (s.setPath n { p with gauge := none, alpha := 1, quiet := 0 }))
    ∧ ∀ stall, ∃ t, exec (.telemetrySample stall) s = .next t ∧ { t with regs := s.regs, ports := s.ports } = s
      ∧ ∀ q, q < 32 → (t.port q).tx = 0 ∧ (t.port q).rx = 0 ∧ (t.port q).marks = 0 ∧ t.reg (0x130014 + 0x20 * q) = stall.getD q 0

/-! ## Ports -/

/-- Receiving: a port in LOCK or past it decodes what its lanes bring; without lock a good codeword counts toward it; with lock a good one is counted and its
slots are taken, an uncorrectable one discards what was incomplete and counts toward the loss of lock and the error limit. BIND_OFF from a partner is heard;
credits come back; reports and audits are sent and answered; keepalives tell LOAD; their loss, lost lock, errors and lost lanes retrain the port or take
it down. (R249, R251, R252, R253, R254, R256, R257, R258, R259, R261, R263, R265) -/
def Obligations.PortReceiving : Prop :=
  ∀ (s : State) (p : Nat),
    (∀ cw, s.listens p = true → let d := s.decode p cw
      let u := s.modPort p (fun x => { x with descr := d.2 })
      ((s.port p).lock = false → d.1.isSome = true → exec (.codewordRx p cw) s = .next (u.modPort p Port.goodCodeword))
      ∧ ((s.port p).lock = false → d.1 = none → exec (.codewordRx p cw) s = .next (u.modPort p (fun x => { x with good := 0 })))
      ∧ ((s.port p).lock = true → d.1 = none → exec (.codewordRx p cw) s = .next ((((u.count (pctr p 0)).count (pctr p 0x10)).abortRx p).badCodeword p))
      ∧ (∀ slots, (s.port p).lock = true → s.boundOff = false → d.1 = some (0, slots) → exec (.codewordRx p cw) s = .next
          (slots.foldl (fun u x => u.slot p x) (((u.count (pctr p 0)).modPort p Port.goodCodeword).count (pctr p 0x80))))
      ∧ (∀ n slots, (s.port p).lock = true → s.boundOff = false → n ≠ 0 → d.1 = some (n, slots) → exec (.codewordRx p cw) s = .next
          (slots.foldl (fun u x => u.slot p x)
            (((((u.count (pctr p 0)).modPort p Port.goodCodeword).count (pctr p (0x80 + 8 * n))).count (pctr p 0x08)).count (pctr p 0x18) n))))
    ∧ (∀ h b, (s.port p).last = some (h, b) →
        exec (.abort p) s = .next ((((s.modPort p (fun x => { x with last := none })).dropRx p h b).count (pctr p 0x20))))
    ∧ (∀ node cause, 0 < cause.toNat → cause.toNat < 8 → exec (.bindOffSymbol p node cause) s = .next (s.bindOffHeard p node))
    ∧ (s.portRuns p = true → exec (.lockLost p) s = .next (s.fastRetrain p .lock dcLockLost))
    ∧ (let recent := (s.port p).errTimes.filter (fun t => decide (s.time < t + 1000000000));
      s.portRuns p = true →
        (recent.length < 4 → exec (.errorRate p) s = .next ((s.setPort p { s.port p with errTimes := recent ++ [s.time] }).fastRetrain p .errors dcErrorRate))
        ∧ (4 ≤ recent.length → exec (.errorRate p) s = .next ((s.setPort p { s.port p with errTimes := [] }).portDown p dcErrorRate .nothing)))
    ∧ (∀ lanes x, let los := BitVec.ofNat 16 (s.fld (plink p 0x10) 16 16) ||| lanes
      let u := s.setFld (plink p 0x10) 16 16 los.toNat
      u.portUp p = true → laneMask p (u.lanesOf p).1 (u.lanesOf p).2 &&& lanes ≠ 0 →
      u.bestSet p (BitVec.ofNat 16 (u.fld (plink p 0x10) 0 16) &&& ~~~ los) = x →
        (x = none → exec (.laneLos p lanes) s = .next (u.portDown p dcLos .nothing))
        ∧ ∀ y, x = some y → exec (.laneLos p lanes) s = .next
          ((((u.count (pctr p 0x60)).raise 0 portDegraded noQueue 0 p y.1 los.toNat).setLanes p y).fastRetrain p .lane dcLos))
    ∧ ((s.port p).fast.isSome = true → s.identDone p = true → exec (.fastRetrainEnd p) s = .next (s.comeUp p))
    ∧ (∀ es, exec (.credit p es) s = .next ((es.foldl (fun u e => u.creditOne p e) s).drain p))
    ∧ (s.portRuns p = true → ∃ ks, exec (.creditReportTimer p) s = .next (s.reportPairs p ks) ∧ ks ≠ []
        ∧ ∀ k ∈ pairKeys, ((s.port p).pair k).freed ≠ ((s.port p).pair k).reported → k ∈ ks)
    ∧ (∀ cls a0 a1 e, let k := 4 * cls.toNat
      let u := ((s.auditOne p k a0).auditOne p (k + 1) a1).auditOne p (k + 2) e
      s.portRuns p = true → cls.toNat < 6 → u.portRuns p = true → exec (.audit p cls a0 a1 e) s = .next (u.reportPairs p [k, k + 1, k + 2]))
    ∧ (s.portRuns p = true → ∃ t, exec (.auditSend p) s = .next t ∧ { t with out := s.out } = s ∧ t.out.length = s.out.length + 6)
    ∧ (∀ k, p < 32 → exec (.keepalive p k) s = .next (s.modPort p (fun x => { x with loadRx := k.load.toNat })))
    ∧ (s.portRuns p = true → ∃ t : State, exec (.keepaliveSend p) s = .next t ∧ (t.port p).kseq = (s.port p).kseq + 1 ∧ (t.port p).loadTx = s.load
        ∧ (∀ q, q ≠ p → t.port q = s.port q) ∧ t.out.length = s.out.length + 1 ∧ { t with ports := s.ports, out := s.out } = s)
    ∧ ((s.port p).fast = none → s.portRuns p = true → exec (.keepaliveTimeout p) s = .next (s.portDown p dcKeepalive .nothing))

/-- CREDIT and AUDIT (R257, R261): RET follows FREED while it does not pass USED; an audit that finds slots lost on the wire frees them and counts them. -/
def Obligations.CreditRules : Prop :=
  ∀ (s : State) (p : Nat), s.portRuns p = true →
    (∀ e : CreditEntry, let k := pairKey e.cls e.vc
      let c := (s.port p).pair k
      (e.freed - c.ret).toNat < 2 ^ 31 → (c.used - e.freed).toNat < 2 ^ 31 →
        ((s.creditOne p e).port p).pair k = { c with ret := e.freed } ∧ (∀ j, j ≠ k → ((s.creditOne p e).port p).pair j = (s.port p).pair j)
        ∧ ∀ q, q ≠ p → (s.creditOne p e).port q = s.port q)
    ∧ (∀ k used, let c := (s.port p).pair k
      used ≠ c.rcvd → (used - c.rcvd).toNat < 2 ^ 31 →
        ((s.auditOne p k used).port p).pair k = { c with rcvd := used, freed := c.freed + (used - c.rcvd) }
        ∧ (s.auditOne p k used).counter (pctr p 0x40) = s.counter (pctr p 0x40) + BitVec.ofNat 64 (used - c.rcvd).toNat)

/-- Training: DOWN to DETECT where the port may train, then EQUALISE where some group of lanes has signal, LOCK, IDENT, SWATCH where the partner has passed
and its TS_CREDITs have come, and UP; a partner that is not the row's neighbour takes the port down as miswired; a timeout fails the training, and the
swatch that was running; the port commands, and a PLL's return. (R227, R250, R257, R262, R264, R266, R267, R275, R432) -/
def Obligations.PortTraining : Prop :=
  ∀ (s : State) (p : Nat), (s.port p).fast = none →
    (s.pstate p = psDown → s.mayTrain p = true → exec (.trainRetry p) s = .next (s.setPstate p psDetect))
    ∧ (∀ f : TrainFound, f.port = p → let u := s.setFld (plink p 0x10) 16 16 (BitVec.ofNat 16 (2 ^ laneCount p - 1) &&& ~~~ f.signal).toNat
      s.pstate p = psDetect → exec (.trainStateDone f) s = .next (if (u.signalSet p).isSome then u.setPstate p psEqualise else u))
    ∧ (∀ f : TrainFound, f.port = p → s.pstate p = psEqualise → exec (.trainStateDone f) s = .next (s.setPstate p psLock))
    ∧ (∀ f : TrainFound, f.port = p → s.pstate p = psLock → exec (.trainStateDone f) s = .next
        (((((s.modPort p (fun x => { x.unlock with lock := true, good := 4, reversed := f.reversed, inverted := f.inverted })).setPstate p psIdent).sendIdent
          p false).sendLimits p)))
    ∧ (∀ f : TrainFound, f.port = p → s.identDone p = true → exec (.trainStateDone f) s = .next (s.startSwatch p))
    ∧ (∀ w, (s.port p).sw = some w → w.phase = .ready → s.pstate p = psSwatch → exec (.tsReady p) s = .next (s.comeUp p))
    ∧ ((s.port p).sw = none → psEqualise ≤ s.pstate p → s.pstate p ≤ psSwatch → exec (.trainTimeout p) s = .next (s.trainFails p dcTrain))
    ∧ (∀ w, (s.port p).sw = some w → psEqualise ≤ s.pstate p → s.pstate p ≤ psSwatch →
        exec (.trainTimeout p) s = .next (s.swatchFails p w.own (w.partner.getD 0)))
    ∧ (∀ i, s.pstate p = psIdent → p < 32 →
        let u := (s.setFld (plink p 0xC) 0 20 i.node.toNat).setFld (plink p 0xC) 20 6 i.port.toNat
        let want := withCoord u.self (u.portDim p) (u.portPeer p)
        (i.node.toNat = want → exec (.tsIdent p i) s = .next (u.modPort p (fun x => { x with identOk := true })))
        ∧ (i.node.toNat ≠ want → exec (.tsIdent p i) s = .next
          ((u.portDown p dcMiswired .miswired).raise 0 portMiswired noQueue 0 p (want + i.node.toNat * 2 ^ 32) 0)))
    ∧ (∀ cls a0 a1 e, cls.toNat < 6 → ∃ t, exec (.tsCredit p cls a0 a1 e) s = .next t ∧ { t with ports := s.ports } = s
        ∧ ((t.port p).pair (4 * cls.toNat)).limit = a0.setWidth 32 ∧ ((t.port p).pair (4 * cls.toNat + 1)).limit = a1.setWidth 32
        ∧ ((t.port p).pair (4 * cls.toNat + 2)).limit = e.setWidth 32 ∧ (s.pstate p = psIdent → cls.toNat ∈ (t.port p).limits))
    ∧ exec (.portLinkEnable p true) s = .next ((s.setFld (plink p 0) 0 1 1).startTraining p)
    ∧ (s.pstate p = psUp → exec (.portLinkEnable p false) s = .next (((s.setFld (plink p 0) 0 1 0).startedDone p).portDown p 0 .nothing))
    ∧ (s.pstate p = psUp → s.bit (plink p 0) 0 = true → exec (.portRetrain p) s = .next ((s.setRetrain p 1).portDown p dcTrain .nothing)
        ∧ exec (.portSwatch p) s = .next ((s.setSwatchSc p 1).portDown p dcSwatch .nothing))
    ∧ ((s.port p).sw = none → s.pstate p = psUp → exec (.portHoldDown p true) s = .next ((s.setFld (plink p 0) 5 1 1).portDown p dcHold .hold))
    ∧ (s.pstate p = psHeld → (s.port p).heldBy = .partner → s.bit (plink p 0) 5 = false → exec (.partnerSignalDetected p) s = .next
        (((s.modPort p (fun x => { x with heldBy := .nothing })).setPstate p psDown).startTraining p))
    ∧ ∀ die, die < 4 → exec (.pllLockReturn die) s = .next ((diePorts die).foldl (fun u q => u.startTraining q) (s.setFld 0x208 (6 + die) 1 1))

/-- The swatch (R267, R268): the leader asks, both run a pass each, each tells its lanes, and the set of both is chosen; an ABORT fails the training. A lane
passes phase A exactly where its bit error ratio is at most 10^-BER_EXP. -/
def Obligations.Swatching : Prop :=
  ∀ (s : State) (p : Nat) (w : Swatch) (pass d : BitVec 16) (m : SwatchMeasure), (s.port p).sw = some w →
    let put := fun (v : Swatch) => s.modPort p (fun y => { y with sw := some v })
    (w.phase = .askA → w.leader = true → exec (.tsSwatch p .startA pass d) s = .next (put { w with phase := .runA }))
    ∧ (w.phase = .askA → w.leader = false → exec (.tsSwatch p .startA pass d) s = .next ((put { w with phase := .runA }).sendSwatch p 1 0))
    ∧ (w.phase = .askB → w.leader = true → exec (.tsSwatch p .startB pass d) s = .next (put { w with phase := .runB }))
    ∧ (w.phase = .endA → w.leader = false → exec (.tsSwatch p .startB pass d) s = .next ((put { w with phase := .runB }).sendSwatch p 2 0))
    ∧ (w.phase ≠ .results → exec (.tsSwatch p .result pass d) s = .next (put { w with partner := some pass }))
    ∧ (w.phase = .results → exec (.tsSwatch p .result pass d) s = .next ((put { w with partner := some pass }).chooseSet p w pass))
    ∧ exec (.tsSwatch p .abort pass d) s = .next ((s.abortSwatch p).trainFails p dcSwatch)
    ∧ (w.phase = .runA → w.leader = true → exec (.swatchPhase p m) s = .next ((put { w with own := w.own &&& s.passA p m, phase := .askB }).sendSwatch p 2 0))
    ∧ (w.phase = .runA → w.leader = false → exec (.swatchPhase p m) s = .next (put { w with own := w.own &&& s.passA p m, phase := .endA }))
    ∧ (w.phase = .runB → w.partner = none → exec (.swatchPhase p m) s = .next
        ((put { w with own := w.own &&& s.passB p m.worst, phase := .results, worst := m.worst }).sendSwatch p 3 (w.own &&& s.passB p m.worst)))
    ∧ ∀ l, l < laneCount p → ((s.passA p m).getLsbD l = true ↔ m.errors.getD l m.bits * 10 ^ s.fld (plink p 4) 16 4 ≤ m.bits)

/-! ## Collectives between nodes -/

/-- The messages of a collective that come in fresh from a node not lost, for a communicator of the sender's tag: CONTRIB, RESULT, DATA, COUNT and GRANT
store their transfer; RESEND_REQ, the acknowledgements and NAK act on the transfer that they name; NOT_READY holds the peer. (R150, R158, R159, R164,
R165, R166, R168, R174, R175, R241, R273) -/
def Obligations.CollectiveMessages : Prop :=
  ∀ (s : State) (h : Hdr) (c : CollF) (m : Comm),
    let taken := fun (k : CollKind) (payload : List Byte) => (s.takePkt { hdr := h, body := .coll k c, payload }).2
    let as := fun (k : CollKind) (payload : List Byte) => (s.takePkt { hdr := h, body := .coll k c, payload }).1
    let got := fun (k : CollKind) (payload : List Byte) =>
      ((taken k payload).rxCheck h.src.toNat h.psn h.lup).2.delivered h.src.toNat h.psn h.ce stOk 0
    let open_ := fun (k : CollKind) (payload : List Byte) =>
      (taken k payload).boundOff = false ∧ (taken k payload).isLost h.src.toNat = false ∧ h.src.toNat ≠ (taken k payload).self
        ∧ ((taken k payload).rxCheck h.src.toNat h.psn h.lup).1 = .fresh ∧ (got k payload).comm c.comm.toNat = some m ∧ m.tag = h.ttag
    (∀ payload,
      (open_ .contrib payload → exec (.contrib h c payload) s = .next ((got .contrib payload).storePacket (as .contrib payload) .contrib c).settle)
      ∧ (open_ .result payload → exec (.result h c payload) s = .next ((got .result payload).storePacket (as .result payload) .result c).settle)
      ∧ (open_ .data payload → exec (.data h c payload) s = .next ((got .data payload).storePacket (as .data payload) .data c).settle)
      ∧ (open_ .count payload → exec (.count h c payload) s = .next ((got .count payload).storePacket (as .count payload) .count c).settle)
      ∧ (open_ .grant payload → exec (.grant h c payload) s = .next ((got .grant payload).storePacket (as .grant payload) .grant c).settle))
    ∧ (open_ .resendReq [] → exec (.resendReq h c) s = .next (((got .resendReq []).freePkt (as .resendReq [])).resendNamed c true).settle)
    ∧ (open_ .acceptAck [] → exec (.acceptAck h c) s = .next (((got .acceptAck []).freePkt (as .acceptAck [])).peerAcked c false).settle)
    ∧ (open_ .resultAck [] → exec (.resultAck h c) s = .next (((got .resultAck []).freePkt (as .resultAck [])).peerAcked c true).settle)
    ∧ (open_ .nak [] → exec (.nak h c) s = .next (((got .nak []).freePkt (as .nak [])).takeNak c).settle)
    ∧ (open_ .notReady [] → exec (.notReady h c) s = .next
        (((got .notReady []).freePkt (as .notReady [])).holdPeers
          (fun x => x.comm == c.comm.toNat && x.cseq == c.cseq && x.chunk == c.chunk.toNat) h.src.toNat true).settle)

/-- Timers and slots of collectives: a peer that was not ready is sent to again, a handle that stays unknown ends its collective, a lost chunk fails its
collective, a slot is granted to the request first in turn, and a slot with all of its contributions finishes. (R149, R151, R160, R162, R164, R166,
R169, R176) -/
def Obligations.CollectiveTimersAndSlots : Prop :=
  ∀ (s : State),
    (∀ (comm : BitVec 24) (node : BitVec 20), exec (.notReadyRetry comm node) s = .next
        ((s.unready comm.toNat node.toNat).foldl (fun u x => (u.holdPeers (fun y => y == x) node.toNat false).sendXfer x node.toNat) s).settle)
    ∧ (∀ (comm : BitVec 24) (node : BitVec 20) x c r, s.unready comm.toNat node.toNat = [x] → x.comm = comm.toNat →
        s.collAt comm.toNat x.cseq = some c → s.run? c.rid = some r →
        exec (.handleTimeout comm node) s = .next (({ s with xfers := s.xfers.filter (fun y => !(x.chunk == y.chunk && x.kind == y.kind
          && y.comm == comm.toNat && y.cseq == x.cseq && y.peers.all (fun z => z.node == node.toNat))) } : State).completeWith r stMismatch).settle)
    ∧ (∀ p h c m, let a := s.takePkt { hdr := h, body := .coll .chunkLoss c, payload := [] }
        s.boundOff = false → s.isLost h.src.toNat = false → c.opcode ≠ 0x40 → a.2.comm c.comm.toNat = some m → m.tag = h.ttag →
        exec (.chunkLoss p h c) s = .next ((a.2.freePkt a.1).loseChunk c.comm.toNat c.cseq c.opcode c.chunk.toNat [] (some h.src.toNat)).settle)
    ∧ (∀ c q h, s.comms.map (·.1) = [h] → s.slots = [] → s.rticks = [] → s.nextRequest h = some (c, q) → c.op ≠ 0x31 →
        exec .slotGrant s = .next (s.grantSlot c q true).settle)
    ∧ ∀ n y c r, Tab.get (fun _ => none) s.slots n = some y → s.collAt y.comm y.cseq = some c → s.run? c.rid = some r → c.op ≠ 0x40 →
        c.slotTotal y.chunk ≤ y.got → (c.op = 0x36 → c.grantsIn = true) → exec (.slotFinish n) s = .next (s.finishSlot r c n y).settle

/-! ## Lost nodes, ranks and frogs -/

/-- Binding off and losing nodes: what an accounting sweep corrects is counted and reported; a disagreement, a retirement order, the watchdog and the loss
of the system clock bind the node off; a bound-off node holds its ports; a neighbour down on every link is declared lost; a DEAD_NODE notice is passed
on and acted on. (R28, R299, R300, R301, R302, R304, R342, R432) -/
def Obligations.LosingNodes : Prop :=
  ∀ (s : State),
    (exec (.accountingSweep .clean) s = .next (s.count 0x200008))
    ∧ (∀ st b, exec (.accountingSweep (.corrected st b)) s = .next
        (((s.count 0x200008).count 0x200000).raise 0 accountingCorrected noQueue 0 (acctCode st) (if b then 1 else 0) 0))
    ∧ (∀ st, exec (.accountingSweep (.disagree st)) s = .next ((s.count 0x200008).bindOff 1))
    ∧ exec (.failRetire 0 0xB1D00FF5) s = .next (s.bindOff 6) ∧ exec .watchdogExpire s = .next (s.bindOff 7)
    ∧ exec (.pllLockLoss .sys) s = .next (((s.count 0x200140).setFld 0x208 0 4 0).bindOff 4)
    ∧ (s.boundOff = true → exec .bindOffSquelch s = .next ((List.range 36).foldl (fun u p =>
        if u.pstate p = psHeld then u.modPort p (fun x => { x with heldBy := .boundOff }) else u.portDown p dcNodeBindOff .boundOff) s))
    ∧ (∀ (x : BitVec 20) d, s.confirmDim x.toNat = some d → s.diff s.self x.toNat = [d] → s.allDown x.toNat d = true → s.boundOff = false → x.toNat ≠ s.self →
        exec (.deadConfirm x) s = .next (s.declareLost x.toNat 1))
    ∧ (∀ p h n, let a := s.consume { hdr := h, body := .notice .deadNode n, payload := [] }
        a.boundOff = false → a.isLost h.src.toNat = false → h.src.toNat ≠ a.self → a.noticeFresh .deadNode h.src n = true → (n.reason = 1 ∨ n.reason = 2) →
        exec (.deadNode p h n) s = .next (((a.noteFseq .deadNode h.src n).forwardNotice p .deadNode h n).actLost n.subject.toNat).settle)
    ∧ (s.lost.contains s.self = false → s.actLost s.self = s.bindOff 5)

/-- A fresh DEAD_NODE notice from another node, which is not lost, and with a REASON that is not reserved, that names this node: it is passed on and the
node binds off with cause DECLARED_LOST, 5. (R274, R299, R301, R302, R304) -/
def Obligations.DeadNodeNamingItself : Prop :=
  ∀ (s : State) (p : Nat) (h : Hdr) (n : NoticeF),
    let a := s.consume { hdr := h, body := .notice .deadNode n, payload := [] }
    let u := (a.noteFseq .deadNode h.src n).forwardNotice p .deadNode h n
    a.boundOff = false → a.isLost h.src.toNat = false → h.src.toNat ≠ a.self → a.noticeFresh .deadNode h.src n = true → (n.reason = 1 ∨ n.reason = 2) →
    n.subject.toNat = u.self → u.lost.contains u.self = false →
      exec (.deadNode p h n) s = .next (u.bindOff 5).settle ∧ (u.boundOff = false → (u.bindOff 5).boundOff = true ∧ (u.bindOff 5).fld 0x170004 8 8 = 5)

/-- The first cause binds the node off; while it is bound off no further cause changes anything. (R299, R300) -/
def Obligations.BindOffOnce : Prop :=
  ∀ (s : State) (cause : Nat),
    (s.boundOff = false → (s.bindOff cause).boundOff = true) ∧ (s.boundOff = true → s.bindOff cause = s)
    ∧ ∀ c, (s.bindOff cause).bindOff c = s.bindOff cause

/-- Claims and frogs: a fresh rank claim is passed on and applied, a claim settles, a rank that no spare can take is abandoned, a frog request, the end of
its vote wait and its restore act on the job's frog, a unit is saved before it changes, lines that the host may hold are snooped before a restore or
a save writes them, a darning read is taken, a darning that has every unit ends, and the job commands FROG and SET_STEP act. (R310, R311, R319, R320,
R321, R322, R324, R325, R326, R327, R343, R350) -/
def Obligations.RanksAndFrogs : Prop :=
  ∀ (s : State) (p : Nat) (h : Hdr),
    (∀ n, let a := s.consume { hdr := h, body := .notice .rankClaim n, payload := [] }
      a.boundOff = false → a.isLost h.src.toNat = false → h.src.toNat ≠ a.self → a.noticeFresh .rankClaim h.src n = true →
      exec (.rankClaim p h n) s = .next
        (((a.noteFseq .rankClaim h.src n).forwardNotice p .rankClaim h n).applyClaim n.comm.toNat n.rank.toNat n.subject.toNat n.cgen).settle)
    ∧ (∀ (job : BitVec 24) shard units, ∃ t : State, exec (.claimSettle job shard units) s = .next t.settle ∧ (t.job job.toNat).settled = true
        ∧ (∀ x ∈ t.claims, x.job = job.toNat → x.phase ≠ .sent) ∧ t.pool = s.pool ∧ t.regs = s.regs ∧ t.queues = s.queues)
    ∧ (∀ (comm : BitVec 24) (rank : BitVec 20) c r, s.comm comm.toNat = some c → c.ranks[rank.toNat]? = some r → s.openRank r = true →
        s.noSpareLeft c.job = true → exec (.rankAbandoned comm rank) s = .next (s.abandon comm.toNat rank.toNat).settle)
    ∧ (∀ c, let a := s.consume { hdr := h, body := .coll .chunkLoss c, payload := [] }
      a.boundOff = false → a.isLost h.src.toNat = false → exec (.frogRequest p h c) s = .next (a.takeFrog p h c).settle)
    ∧ (∀ (job : BitVec 24) f, (s.job job.toNat).frog = some f → f.phase = .noCommit → exec (.frogVoteWait job) s = .next (s.frogDone job.toNat f).settle)
    ∧ (∀ (job : BitVec 24) f comm t, (s.job job.toNat).frog = some f → (s.job job.toNat).commit = some comm → f.phase = .restore → f.target = some t →
        let a := (s.frogRestore comm ((s.rankHere comm).getD 0) t).needRestore comm
        let u := a.rebuildLines comm ((a.rankHere comm).getD 0)
        let v := u.frogDone job.toNat f
        (s.undoMarked comm = [] → (u.job job.toNat).again = false → exec (.frogRestoreDone job) s = .next v.settle.retryLatoms)
        ∧ (s.undoMarked comm = [] → (u.job job.toNat).again = true → exec (.frogRestoreDone job) s = .next
          ((v.setJob job.toNat { v.job job.toNat with again := false }).frogCause job.toNat 5 comm none).settle.retryLatoms)
        ∧ (s.undoMarked comm ≠ [] → exec (.frogRestoreDone job) s = .next (s.snoopLines (s.undoMarked comm))))
    ∧ (∀ (comm : BitVec 24) unit j, s.journal? comm.toNat = some j → j.jmode = false → j.committed = true → j.saved.contains unit = false →
        unit < j.n + j.np → s.lineLost (j.base + unit * UNIT) UNIT = false →
        (s.markedLines (j.undo unit) UNIT = [] → exec (.unitSaveDone comm unit) s = .next (s.saveUnit j unit).settle.retryLatoms)
        ∧ (s.markedLines (j.undo unit) UNIT ≠ [] → exec (.unitSaveDone comm unit) s = .next (s.snoopLines (s.markedLines (j.undo unit) UNIT))))
    ∧ (∀ r, let a := s.consume { hdr := h, body := .request r, payload := [] }
      a.boundOff = false → h.src.toNat ≠ a.self → a.lost.contains h.src.toNat = false → (a.rxCheck h.src.toNat h.psn h.lup).1 = .fresh →
      exec (.darningRead h r) s = .next ((a.rxCheck h.src.toNat h.psn h.lup).2.takeDarning h r []).settle)
    ∧ (∀ job : BitVec 24, s.darned job.toNat = true → let xs := s.claims.filter (fun x => x.job == job.toNat)
      exec (.darningDone job) s = .next ((xs.foldl (fun u x => u.finishClaim x) s).frogAfter job.toNat (xs.head?.elim 0 (fun x => x.comm))).settle)
    ∧ (∀ f x, s.bit (page f 0x1140) 31 = false → let a := s.setFld (page f 0x1140) 24 2 0
      a.jobCommOf f = some x → exec (.jobFrog f) s = .next ((a.frogCause x.2.job 5 x.1 none).jobDone f 1).settle)
    ∧ (∀ f x, s.bit (page f 0x1140) 31 = false → let a := s.setFld (page f 0x1140) 24 2 1
      a.jobCommOf f = some x → a.jobBusy x.2.job = false → a.reg64 (page f 0x1148) ≠ BitVec.allOnes 64 →
      ((a.job x.2.job).commit = none ∨ (a.job x.2.job).commit = some x.1) →
      exec (.jobSetStep f) s = .next ((a.setStep x.1 x.2 (a.reg64 (page f 0x1148))).jobDone f 1))

/-! ## The checkpoint tier, the store and the pool -/

/-- The tier: the oldest version of an object that is being written becomes current when it is durable, and its PERS completes with INFO its length, but
not while hot NAND pauses writes; the governor's tick grants its rate up to its depth; scans, failed blocks and the NV commands act, and the tier comes
ready. (R80, R333, R334, R335, R337, R338, R340, R341, R343, R443, R459) -/
def Obligations.TierCommands : Prop :=
  ∀ (s : State),
    (∀ (obj : DWord) o rid v rest r, s.tier.find? (fun o => o.obj == obj.toNat && !o.writing.isEmpty) = some o → o.writing = (rid, v) :: rest →
      let t := s.setTobj { o with cur := some v, prev := o.cur, writing := rest }
      let u := (({ t with govCredit := t.govCredit - v.data.length } : State).media (mediaBytes v.data.length)).showGov
      s.pwr.nandPaused = false → u.run? rid = some r → exec (.persDurable obj) s = .next (u.complete { r with info := BitVec.ofNat 64 v.data.length }).settle)
    ∧ (∀ a b, ∃ t : State, exec (.governorTick a b) s = .next t ∧ { t with regs := s.regs, ev := s.ev, govRate := s.govRate, govCredit := s.govCredit } = s
        ∧ t.counter 0x230060 = s.counter 0x230060 + (if s.bit 0x180004 16 then 10 ^ 6 else 0)
        ∧ t.govCredit = min (s.govCredit + t.govRate) (s.fld 0x180000 8 8 * 2 ^ 36) ∧ t.fld 0x180004 0 16 = t.govCredit / 2 ^ 30 % 2 ^ 16)
    ∧ (∀ b, (s.pwr.nandPaused = false → exec (.retentionScan b true) s = .next ((s.count 0x230048 (2 ^ 23)).media (2 ^ 23)))
        ∧ exec (.retentionScan b false) s = .next s)
    ∧ (s.pwr.nandPaused = true → (∀ obj, exec (.persDurable obj) s = .next s) ∧ ∀ b, exec (.retentionScan b true) s = .next s)
    ∧ (∀ b pg avail, ∃ t : State, exec (.nandBlockFail b pg avail) s = .next t ∧ t.counter 0x230050 = s.counter 0x230050 + 1 ∧ t.pool = s.pool
        ∧ (pg = .staged → t.tier = s.tier ∧ t.counter 0x230058 = s.counter 0x230058)
        ∧ (pg = .rebuilt → t.tier = s.tier ∧ t.counter 0x230058 = s.counter 0x230058 + 1)
        ∧ ∀ f obj o v, pg = .lost f obj → s.tobj? f obj.toNat = some o → o.cur = some v →
          t.tobj? f obj.toNat = some { o with cur := o.prev, prev := none } ∧ t.counter 0x230068 = s.counter 0x230068 + 1)
    ∧ (∀ f v, s.bit (page f 0x1214) 31 = false → s.nvReady = true → let a := s.setFld (page f 0x1214) 0 2 0
      a.nvVersion f = some v → exec (.nvQuery f) s = .next
        (((a.setReg64 (page f 0x1220) (BitVec.ofNat 64 v.data.length)).setReg64 (page f 0x1228) v.step).nvDone f 1))
    ∧ (∀ f v, s.bit (page f 0x1214) 31 = false → s.nvReady = true → let a := s.setFld (page f 0x1214) 0 2 1
      let d := a.reg64 (page f 0x1208)
      a.nvVersion f = some v → (raForm d = 0 ∨ raForm d = 3) → raSpace d = 0 → (raForm d = 3 → raNode d = 0) →
        exec (.nvRestore f) s = .next (a.nvRestore f v).settle)
    ∧ (∀ f o, s.bit (page f 0x1214) 31 = false → s.nvReady = true → let a := s.setFld (page f 0x1214) 0 2 2
      a.nvObj f = some o → a.restores = [] → a.nvPrev f = false → o.cur ≠ none →
        exec (.nvDelete f) s = .next ((a.setTobj { o with cur := o.prev, prev := none }).nvDone f 1))
    ∧ (s.nvReady = false → (∀ f, f < 256 → s.bit (page f 0x1214) 31 = false) → exec .nvReady s = .next ((s.setFld 0x200 17 1 1).bumpSeq 0x200).settle)

/-- Sweeps and scrubs: a corrected cell or line is counted, an uncorrectable cell acts on what it held, and an uncorrectable line is lost until it is
rebuilt and frogs the job whose protected range holds it, or binds the node off where none does and no restore needs it. (R279, R280, R289, R290, R291, R292, R297) -/
def Obligations.SweepsAndScrubs : Prop :=
  ∀ (s : State) (off : Nat),
    exec (.storeSweep .corrected) s = .next (s.count 0x220000)
    ∧ (∀ use, exec (.storeSweep (.uncorrectable use)) s = .next ((s.count 0x220008).cellLost use))
    ∧ (off ≠ lastLine → exec (.poolScrub off .clean) s = .next s ∧ exec (.poolScrub off .corrected) s = .next (s.count 0x220040))
    ∧ exec (.poolScrub lastLine .clean) s = .next (s.count 0x220050)
    ∧ (∀ j c, off ≠ lastLine → let a := s.count 0x220048
      a.protectedBy off = some j → a.comm j.comm = some c → exec (.poolScrub off .uncorrectable) s = .next ((a.loseLine (off / 64 * 64)).frogCause c.job 3 j.comm none).settle
        ∧ (off / 64 * 64) ∈ (a.loseLine (off / 64 * 64)).lostLines)
    ∧ (off ≠ lastLine → let a := s.count 0x220048
      a.protectedBy off = none →
      (a.undoNeeded off = false → exec (.poolScrub off .uncorrectable) s = .next (a.bindOff 3))
      ∧ (a.undoNeeded off = true → exec (.poolScrub off .uncorrectable) s = .next a))

/-! ## Host memory and the host window -/

/-- Translations and reads (R349 to R357): an answer with a translation is cached and the streams that wait on its page resume, one without asks for the
page, an error fails them; page responses act likewise; an invalidation drops the translations it covers and is answered, at once or after the reads it
meets; a read's data or its failure goes to what asked for it. -/
def Obligations.HostMemoryAnswers : Prop :=
  ∀ (s : State) (f : Nat) (pasid : BitVec 20) (pg : DWord),
    (∀ pa n w p, s.parksAt f pasid pg .translating = [p] → (p.write = true → w = true) → exec (.translationAnswer f pasid pg (.translation pa n w)) s =
        .next ((s.cacheXlate { f, pasid, va := pg, log2 := n, pa, writable := w }).resumePark p).settle)
    ∧ (∀ pa n w, s.parksAt f pasid pg .translating = [] → s.askedAhead f pasid pg = true → exec (.translationAnswer f pasid pg (.translation pa n w)) s =
        .next (s.cacheXlate { f, pasid, va := pg, log2 := n, pa, writable := w }).settle)
    ∧ (∀ p, s.parksAt f pasid pg .translating = [p] → exec (.translationAnswer f pasid pg .noTranslation) s = .next (s.pageOrFail p).settle
        ∧ exec (.translationAnswer f pasid pg .error) s = .next (s.failPark p).settle)
    ∧ (∀ p, s.parksAt f pasid pg .paging = [p] → exec (.prgResponse f pasid pg .success) s = .next (s.setPark p .waiting).settle
        ∧ exec (.prgResponse f pasid pg .invalidRequest) s = .next (s.failPark p).settle
        ∧ exec (.prgResponse f pasid pg .responseFailure) s = .next ((s.setFunc f { s.func f with priStopped := true }).failPark p).settle
        ∧ exec (.priTimeout f pasid pg) s = .next (s.failPark p).settle)
    ∧ (∀ log2 itag, s.hreads = [] → ∃ t : State, exec (.atsInvalidate f pasid pg log2 itag) s = .next t ∧ t.out = s.out ++ [.invalDone f itag]
        ∧ (∀ x ∈ t.xlates, x ∈ s.xlates) ∧ (∀ x ∈ t.xlates, ¬ (x.f = f ∧ x.pasid = pasid ∧ x.meets pg log2 = true))
        ∧ { t with xlates := s.xlates, ev := s.ev, out := s.out } = s)
    ∧ (∀ tag r, s.hreads.find? (fun r => r.tag == tag) = some r →
        (∀ bytes, exec (.hostReadCompletion tag bytes) s = .next ((s.readEnded tag).ticketData r.ticket r.off (bytes.take r.len)).settle)
        ∧ ∀ why, exec (.hostReadError tag why) s = .next (((s.readEnded tag).count 0x240038).ticketFail r.ticket stTranslation r.va 3).settle)

/-- The host window and dirty logging: where CXL runs and the decoder is committed, a read tells its line and marks it, a write is counted and
stored, both wait while the window holds; a snoop's answer writes a dirty line back and unmarks it, a flush snoops every marked line, a host snoop is answered RspIHitI, the decoder commits, and dirty
logging is switched. (R294, R295, R345, R350, R351, R357, R358, R359, R371) -/
def Obligations.HostWindow : Prop :=
  ∀ (s : State) (line f : Nat),
    (∀ bs u, s.winPresent = true → s.winHolds line = false → s.winLine line = some (bs, u) → ∃ t : State, exec (.windowRead line) s = .next t
        ∧ t.out = u.out ++ [.windowData line bs (u.winPoison.contains line)] ∧ line ∈ t.winDir ∧ t.pool = u.pool)
    ∧ (∀ bytes, s.winPresent = true → s.winHolds line = false → (s.fld 0x150050 0 2 = 1 ∨ s.fld 0x150050 0 2 = 2) →
        exec (.windowWrite line bytes) s = .next ((s.count 0x220058).winWrite line bytes))
    ∧ (∀ bytes, s.winPresent = true → s.winHolds line = true → exec (.windowRead line) s = .next { s with winHeld := s.winHeld ++ [.windowRead line] }
        ∧ exec (.windowWrite line bytes) s = .next { s with winHeld := s.winHeld ++ [.windowWrite line bytes] })
    ∧ (∀ bytes, s.winPresent = false → exec (.windowRead line) s = .next s ∧ exec (.windowWrite line bytes) s = .next s)
    ∧ (∀ dirty, s.winDir = [line] → let u := dirty.elim s (fun bs => s.winWrite line bs)
        exec (.birsp line dirty) s = .next ((({ u with winDir := [] } : State).setDirEmpty).setFld 0x190008 0 1 0).settle.retryLatoms)
    ∧ (s.winDir = [] → exec .hostWinFlush s = .next (s.setFld 0x190008 0 1 0))
    ∧ (s.winDir ≠ [] → ∃ t : State, exec .hostWinFlush s = .next t ∧ t.out = s.out ++ s.winDir.map .biSnp ∧ t.bit 0x190008 0 = true
        ∧ { t with regs := s.regs, ev := s.ev, out := s.out } = s)
    ∧ (∀ a, exec (.h2dSnoop a) s = .next (s.emit (.rspIHitI a)))
    ∧ exec .hdmDecoderCommit s = .next (s.setFld 0x190000 17 1 1)
    ∧ exec (.hostDlogEnable f true) s = .next
        (((s.setFld (dlogBase f + 8) 4 1 1).setReg (dlogBase f + 0xC) 0).setFunc f { s.func f with dlogFilter := [] })
    ∧ exec (.hostDlogEnable f false) s = .next (s.setFld (dlogBase f + 8) 4 1 0)
    ∧ exec (.hostDlogRound f) s = .next (s.setFunc f { s.func f with dlogFilter := [] })
    ∧ exec (.hostDlogPause f true) s = .next (s.setFld (dlogBase f + 8) 5 1 1).settle
    ∧ exec (.hostDlogPause f false) s = .next ((s.setFld (dlogBase f + 8) 5 1 0).setFld (dlogBase f + 0x14) 9 1 0).settle

/-! ## Accelerators -/

/-- An accelerator's answers and requests (R364 to R370): an answer ends its operation, good or failed; a doorbell or a counter message within the grant
of the owner acts as the owner's own write does; a local read, write or atomic that passes its key check acts on pooled memory and is answered; a message
is transmitted again within its tries; an accelerator whose ports are all down, or that does not acknowledge a packet within its tries, is lost. -/
def Obligations.AcceleratorMessages : Prop :=
  ∀ (s : State) (a : Nat) (tag : BitVec 16),
    (∀ o, (s.accel a).ops.find? (fun o => o.tag == tag && o.kind == .awr) = some o →
      exec (.placeRsp a tag .ok) s = .next ((s.aopDone a o).ticketPlaced o.ticket).settle
      ∧ exec (.placeRsp a tag .addrError) s = .next (s.aopFails a o false).settle ∧ exec (.placeRsp a tag .poison) s = .next (s.aopFails a o true).settle)
    ∧ (∀ o roff bytes, (s.accel a).ops.find? (fun o => o.tag == tag && o.kind == .ard) = some o → o.len ≤ o.got + bytes.length →
      exec (.ardData a tag roff bytes .ok) s = .next ((s.aopDone a o).ticketData o.ticket o.off ((patchBytes o.data roff bytes).take o.len)).settle)
    ∧ (∀ o old, (s.accel a).ops.find? (fun o => o.tag == tag && o.kind == .aatom) = some o →
      exec (.aatomRsp a tag old .ok) s = .next ((s.aopDone a o).atomicAnswered o.ticket old).settle)
    ∧ (∀ (q : BitVec 14) (v : DWord) g, let f := s.accOwner a
      let lo : Word := v.extractLsb' 0 32
      let hi : Word := v.extractLsb' 32 32
      s.globalQ f q.toNat = some g →
      ((s.queue g).created = true → s.resetting f = false → s.boundOff = false →
        exec (.doorbell a q 0x08 v) s = .next (s.bellPi f g lo) ∧ exec (.doorbell a q 0x0C v) s = .next (s.bellCci f g lo).settle)
      ∧ exec (.doorbell a q 0x00 v) s = .next
        ((s.bell f q.toNat (fun u g => u.bellPi f g lo)).bell f q.toNat (fun u g => u.bellCci f g hi)).settle
      ∧ (∀ off, off ≠ 0x00 → off ≠ 0x08 → off ≠ 0x0C → exec (.doorbell a q off v) s = .next (s.count (attCtr a 0x10)))
      ∧ exec (.doorbell a q 0x08 v) s = exec (.dbPi f q.toNat lo) s ∧ exec (.doorbell a q 0x0C v) s = exec (.dbCci f q.toNat lo) s)
    ∧ (∀ (q : BitVec 14) off v, s.globalQ (s.accOwner a) q.toNat = none → exec (.doorbell a q off v) s = .next (s.count (attCtr a 0x10)))
    ∧ (∀ (c : BitVec 15) v n, s.globalC (s.accOwner a) c.toNat = some n →
      exec (.counter a c .add v) s = .next (s.setRowc n (rowAdd (s.rowc n) v)).settle
      ∧ exec (.counter a c .write v) s = .next (s.setRowc n v).settle
      ∧ exec (.counter a c .setErr v) s = exec (.cntSeterr (s.accOwner a) c.toNat 1) s
      ∧ exec (.counter a c .clrErr v) s = exec (.cntClrerr (s.accOwner a) c.toNat 2) s
      ∧ exec (.cntRd a tag c) s = .next (s.attachSend a { amsg 0x08 with tag := tag, arg0 := s.rowc n }))
    ∧ (∀ addr len key, s.accelCheck a key 0x12 addr len = none → s.lineLost addr.toNat len = false →
      exec (.lrd a tag addr len key) s = .next (s.attachSend a { amsg 0x05 with tag := tag, payload := s.pread addr.toNat len }))
    ∧ (∀ addr key payload, s.accelCheck a key 0x10 addr payload.length = none → s.markedLines addr.toNat payload.length = [] →
      s.writeWaits addr.toNat payload.length = false →
      exec (.lwr a tag addr key payload) s = .next ((s.pwrite addr.toNat payload).ticketPlaced (.accelMsg a tag (keyIndex key))))
    ∧ (∀ addr key cas size operand swap, let n := if size then 8 else 4
      s.accelCheck a key 0x18 addr n = none → addr.toNat % n = 0 → s.poolBusy addr.toNat n = false →
      let x := s.poolAtomic addr.toNat cas size operand swap
      exec (.latom a tag addr key cas size operand swap) s = .next
        (x.2.2.attachSend a { amsg 0x07 with tag := tag, arg0 := x.1, arg2 := if cas && x.2.1 then 1 else 0 }))
    ∧ (∀ psn p n m, (s.accel a).retained.find? (fun r => r.1 == psn) = some (p, n, m) → n < s.fld 0x1A0040 16 5 →
      exec (.attachRetransmit a psn) s = .next (((s.setAccel a { s.accel a with
        retained := (s.accel a).retained.map (fun r => if r.1 == psn then (p, n + 1, m) else r) }).count (attCtr a 0)).attachXmit a p m))
    ∧ (∀ psn x, (s.accel a).retained.find? (fun r => r.1 == psn) = some x → s.fld 0x1A0040 16 5 ≤ x.2.1 →
      exec (.attachRetransmit a psn) s = .next (((s.accel a).links.foldl (fun u l => u.attachPortDown l.1) s).loseAccel a).settle)
    ∧ (s.accPresent a = true → (∀ l ∈ (s.accel a).links, s.portUp l.1 = false) → exec (.accelLost a) s = .next (s.loseAccel a).settle)

/-! ## Scheduling, samples, monitors and key slots -/

/-- Scheduling and rings: QUEUE_SCHED without a rate sets a queue's weight, a bucket refills up to its depth, a sample or fault ring that is enabled
starts at PI 0, a sample period records every queue, and a sample ring that is disabled keeps only the record in flight. Where a bucket of a queue does
not hold the 64 B of a start, none of its instructions starts. (R378, R379, R381, R382,
R383, R384, R385, R425, R426, R427) -/
def Obligations.SchedulingAndRings : Prop :=
  ∀ (s : State) (f g n : Nat),
    (s.bit (page f 0x1060) 31 = false → s.globalQ f (s.fld (page f 0x1060) 0 14) = some g → (s.queue g).created = true →
      s.fld (page f 0x1060) 16 4 ≠ 0 → s.bit (page f 0x1060) 21 = false →
      exec (.queueSched f) s = .next ((((s.setQueue g { s.queue g with weight := s.fld (page f 0x1060) 16 4 }).setFld (page f 0x1060) 31 1 0).setResult
        (page f 0x1068) 1)).settle)
    ∧ exec (.tokenBucketRefill (.queue g) n) s = .next
        (s.setQueue g { s.queue g with tokens := min ((s.queue g).tokens + n) (s.bucketDepth (.queue g)) }).settle
    ∧ exec (.tokenBucketRefill (.shaper f) n) s = .next
        (s.setFunc f { s.func f with tokens := min ((s.func f).tokens + n) (s.bucketDepth (.shaper f)) }).settle
    ∧ (s.fld (page f 0x108C) 1 2 ≤ 1 → ∃ t : State, exec (.sampleEnable f true) s = .next t ∧ t.bit (page f 0x108C) 0 = true
        ∧ t.reg (page f 0x1094) = 0 ∧ (t.func f).snum = 0 ∧ t.recs .sample f = [] ∧ t.queues = s.queues ∧ t.pool = s.pool)
    ∧ (∃ t : State, exec (.sampleEnable f false) s = .next t ∧ t.bit (page f 0x108C) 0 = false ∧ t.recs .sample f = (s.recs .sample f).take 1)
    ∧ (s.bit (page f 0x108C) 0 = true → let u := s.setFunc f { s.func f with snum := (s.func f).snum + 1 }
        exec (.samplePeriod f) s = .next (u.sampleAll f (u.func f).snum (u.queuesOf f)))
    ∧ (s.fld (page f 0x190C) 1 2 ≤ 1 → ∃ t : State, exec (.faultqEnable f true) s = .next t ∧ t.bit (page f 0x190C) 0 = true
        ∧ t.reg (page f 0x1914) = 0 ∧ (t.func f).irqSent = false ∧ t.recs .fault f = [] ∧ t.queues = s.queues ∧ t.pool = s.pool)
    ∧ (s.bucketsAllow g 64 = false → ∀ c ∈ ([Instr.nop, .put, .puti, .get, .copy, .fadd, .cas, .signal, .mark, .wait, .fence, .flush, .ared, .snap]
        : List (Nat → Instr)), exec (c g) s = .next s.settle)

/-- Monitors and key slots: a monitor whose control is legal runs when it is enabled, one whose control is not is counted and stays as it was, a running
one drains when it is disabled and is off when it has drained; a key slot is asked, loaded or cleared. (R386, R387, R393, R394, R395, R396) -/
def Obligations.MonitorsAndKeySlots : Prop :=
  ∀ (s : State) (f m : Nat),
    (s.monCtlOk f m = true → exec (.monEnable f m true) s = .next ((s.setFld (monReg f m 0) 0 1 1).setFld (monReg f m 0x28) 8 2 1))
    ∧ (s.monCtlOk f m = false → exec (.monEnable f m true) s = .next (s.count 0x250040))
    ∧ (s.bit (monReg f m 0) 0 = true → exec (.monEnable f m false) s = .next ((s.setFld (monReg f m 0) 0 1 0).setFld (monReg f m 0x28) 8 2 2))
    ∧ (s.fld (monReg f m 0x28) 8 2 = 2 → (∀ x ∈ s.mons, ¬ (x.f = f ∧ x.m = m)) → (s.setFld (monReg f m 0x28) 8 2 0).bit (monReg f m 0) 2 = false →
        exec (.monDrainDone f m) s = .next (s.setFld (monReg f m 0x28) 8 2 0))
    ∧ (∀ n op, s.bit (page f 0x1340) 31 = false → let u := s.setFld (page f 0x1340) 16 2 op
        u.kslotOf f (u.fld (page f 0x1340) 0 8) = some n →
        (op = 0 → u.kslot n ≠ {} → ∃ t : State, exec (.keyslotQuery f) s = .next t ∧ State.told u t (page f 0x1344) 1
          ∧ t.reg64 (page f 0x1348) = keyCheckValue (u.kslot n).a ∧ t.kslots = s.kslots)
        ∧ (op = 1 → 32 ≤ u.fld (page f 0x1340) 8 7 → u.fld (page f 0x1340) 8 7 ≤ 64 → u.tagsOn n = [] →
          exec (.keyslotLoad f) s = .next (u.keyslotAct f 1))
        ∧ (op = 2 → u.tagsOn n = [] → exec (.keyslotClear f) s = .next (u.keyslotAct f 2)))

/-! ## Security -/

/-- The security commands outside RECOVERY: ATTEST and CERTS write their bytes to a buffer that holds them, EXTEND extends MR6 or MR7 alone and refuses
any other, an UPDATE that verifies is written to its slot and one that does not tells why, and ADVANCE_SVN raises the stored minimum to the running
image's. (R402, R403, R405, R406) -/
def Obligations.SecurityCommands : Prop :=
  ∀ (s : State), s.bit 0x8014 31 = false → s.inRecovery = false →
    let a := fun (op : Nat) => s.setFld 0x8014 0 4 op
    (8192 ≤ (a 0).secLen → s.hostReach 0 = true → exec (.attest true) s = .next
        ((if ((a 0).attestReport (a 0).secArg).isEmpty then a 0
          else (a 0).emit (.hostWrite 0 0 false ((a 0).reg64 0x8008) ((a 0).attestReport (a 0).secArg))).setResult 0x8018 1))
    ∧ (s.hostReach 0 = true → exec (.certs true) s = .next (if (a 1).secLen < (a 1).certBytes.length then (a 1).setResult 0x8018 2
        else ((a 1).emit (.hostWrite 0 0 false ((a 1).reg64 0x8008) (a 1).certBytes)).setResult 0x8018 1))
    ∧ (∀ mr : BitVec 3, (mr = 6 ∨ mr = 7) → ∃ t : State, exec (.extend mr) s = .next t ∧ State.told s t 0x8018 1
        ∧ t.mr mr.toNat = sha3_512 (s.mr mr.toNat ++ s.secArg) ∧ (∀ i, i ≠ mr.toNat → t.mr i = s.mr i)
        ∧ { t with regs := s.regs, mrs := s.mrs } = s)
    ∧ (∀ mr : BitVec 3, mr ≠ 6 → mr ≠ 7 → ∃ t : State, exec (.extend mr) s = .next t ∧ State.told s t 0x8018 4 ∧ t.mrs = s.mrs)
    ∧ (∀ image, let img := image.take (a 3).secLen
      8193 ≤ img.length → s.hostReach 0 = true → (hdrNat img 6 1 = 1 ∨ hdrNat img 6 1 = 2 ∨ hdrNat img 6 1 = 3) →
      exec (.update image true) s = .next (if (a 3).verifyImage (hdrNat img 6 1) img = 0
        then ((a 3).writeSlot (img.take (8192 + hdrNat img 16 8))).setResult 0x8018 1
        else ((a 3).setFld 0x8000 4 4 ((a 3).verifyImage (hdrNat img 6 1) img)).setResult 0x8018 3))
    ∧ ((a 4).sec.svn < (a 4).runningSvn → ∃ t : State, exec .advanceSvn s = .next t ∧ State.told s t 0x8018 1 ∧ t.sec.svn = (a 4).runningSvn
        ∧ { t with regs := s.regs, sec := s.sec } = s)

/-! ## The register space -/

/-- Bit b of the register at offset o of the window that WIN selects lies at the word at 0x0080_0000 + (o × 32 + b) × 4, a write of that word writes that
bit alone, a new WIN holds for what comes after it, and an access that came before the write of WIN acts on the window it came for. (R414) -/
def Obligations.AliasBits : Prop :=
  ∀ (s : State) (o b : Nat), o < 0x10000 → o % 4 = 0 → b < 32 →
    let r := 0x100000 + 0x10000 * s.fld 0x110 0 4 + o
    s.aliasOf (0x800000 + (o * 32 + b) * 4) = some (r, b)
    ∧ (∀ v, (accMask (fun _ => true) r).getLsbD b = true → exec (.aliasWrite (0x800000 + (o * 32 + b) * 4) v) s = .next
        (s.wordWrite 0 r (if v.getLsbD 0 then bitMask b 1 else 0) (bitMask b 1)))
    ∧ (∀ w : Nat, w < 16 → ∃ t : State, exec (.registerWrite 0 0x110 (BitVec.ofNat 32 w)) s = .next t
        ∧ t.aliasOf (0x800000 + (o * 32 + b) * 4) = some (0x100000 + 0x10000 * w + o, b))
    ∧ ∀ v w rest, (accMask (fun _ => true) r).getLsbD b = true →
        step { s with pending := .aliasWrite (0x800000 + (o * 32 + b) * 4) v :: .registerWrite 0 0x110 w :: rest } = .next
          (({ s with pending := .registerWrite 0 0x110 w :: rest } : State).wordWrite 0 r (if v.getLsbD 0 then bitMask b 1 else 0) (bitMask b 1))

/-- COMMIT and DISCARD with GEN = CURRENT + 1: an accepted set is applied and every block's status told; with nothing staged CURRENT advances and RESULT
is 1; a discard returns every staged field and keeps every other register; any other GEN is counted and answered GEN_STALE with the staged set as it
was. (R410, R412, R413) -/
def Obligations.CommitAndDiscard : Prop :=
  ∀ (s : State) (gen : BitVec 16), s.bit 0x100 16 = false →
    (gen.toNat = (s.fld 0x100 0 16 + 1) % 2 ^ 16 → (s.blockChecks s.candidate).all (fun b => b.2.2.2.2.1 == 1) = true →
      exec (.globalCommit gen) s = .next ((s.commitApply s.candidate).blockStatus (s.blockChecks s.candidate)).settle)
    ∧ (gen.toNat = (s.fld 0x100 0 16 + 1) % 2 ^ 16 → s.staged = [] → ∃ t : State, exec (.globalCommit gen) s = .next t.settle
        ∧ t.fld 0x100 0 16 = gen.toNat ∧ State.told s t 0x108 1 ∧ t.fld 0x108 12 4 = 0)
    ∧ (gen.toNat = (s.fld 0x100 0 16 + 1) % 2 ^ 16 → ∃ t : State, exec (.globalDiscard gen) s = .next t ∧ t.staged = [] ∧ State.told s t 0x108 4
        ∧ (∀ x, x ≠ 0x108 → t.reg x = s.reg x) ∧ { t with regs := s.regs, staged := s.staged } = s)
    ∧ (gen.toNat ≠ (s.fld 0x100 0 16 + 1) % 2 ^ 16 → ∃ t : State, exec (.globalCommit gen) s = .next t ∧ exec (.globalDiscard gen) s = .next t
        ∧ t.staged = s.staged ∧ State.told s t 0x108 3 ∧ t.counter 0x200020 = s.counter 0x200020 + 1)

/-- While FREEZE is 1 the readable counters stay at what they were, whatever is counted, and the events are there when it ends; a freeze that has lasted 1
s ends with EXPIRED; a capture takes the readable counters of its function. A write of the SEQ read clears the fields that the register's description
names, and a write of any other value changes nothing. (R411, R418, R419) -/
def Obligations.StatusRegistersAndFreezes : Prop :=
  (∀ (s : State) (f : Nat),
    (s.frozen = none → ∃ t : State, exec (.cntFreeze true) s = .next t ∧ t.bit 0x120 0 = true ∧ t.bit 0x120 1 = false
        ∧ (∀ a, t.liveCounter a = s.counter a) ∧ (∀ a n b, (t.count a n).liveCounter b = s.counter b)
        ∧ ∃ u : State, exec (.cntFreeze false) t = .next u ∧ u.bit 0x120 0 = false ∧ ∀ a, u.liveCounter a = t.counter a)
    ∧ (s.bit 0x120 0 = true → exec .freezeExpire s = .next { (s.setFld 0x120 0 1 0).setFld 0x120 1 1 1 with frozen := none })
    ∧ ∃ t : State, exec (.cntSnap f) s = .next t ∧ t.snaps = Tab.put (fun _ => []) s.snaps f (s.capture f)
        ∧ t.fld (page f 0x1700) 8 8 = (s.fld (page f 0x1700) 8 8 + 1) % 256 ∧ { t with regs := s.regs, snaps := s.snaps } = s)
  ∧ (∀ (s : State) (a : Nat) (m v : Word), seqClear a = some m → v &&& ~~~ accMask (fun _ => true) a = 0 →
    (extractBits v 0 8 = s.fld a 0 8 → exec (.statusSeqWrite 0 a v) s = .next (s.setReg a (s.reg a &&& ~~~ m)))
    ∧ (extractBits v 0 8 ≠ s.fld a 0 8 → exec (.statusSeqWrite 0 a v) s = .next s))

/-! ## Resets, power and the management port -/

/-- Resets of the node: a cold reset is one operation, whatever asks for it; a pool that is not yet ready comes ready; a node whose phase, pool, links and
time allow it casts on; a fresh CAST_ON is acted on and passed on; the management key is loaded and erased. (R439, R442, R443, R444, R445, R452, R453,
R457) -/
def Obligations.NodeResets : Prop :=
  ∀ (s : State) (boot : FlashRead),
    (∀ cause, exec (.coldReset cause boot) s = .next (s.coldReset cause boot))
    ∧ exec (.rstCtl 0 0xC01D5E70) s = .next (s.coldReset .register { slotA := true, slotB := true })
    ∧ (s.pwr.state ≠ .off → exec (.nodeResetN boot) s = .next (s.coldReset .resetPin boot))
    ∧ (s.pwr.state = .off → s.pwr.present = true → s.pwr.latched = false → exec (.powerOn boot) s = .next (s.coldReset .powerOn boot))
    ∧ (∀ frame, s.pwr.state = .standby → s.wakeMatches 0 frame = true → exec (.wakeMatch frame boot) s = .next (s.coldReset .wake boot))
    ∧ (s.poolReady = false → exec .poolReady s = .next s.poolComesReady.winRelease.settle)
    ∧ (s.mayCastOn = true → ∃ t : State, exec .castOnSend s = .next t ∧ t.fld 0x200 8 4 = 4 ∧ t.firstCastOn.isSome = true)
    ∧ (∀ p h n, let a := s.consume { hdr := h, body := .notice .castOn n, payload := [] }
        a.boundOff = false → n.subject.toNat ≠ a.self → Tab.get (fun _ => 0) a.fseqSeen (noticeCode .castOn * 2 ^ 20 + n.subject.toNat) < n.fseq →
        exec (.castOn p h n) s = .next (((a.noteFseq .castOn n.subject n).actCastOn n.subject).forwardNotice p .castOn h n).settle)
    ∧ (∃ t : State, exec .mgtKeyLoad s = .next t ∧ t.mgt.key = some s.mgtKeyBytes ∧ t.bit 0x410 12 = true ∧ ∀ i, i < 8 → t.reg (0x500 + 4 * i) = 0)
    ∧ (∃ t : State, exec .mgtKeyErase s = .next t ∧ t.mgt.key = none ∧ t.bit 0x410 12 = false ∧ { t with regs := s.regs, mgt := s.mgt } = s)

/-- A cold reset: queues, keys, pooled memory, row counters, running instructions, collectives and ports are gone and GLOBAL_TIME is 0; the durable
versions of the tier, the media total, the management key and the time since manufacture stay, RST_STATUS tells the cause, and the commands still to
come and what has left the node are not the node's. (R334, R410, R439, R442, R443) -/
def Obligations.ColdResetKeeps : Prop :=
  ∀ (s : State) (cause : ColdCause) (boot : FlashRead),
    let t := s.coldReset cause boot
    t.pool = [] ∧ t.queues = [] ∧ t.keys = [] ∧ t.runs = [] ∧ t.rowCtr = [] ∧ t.colls = [] ∧ t.ports = [] ∧ t.time = 0
    ∧ t.tier = s.tier.filterMap TObj.durable ∧ t.mediaTotal = s.mediaTotal ∧ t.mgt.key = s.mgt.key ∧ t.epoch = s.epoch + s.time
    ∧ t.pending = s.pending ∧ t.out = s.out ∧ t.fld 0x200 12 4 = coldCode cause

/-- Power. The evaluation raises the throttle by one step, up to 3, where the power limit is passed or a part is too hot and the time of a rise has come, with
CAUSE and counters as R459 has them; lowers it by one where the node has been under for 100 ms; and leaves it otherwise; it shows the sensors and changes
no other state. An active node binds off with cause 4 at PRSNT_N open, at an input voltage out of range, an over-temperature and a power over its limit;
the regulators are to follow but for PRSNT_N; at an input below 42 V power is lost at once. A node that is not active only loses what the event
itself takes. A test reset returns the TAP alone. (R439, R456, R457, R459, R460) -/
def Obligations.PowerControl : Prop :=
  ∀ (s : State),
    (∀ x : Sensors, let hot := s.overPower x || overThermal x
      let rises := hot && decide (s.throttle < 3) && x.riseOk
      ∃ t : State, exec (.throttleEval x) s = .next t ∧ { t with regs := s.regs, ev := s.ev, pwr := s.pwr } = s
        ∧ t.counter 0x200158 = s.counter 0x200158 + (if 0 < s.throttle then 100 else 0)
        ∧ (rises = true → t.throttle = s.throttle + 1 ∧ t.fld 0x604 8 2 = (if s.overPower x then 1 else 0) + (if overThermal x then 2 else 0)
          ∧ t.counter 0x200148 = s.counter 0x200148 + (if s.overPower x then 1 else 0)
          ∧ t.counter 0x200150 = s.counter 0x200150 + (if overThermal x then 1 else 0))
        ∧ (rises = false → s.under x = true → x.underHeld = true → 0 < s.throttle →
          t.throttle = s.throttle - 1 ∧ t.fld 0x604 8 2 = if s.throttle = 1 then 0 else s.fld 0x604 8 2)
        ∧ (rises = false → (s.under x = false ∨ x.underHeld = false ∨ s.throttle = 0) → t.throttle = s.throttle ∧ t.fld 0x604 8 2 = s.fld 0x604 8 2))
    ∧ (let b := s.bindOff 4
      s.pwr.state = .active →
        exec .prsntBreak s = .next { b with pwr := { b.pwr with present := false } }
        ∧ exec .vinUndervoltage s = .next b.powerOff
        ∧ exec .vinOvervoltage s = .next { b with pwr := { b.pwr with offDue := true } }
        ∧ (∀ w, exec (.overTemperature w) s = .next { b with pwr := { b.pwr with offDue := true } })
        ∧ exec .powerOverlimit s = .next { b with pwr := { b.pwr with offDue := true } })
    ∧ (s.pwr.state ≠ .active →
        exec .prsntBreak s = .next { s with pwr := { s.pwr with present := false } } ∧ exec .vinUndervoltage s = .next s.powerOff
        ∧ exec .vinOvervoltage s = .next s ∧ (∀ w, exec (.overTemperature w) s = .next s) ∧ exec .powerOverlimit s = .next s)
    ∧ (s.pwr.offDue = true → exec .regulatorsOff s = .next s.powerOff) ∧ (s.pwr.offDue = false → exec .regulatorsOff s = .next s)
    ∧ (s.pwr.present = false → exec .prsntNMade s = .next { s with pwr := { s.pwr with present := true, latched := false } })
    ∧ (s.pwr.present = true → exec .prsntNMade s = .next s)
    ∧ exec .testReset s = .next { s with pwr := { s.pwr with tap := 0 } }

/-- The management port of an active node: an IDENT, a BUF_READ of what is open and a SEC are answered without a key; a REG_READ, REG_WRITE, BUF_WRITE or
POWER of the right form with a good tag and a new CTR is served, and its answer sent; POWER STANDBY and COLD_RESET answer and then act. (R449, R450,
R451, R452, R457) -/
def Obligations.ManagementPort : Prop :=
  ∀ (s : State) (m : MgmtReq), s.pwr.state = .active → Machine.MgmtReq.plain m →
    let a := s.count 0x200100
    let keyed := { a with mgt := { a.mgt with ctr := m.ctr.toNat } }
    let ok := fun (op : Nat) => a.authentic op m = true
    (m.body = [] → exec (.ident m) s = .next (a.sendFrame (a.responseBytes 1 m.ctr 0 a.identBody false)))
    ∧ (ok 2 → m.body.length = 8 → 0 < bodyNat m 4 → bodyNat m 4 ≤ 256 → bar0Ok (bodyNat m 0) (bodyNat m 4) = true →
        exec (.regRead m) s = .next (keyed.sendFrame (keyed.responseBytes 2 m.ctr 0
          ((List.range (bodyNat m 4)).flatMap (fun i => leBytes 4 (keyed.readReg 0 (bodyNat m 0 + 4 * i)).toNat)) true)))
    ∧ (ok 3 → 0 < bodyNat m 4 → bodyNat m 4 ≤ 256 → m.body.length = 8 + 4 * bodyNat m 4 → bar0Ok (bodyNat m 0) (bodyNat m 4) = true →
        let u := (List.range (bodyNat m 4)).foldl (fun u i => u.regWrite 0 (bodyNat m 0 + 4 * i) (BitVec.ofNat 32 (bodyNat m (8 + 4 * i)))) keyed
        exec (.regWrite m) s = .next (u.sendFrame (u.responseBytes 3 m.ctr 0 [] true)))
    ∧ (ok 4 → 4 ≤ m.body.length → m.body.length ≤ 1028 → bodyNat m 0 + (m.body.length - 4) ≤ bufSize →
        let u := keyed.bufPut (bodyNat m 0) (m.body.drop 4) false
        exec (.bufWrite m) s = .next (u.sendFrame (u.responseBytes 4 m.ctr 0 [] true)))
    ∧ (m.body.length = 8 → 0 < bodyNat m 4 → bodyNat m 4 ≤ 1024 → bodyNat m 0 + bodyNat m 4 ≤ bufSize → s.isOpen (bodyNat m 0) (bodyNat m 4) = true →
        exec (.bufRead m) s = .next (a.sendFrame (a.responseBytes 5 m.ctr 0 (Tab.getAll (fun _ => 0) a.mgt.buf (bodyNat m 0) (bodyNat m 4)) false)))
    ∧ (m.body.length = 74 → (m.body.getD 0 0 = 0 ∨ m.body.getD 0 0 = 1) → bodyNat m 66 + bodyNat m 70 ≤ bufSize →
        let r := a.secPort (m.body.getD 0 0).toNat (m.body.getD 1 0).toNat ((m.body.drop 2).take 64) (bodyNat m 66) (bodyNat m 70)
        let u := if r.2.1.isEmpty then r.2.2 else r.2.2.bufPut (bodyNat m 66) r.2.1 true
        exec (.sec m) s = .next (u.sendFrame (u.responseBytes 6 m.ctr 0 (leBytes 1 r.1) false)))
    ∧ (ok 7 → m.body = [0] → exec (.powerActive m) s = .next (keyed.sendFrame (keyed.responseBytes 7 m.ctr 0 [] true)))
    ∧ (∀ t, s.authentic 7 m = true → m.body = [1] → s.mayStandby = true → t = keyed.sendFrame (keyed.responseBytes 7 m.ctr 0 [] true) →
        exec (.powerStandby m) s = .next (t.mgt.tx.foldl (fun u b => u.frameOut b) t).standby)
    ∧ (∀ t boot, s.authentic 7 m = true → m.body = [2] → t = keyed.sendFrame (keyed.responseBytes 7 m.ctr 0 [] true) →
        exec (.powerColdReset m boot) s = .next ((t.mgt.tx.foldl (fun u b => u.frameOut b) t).coldReset .mgtCommand boot))

/-- The segment of the management port of an active node: at the start of a cycle the PLCA fields take effect, a transmit opportunity sends the
frames that wait, a lost beacon falls back to CSMA/CD and sends them, a collision repeats the frame up to its 16th attempt and then drops it, a bad frame is counted, one that finds no buffer sets RX_OVERFLOW
and is counted, and a malformed request is answered with STATUS 1. (R447, R448, R449, R450, R453, R454) -/
def Obligations.ManagementSegment : Prop :=
  ∀ (s : State), s.pwr.state = .active →
    (s.bit 0x408 0 = true → s.fld 0x408 1 8 ≠ 0 → s.fld 0x408 1 8 ≠ 255 →
        let u : State := { s with mgt := { s.mgt with plca := s.reg 0x408 } }
        exec .plcaCycle s = .next ((u.setFld 0x410 8 1 1).setFld 0x410 9 1 0).opportunity)
    ∧ (s.bit 0x408 0 = false ∨ s.fld 0x408 1 8 = 255 →
        let u : State := (({ s with mgt := { s.mgt with plca := s.reg 0x408 } } : State).setFld 0x410 8 1 0).setFld 0x410 9 1 0
        exec .plcaCycle s = .next (s.mgt.tx.foldl (fun u b => u.sendFrame b) { u with mgt := { u.mgt with tx := [] } }))
    ∧ (s.plcaOn = true → s.plca 1 8 ≠ 0 → let u := (((s.setFld 0x410 8 1 0).setFld 0x410 9 1 1).bumpSeq 0x410).count 0x200128
        exec .plcaFallback s = .next (s.mgt.tx.foldl (fun u b => u.sendFrame b) { u with mgt := { s.mgt with tx := [] } }))
    ∧ (∀ b n, s.mgt.wire = some (b, n) → n < 16 →
        exec .csmaCdCollision s = .next (({ s with mgt := { s.mgt with wire := some (b, n + 1) } } : State).emit (.mgmt b)))
    ∧ (∀ b n, s.mgt.wire = some (b, n) → 16 ≤ n → exec .csmaCdCollision s = .next (({ s with mgt := { s.mgt with wire := none } } : State).count 0x200120))
    ∧ exec (.managementFrame .tooLong) s = .next (s.count 0x200138) ∧ exec (.managementFrame .wrongAddress) s = .next (s.count 0x200138)
    ∧ exec (.managementFrame .wrongEtherType) s = .next (s.count 0x200138) ∧ exec (.managementFrame .badFcs) s = .next (s.count 0x200118)
    ∧ exec (.managementFrame .noBuffer) s = .next (((s.setFld 0x410 10 1 1).bumpSeq 0x410).count 0x200110)
    ∧ ∀ op ctr, exec (.managementFrame (.badRequest op ctr)) s = .next
        ((s.count 0x200100).sendFrame ((s.count 0x200100).responseBytes op.toNat ctr 1 [] false))
end

