-- ==== Sys2Proof/Laws/State.lean ====
section
/-! SUPPORT. What each update of State leaves: every field but its own, one conjunct per field, for simp. -/

namespace Sys2Proof.Machine

variable (s : State)

/-- A register write changes the register file only. -/
@[simp] theorem State.setReg_frame (a : Nat) (v : Word) :
    (s.setReg a v).pending = s.pending ∧ (s.setReg a v).out = s.out ∧ (s.setReg a v).freeIdx = s.freeIdx ∧ (s.setReg a v).time = s.time
    ∧ (s.setReg a v).staged = s.staged ∧ (s.setReg a v).ev = s.ev ∧ (s.setReg a v).rowCtr = s.rowCtr ∧ (s.setReg a v).pool = s.pool
    ∧ (s.setReg a v).funcs = s.funcs ∧ (s.setReg a v).queues = s.queues ∧ (s.setReg a v).runs = s.runs ∧ (s.setReg a v).nextRid = s.nextRid
    ∧ (s.setReg a v).stamp = s.stamp ∧ (s.setReg a v).txns = s.txns ∧ (s.setReg a v).fring = s.fring ∧ (s.setReg a v).qring = s.qring
    ∧ (s.setReg a v).fdef = s.fdef ∧ (s.setReg a v).keys = s.keys ∧ (s.setReg a v).freedKeys = s.freedKeys ∧ (s.setReg a v).paths = s.paths
    ∧ (s.setReg a v).routeQ = s.routeQ ∧ (s.setReg a v).heldEsc = s.heldEsc ∧ (s.setReg a v).localIn = s.localIn ∧ (s.setReg a v).ports = s.ports
    ∧ (s.setReg a v).attWait = s.attWait ∧ (s.setReg a v).downLinks = s.downLinks ∧ (s.setReg a v).fseqOut = s.fseqOut
    ∧ (s.setReg a v).fseqSeen = s.fseqSeen ∧ (s.setReg a v).lfsr = s.lfsr ∧ (s.setReg a v).faulted = s.faulted
    ∧ (s.setReg a v).admitted = s.admitted ∧ (s.setReg a v).inService = s.inService ∧ (s.setReg a v).deferred = s.deferred
    ∧ (s.setReg a v).ctxHalves = s.ctxHalves ∧ (s.setReg a v).ctxKeys = s.ctxKeys ∧ (s.setReg a v).comms = s.comms ∧ (s.setReg a v).lost = s.lost
    ∧ (s.setReg a v).placeReqs = s.placeReqs ∧ (s.setReg a v).parkedReqs = s.parkedReqs ∧ (s.setReg a v).xlates = s.xlates
    ∧ (s.setReg a v).parks = s.parks ∧ (s.setReg a v).hreads = s.hreads ∧ (s.setReg a v).nextTag = s.nextTag ∧ (s.setReg a v).invals = s.invals
    ∧ (s.setReg a v).winDir = s.winDir ∧ (s.setReg a v).winWaits = s.winWaits ∧ (s.setReg a v).winStore = s.winStore
    ∧ (s.setReg a v).winPoison = s.winPoison ∧ (s.setReg a v).accels = s.accels ∧ (s.setReg a v).latoms = s.latoms
    ∧ (s.setReg a v).unitWaits = s.unitWaits ∧ (s.setReg a v).journals = s.journals ∧ (s.setReg a v).lostLines = s.lostLines
    ∧ (s.setReg a v).poolWaits = s.poolWaits ∧ (s.setReg a v).store = s.store ∧ (s.setReg a v).colls = s.colls ∧ (s.setReg a v).slots = s.slots
    ∧ (s.setReg a v).xfers = s.xfers ∧ (s.setReg a v).arrivals = s.arrivals ∧ (s.setReg a v).foreign = s.foreign ∧ (s.setReg a v).losses = s.losses
    ∧ (s.setReg a v).digests = s.digests ∧ (s.setReg a v).mapDigs = s.mapDigs ∧ (s.setReg a v).rticks = s.rticks ∧ (s.setReg a v).progs = s.progs
    ∧ (s.setReg a v).jobs = s.jobs ∧ (s.setReg a v).claims = s.claims ∧ (s.setReg a v).frogSeen = s.frogSeen ∧ (s.setReg a v).rekey = s.rekey
    ∧ (s.setReg a v).darnWait = s.darnWait ∧ (s.setReg a v).darnReads = s.darnReads ∧ (s.setReg a v).darnIn = s.darnIn
    ∧ (s.setReg a v).tier = s.tier ∧ (s.setReg a v).restores = s.restores ∧ (s.setReg a v).govRate = s.govRate
    ∧ (s.setReg a v).govCredit = s.govCredit ∧ (s.setReg a v).firstCastOn = s.firstCastOn ∧ (s.setReg a v).kslots = s.kslots
    ∧ (s.setReg a v).mons = s.mons ∧ (s.setReg a v).keyCmds = s.keyCmds ∧ (s.setReg a v).slotWaits = s.slotWaits ∧ (s.setReg a v).mrs = s.mrs
    ∧ (s.setReg a v).sec = s.sec ∧ (s.setReg a v).mgt = s.mgt ∧ (s.setReg a v).pwr = s.pwr ∧ (s.setReg a v).frozen = s.frozen
    ∧ (s.setReg a v).snaps = s.snaps ∧ (s.setReg a v).winHeld = s.winHeld ∧ (s.setReg a v).mediaTotal = s.mediaTotal
    ∧ (s.setReg a v).epoch = s.epoch := by and_intros <;> rfl

/-- A field write changes the register file only. -/
@[simp] theorem State.setFld_frame (a lo w v : Nat) :
    (s.setFld a lo w v).pending = s.pending ∧ (s.setFld a lo w v).out = s.out ∧ (s.setFld a lo w v).freeIdx = s.freeIdx
    ∧ (s.setFld a lo w v).time = s.time ∧ (s.setFld a lo w v).staged = s.staged ∧ (s.setFld a lo w v).ev = s.ev
    ∧ (s.setFld a lo w v).rowCtr = s.rowCtr ∧ (s.setFld a lo w v).pool = s.pool ∧ (s.setFld a lo w v).funcs = s.funcs
    ∧ (s.setFld a lo w v).queues = s.queues ∧ (s.setFld a lo w v).runs = s.runs ∧ (s.setFld a lo w v).nextRid = s.nextRid
    ∧ (s.setFld a lo w v).stamp = s.stamp ∧ (s.setFld a lo w v).txns = s.txns ∧ (s.setFld a lo w v).fring = s.fring
    ∧ (s.setFld a lo w v).qring = s.qring ∧ (s.setFld a lo w v).fdef = s.fdef ∧ (s.setFld a lo w v).keys = s.keys
    ∧ (s.setFld a lo w v).freedKeys = s.freedKeys ∧ (s.setFld a lo w v).paths = s.paths ∧ (s.setFld a lo w v).routeQ = s.routeQ
    ∧ (s.setFld a lo w v).heldEsc = s.heldEsc ∧ (s.setFld a lo w v).localIn = s.localIn ∧ (s.setFld a lo w v).ports = s.ports
    ∧ (s.setFld a lo w v).attWait = s.attWait ∧ (s.setFld a lo w v).downLinks = s.downLinks ∧ (s.setFld a lo w v).fseqOut = s.fseqOut
    ∧ (s.setFld a lo w v).fseqSeen = s.fseqSeen ∧ (s.setFld a lo w v).lfsr = s.lfsr ∧ (s.setFld a lo w v).faulted = s.faulted
    ∧ (s.setFld a lo w v).admitted = s.admitted ∧ (s.setFld a lo w v).inService = s.inService ∧ (s.setFld a lo w v).deferred = s.deferred
    ∧ (s.setFld a lo w v).ctxHalves = s.ctxHalves ∧ (s.setFld a lo w v).ctxKeys = s.ctxKeys ∧ (s.setFld a lo w v).comms = s.comms
    ∧ (s.setFld a lo w v).lost = s.lost ∧ (s.setFld a lo w v).placeReqs = s.placeReqs ∧ (s.setFld a lo w v).parkedReqs = s.parkedReqs
    ∧ (s.setFld a lo w v).xlates = s.xlates ∧ (s.setFld a lo w v).parks = s.parks ∧ (s.setFld a lo w v).hreads = s.hreads
    ∧ (s.setFld a lo w v).nextTag = s.nextTag ∧ (s.setFld a lo w v).invals = s.invals ∧ (s.setFld a lo w v).winDir = s.winDir
    ∧ (s.setFld a lo w v).winWaits = s.winWaits ∧ (s.setFld a lo w v).winStore = s.winStore ∧ (s.setFld a lo w v).winPoison = s.winPoison
    ∧ (s.setFld a lo w v).accels = s.accels ∧ (s.setFld a lo w v).latoms = s.latoms ∧ (s.setFld a lo w v).unitWaits = s.unitWaits
    ∧ (s.setFld a lo w v).journals = s.journals ∧ (s.setFld a lo w v).lostLines = s.lostLines ∧ (s.setFld a lo w v).poolWaits = s.poolWaits
    ∧ (s.setFld a lo w v).store = s.store ∧ (s.setFld a lo w v).colls = s.colls ∧ (s.setFld a lo w v).slots = s.slots
    ∧ (s.setFld a lo w v).xfers = s.xfers ∧ (s.setFld a lo w v).arrivals = s.arrivals ∧ (s.setFld a lo w v).foreign = s.foreign
    ∧ (s.setFld a lo w v).losses = s.losses ∧ (s.setFld a lo w v).digests = s.digests ∧ (s.setFld a lo w v).mapDigs = s.mapDigs
    ∧ (s.setFld a lo w v).rticks = s.rticks ∧ (s.setFld a lo w v).progs = s.progs ∧ (s.setFld a lo w v).jobs = s.jobs
    ∧ (s.setFld a lo w v).claims = s.claims ∧ (s.setFld a lo w v).frogSeen = s.frogSeen ∧ (s.setFld a lo w v).rekey = s.rekey
    ∧ (s.setFld a lo w v).darnWait = s.darnWait ∧ (s.setFld a lo w v).darnReads = s.darnReads ∧ (s.setFld a lo w v).darnIn = s.darnIn
    ∧ (s.setFld a lo w v).tier = s.tier ∧ (s.setFld a lo w v).restores = s.restores ∧ (s.setFld a lo w v).govRate = s.govRate
    ∧ (s.setFld a lo w v).govCredit = s.govCredit ∧ (s.setFld a lo w v).firstCastOn = s.firstCastOn ∧ (s.setFld a lo w v).kslots = s.kslots
    ∧ (s.setFld a lo w v).mons = s.mons ∧ (s.setFld a lo w v).keyCmds = s.keyCmds ∧ (s.setFld a lo w v).slotWaits = s.slotWaits
    ∧ (s.setFld a lo w v).mrs = s.mrs ∧ (s.setFld a lo w v).sec = s.sec ∧ (s.setFld a lo w v).mgt = s.mgt ∧ (s.setFld a lo w v).pwr = s.pwr
    ∧ (s.setFld a lo w v).frozen = s.frozen ∧ (s.setFld a lo w v).snaps = s.snaps ∧ (s.setFld a lo w v).winHeld = s.winHeld
    ∧ (s.setFld a lo w v).mediaTotal = s.mediaTotal ∧ (s.setFld a lo w v).epoch = s.epoch := by and_intros <;> rfl

/-- An event of a status register changes the register file only. -/
@[simp] theorem State.bumpSeq_frame (a : Nat) :
    (s.bumpSeq a).pending = s.pending ∧ (s.bumpSeq a).out = s.out ∧ (s.bumpSeq a).freeIdx = s.freeIdx ∧ (s.bumpSeq a).time = s.time
    ∧ (s.bumpSeq a).staged = s.staged ∧ (s.bumpSeq a).ev = s.ev ∧ (s.bumpSeq a).rowCtr = s.rowCtr ∧ (s.bumpSeq a).pool = s.pool
    ∧ (s.bumpSeq a).funcs = s.funcs ∧ (s.bumpSeq a).queues = s.queues ∧ (s.bumpSeq a).runs = s.runs ∧ (s.bumpSeq a).nextRid = s.nextRid
    ∧ (s.bumpSeq a).stamp = s.stamp ∧ (s.bumpSeq a).txns = s.txns ∧ (s.bumpSeq a).fring = s.fring ∧ (s.bumpSeq a).qring = s.qring
    ∧ (s.bumpSeq a).fdef = s.fdef ∧ (s.bumpSeq a).keys = s.keys ∧ (s.bumpSeq a).freedKeys = s.freedKeys ∧ (s.bumpSeq a).paths = s.paths
    ∧ (s.bumpSeq a).routeQ = s.routeQ ∧ (s.bumpSeq a).heldEsc = s.heldEsc ∧ (s.bumpSeq a).localIn = s.localIn ∧ (s.bumpSeq a).ports = s.ports
    ∧ (s.bumpSeq a).attWait = s.attWait ∧ (s.bumpSeq a).downLinks = s.downLinks ∧ (s.bumpSeq a).fseqOut = s.fseqOut
    ∧ (s.bumpSeq a).fseqSeen = s.fseqSeen ∧ (s.bumpSeq a).lfsr = s.lfsr ∧ (s.bumpSeq a).faulted = s.faulted ∧ (s.bumpSeq a).admitted = s.admitted
    ∧ (s.bumpSeq a).inService = s.inService ∧ (s.bumpSeq a).deferred = s.deferred ∧ (s.bumpSeq a).ctxHalves = s.ctxHalves
    ∧ (s.bumpSeq a).ctxKeys = s.ctxKeys ∧ (s.bumpSeq a).comms = s.comms ∧ (s.bumpSeq a).lost = s.lost ∧ (s.bumpSeq a).placeReqs = s.placeReqs
    ∧ (s.bumpSeq a).parkedReqs = s.parkedReqs ∧ (s.bumpSeq a).xlates = s.xlates ∧ (s.bumpSeq a).parks = s.parks ∧ (s.bumpSeq a).hreads = s.hreads
    ∧ (s.bumpSeq a).nextTag = s.nextTag ∧ (s.bumpSeq a).invals = s.invals ∧ (s.bumpSeq a).winDir = s.winDir ∧ (s.bumpSeq a).winWaits = s.winWaits
    ∧ (s.bumpSeq a).winStore = s.winStore ∧ (s.bumpSeq a).winPoison = s.winPoison ∧ (s.bumpSeq a).accels = s.accels
    ∧ (s.bumpSeq a).latoms = s.latoms ∧ (s.bumpSeq a).unitWaits = s.unitWaits ∧ (s.bumpSeq a).journals = s.journals
    ∧ (s.bumpSeq a).lostLines = s.lostLines ∧ (s.bumpSeq a).poolWaits = s.poolWaits ∧ (s.bumpSeq a).store = s.store ∧ (s.bumpSeq a).colls = s.colls
    ∧ (s.bumpSeq a).slots = s.slots ∧ (s.bumpSeq a).xfers = s.xfers ∧ (s.bumpSeq a).arrivals = s.arrivals ∧ (s.bumpSeq a).foreign = s.foreign
    ∧ (s.bumpSeq a).losses = s.losses ∧ (s.bumpSeq a).digests = s.digests ∧ (s.bumpSeq a).mapDigs = s.mapDigs ∧ (s.bumpSeq a).rticks = s.rticks
    ∧ (s.bumpSeq a).progs = s.progs ∧ (s.bumpSeq a).jobs = s.jobs ∧ (s.bumpSeq a).claims = s.claims ∧ (s.bumpSeq a).frogSeen = s.frogSeen
    ∧ (s.bumpSeq a).rekey = s.rekey ∧ (s.bumpSeq a).darnWait = s.darnWait ∧ (s.bumpSeq a).darnReads = s.darnReads ∧ (s.bumpSeq a).darnIn = s.darnIn
    ∧ (s.bumpSeq a).tier = s.tier ∧ (s.bumpSeq a).restores = s.restores ∧ (s.bumpSeq a).govRate = s.govRate ∧ (s.bumpSeq a).govCredit = s.govCredit
    ∧ (s.bumpSeq a).firstCastOn = s.firstCastOn ∧ (s.bumpSeq a).kslots = s.kslots ∧ (s.bumpSeq a).mons = s.mons ∧ (s.bumpSeq a).keyCmds = s.keyCmds
    ∧ (s.bumpSeq a).slotWaits = s.slotWaits ∧ (s.bumpSeq a).mrs = s.mrs ∧ (s.bumpSeq a).sec = s.sec ∧ (s.bumpSeq a).mgt = s.mgt
    ∧ (s.bumpSeq a).pwr = s.pwr ∧ (s.bumpSeq a).frozen = s.frozen ∧ (s.bumpSeq a).snaps = s.snaps ∧ (s.bumpSeq a).winHeld = s.winHeld
    ∧ (s.bumpSeq a).mediaTotal = s.mediaTotal ∧ (s.bumpSeq a).epoch = s.epoch := by and_intros <;> rfl

/-- The answer of a command changes the register file only. -/
@[simp] theorem State.setResult_frame (a v : Nat) :
    (s.setResult a v).pending = s.pending ∧ (s.setResult a v).out = s.out ∧ (s.setResult a v).freeIdx = s.freeIdx ∧ (s.setResult a v).time = s.time
    ∧ (s.setResult a v).staged = s.staged ∧ (s.setResult a v).ev = s.ev ∧ (s.setResult a v).rowCtr = s.rowCtr ∧ (s.setResult a v).pool = s.pool
    ∧ (s.setResult a v).funcs = s.funcs ∧ (s.setResult a v).queues = s.queues ∧ (s.setResult a v).runs = s.runs
    ∧ (s.setResult a v).nextRid = s.nextRid ∧ (s.setResult a v).stamp = s.stamp ∧ (s.setResult a v).txns = s.txns
    ∧ (s.setResult a v).fring = s.fring ∧ (s.setResult a v).qring = s.qring ∧ (s.setResult a v).fdef = s.fdef ∧ (s.setResult a v).keys = s.keys
    ∧ (s.setResult a v).freedKeys = s.freedKeys ∧ (s.setResult a v).paths = s.paths ∧ (s.setResult a v).routeQ = s.routeQ
    ∧ (s.setResult a v).heldEsc = s.heldEsc ∧ (s.setResult a v).localIn = s.localIn ∧ (s.setResult a v).ports = s.ports
    ∧ (s.setResult a v).attWait = s.attWait ∧ (s.setResult a v).downLinks = s.downLinks ∧ (s.setResult a v).fseqOut = s.fseqOut
    ∧ (s.setResult a v).fseqSeen = s.fseqSeen ∧ (s.setResult a v).lfsr = s.lfsr ∧ (s.setResult a v).faulted = s.faulted
    ∧ (s.setResult a v).admitted = s.admitted ∧ (s.setResult a v).inService = s.inService ∧ (s.setResult a v).deferred = s.deferred
    ∧ (s.setResult a v).ctxHalves = s.ctxHalves ∧ (s.setResult a v).ctxKeys = s.ctxKeys ∧ (s.setResult a v).comms = s.comms
    ∧ (s.setResult a v).lost = s.lost ∧ (s.setResult a v).placeReqs = s.placeReqs ∧ (s.setResult a v).parkedReqs = s.parkedReqs
    ∧ (s.setResult a v).xlates = s.xlates ∧ (s.setResult a v).parks = s.parks ∧ (s.setResult a v).hreads = s.hreads
    ∧ (s.setResult a v).nextTag = s.nextTag ∧ (s.setResult a v).invals = s.invals ∧ (s.setResult a v).winDir = s.winDir
    ∧ (s.setResult a v).winWaits = s.winWaits ∧ (s.setResult a v).winStore = s.winStore ∧ (s.setResult a v).winPoison = s.winPoison
    ∧ (s.setResult a v).accels = s.accels ∧ (s.setResult a v).latoms = s.latoms ∧ (s.setResult a v).unitWaits = s.unitWaits
    ∧ (s.setResult a v).journals = s.journals ∧ (s.setResult a v).lostLines = s.lostLines ∧ (s.setResult a v).poolWaits = s.poolWaits
    ∧ (s.setResult a v).store = s.store ∧ (s.setResult a v).colls = s.colls ∧ (s.setResult a v).slots = s.slots ∧ (s.setResult a v).xfers = s.xfers
    ∧ (s.setResult a v).arrivals = s.arrivals ∧ (s.setResult a v).foreign = s.foreign ∧ (s.setResult a v).losses = s.losses
    ∧ (s.setResult a v).digests = s.digests ∧ (s.setResult a v).mapDigs = s.mapDigs ∧ (s.setResult a v).rticks = s.rticks
    ∧ (s.setResult a v).progs = s.progs ∧ (s.setResult a v).jobs = s.jobs ∧ (s.setResult a v).claims = s.claims
    ∧ (s.setResult a v).frogSeen = s.frogSeen ∧ (s.setResult a v).rekey = s.rekey ∧ (s.setResult a v).darnWait = s.darnWait
    ∧ (s.setResult a v).darnReads = s.darnReads ∧ (s.setResult a v).darnIn = s.darnIn ∧ (s.setResult a v).tier = s.tier
    ∧ (s.setResult a v).restores = s.restores ∧ (s.setResult a v).govRate = s.govRate ∧ (s.setResult a v).govCredit = s.govCredit
    ∧ (s.setResult a v).firstCastOn = s.firstCastOn ∧ (s.setResult a v).kslots = s.kslots ∧ (s.setResult a v).mons = s.mons
    ∧ (s.setResult a v).keyCmds = s.keyCmds ∧ (s.setResult a v).slotWaits = s.slotWaits ∧ (s.setResult a v).mrs = s.mrs
    ∧ (s.setResult a v).sec = s.sec ∧ (s.setResult a v).mgt = s.mgt ∧ (s.setResult a v).pwr = s.pwr ∧ (s.setResult a v).frozen = s.frozen
    ∧ (s.setResult a v).snaps = s.snaps ∧ (s.setResult a v).winHeld = s.winHeld ∧ (s.setResult a v).mediaTotal = s.mediaTotal
    ∧ (s.setResult a v).epoch = s.epoch := by and_intros <;> rfl

/-- Counting changes the event counters only. -/
@[simp] theorem State.count_frame (a n : Nat) :
    (s.count a n).pending = s.pending ∧ (s.count a n).out = s.out ∧ (s.count a n).freeIdx = s.freeIdx ∧ (s.count a n).time = s.time
    ∧ (s.count a n).regs = s.regs ∧ (s.count a n).staged = s.staged ∧ (s.count a n).rowCtr = s.rowCtr ∧ (s.count a n).pool = s.pool
    ∧ (s.count a n).funcs = s.funcs ∧ (s.count a n).queues = s.queues ∧ (s.count a n).runs = s.runs ∧ (s.count a n).nextRid = s.nextRid
    ∧ (s.count a n).stamp = s.stamp ∧ (s.count a n).txns = s.txns ∧ (s.count a n).fring = s.fring ∧ (s.count a n).qring = s.qring
    ∧ (s.count a n).fdef = s.fdef ∧ (s.count a n).keys = s.keys ∧ (s.count a n).freedKeys = s.freedKeys ∧ (s.count a n).paths = s.paths
    ∧ (s.count a n).routeQ = s.routeQ ∧ (s.count a n).heldEsc = s.heldEsc ∧ (s.count a n).localIn = s.localIn ∧ (s.count a n).ports = s.ports
    ∧ (s.count a n).attWait = s.attWait ∧ (s.count a n).downLinks = s.downLinks ∧ (s.count a n).fseqOut = s.fseqOut
    ∧ (s.count a n).fseqSeen = s.fseqSeen ∧ (s.count a n).lfsr = s.lfsr ∧ (s.count a n).faulted = s.faulted ∧ (s.count a n).admitted = s.admitted
    ∧ (s.count a n).inService = s.inService ∧ (s.count a n).deferred = s.deferred ∧ (s.count a n).ctxHalves = s.ctxHalves
    ∧ (s.count a n).ctxKeys = s.ctxKeys ∧ (s.count a n).comms = s.comms ∧ (s.count a n).lost = s.lost ∧ (s.count a n).placeReqs = s.placeReqs
    ∧ (s.count a n).parkedReqs = s.parkedReqs ∧ (s.count a n).xlates = s.xlates ∧ (s.count a n).parks = s.parks ∧ (s.count a n).hreads = s.hreads
    ∧ (s.count a n).nextTag = s.nextTag ∧ (s.count a n).invals = s.invals ∧ (s.count a n).winDir = s.winDir ∧ (s.count a n).winWaits = s.winWaits
    ∧ (s.count a n).winStore = s.winStore ∧ (s.count a n).winPoison = s.winPoison ∧ (s.count a n).accels = s.accels
    ∧ (s.count a n).latoms = s.latoms ∧ (s.count a n).unitWaits = s.unitWaits ∧ (s.count a n).journals = s.journals
    ∧ (s.count a n).lostLines = s.lostLines ∧ (s.count a n).poolWaits = s.poolWaits ∧ (s.count a n).store = s.store ∧ (s.count a n).colls = s.colls
    ∧ (s.count a n).slots = s.slots ∧ (s.count a n).xfers = s.xfers ∧ (s.count a n).arrivals = s.arrivals ∧ (s.count a n).foreign = s.foreign
    ∧ (s.count a n).losses = s.losses ∧ (s.count a n).digests = s.digests ∧ (s.count a n).mapDigs = s.mapDigs ∧ (s.count a n).rticks = s.rticks
    ∧ (s.count a n).progs = s.progs ∧ (s.count a n).jobs = s.jobs ∧ (s.count a n).claims = s.claims ∧ (s.count a n).frogSeen = s.frogSeen
    ∧ (s.count a n).rekey = s.rekey ∧ (s.count a n).darnWait = s.darnWait ∧ (s.count a n).darnReads = s.darnReads ∧ (s.count a n).darnIn = s.darnIn
    ∧ (s.count a n).tier = s.tier ∧ (s.count a n).restores = s.restores ∧ (s.count a n).govRate = s.govRate ∧ (s.count a n).govCredit = s.govCredit
    ∧ (s.count a n).firstCastOn = s.firstCastOn ∧ (s.count a n).kslots = s.kslots ∧ (s.count a n).mons = s.mons ∧ (s.count a n).keyCmds = s.keyCmds
    ∧ (s.count a n).slotWaits = s.slotWaits ∧ (s.count a n).mrs = s.mrs ∧ (s.count a n).sec = s.sec ∧ (s.count a n).mgt = s.mgt
    ∧ (s.count a n).pwr = s.pwr ∧ (s.count a n).frozen = s.frozen ∧ (s.count a n).snaps = s.snaps ∧ (s.count a n).winHeld = s.winHeld
    ∧ (s.count a n).mediaTotal = s.mediaTotal ∧ (s.count a n).epoch = s.epoch := by and_intros <;> rfl

/-- An output changes the outputs only. -/
@[simp] theorem State.emit_frame (o : Out) :
    (s.emit o).pending = s.pending ∧ (s.emit o).freeIdx = s.freeIdx ∧ (s.emit o).time = s.time ∧ (s.emit o).regs = s.regs
    ∧ (s.emit o).staged = s.staged ∧ (s.emit o).ev = s.ev ∧ (s.emit o).rowCtr = s.rowCtr ∧ (s.emit o).pool = s.pool ∧ (s.emit o).funcs = s.funcs
    ∧ (s.emit o).queues = s.queues ∧ (s.emit o).runs = s.runs ∧ (s.emit o).nextRid = s.nextRid ∧ (s.emit o).stamp = s.stamp
    ∧ (s.emit o).txns = s.txns ∧ (s.emit o).fring = s.fring ∧ (s.emit o).qring = s.qring ∧ (s.emit o).fdef = s.fdef ∧ (s.emit o).keys = s.keys
    ∧ (s.emit o).freedKeys = s.freedKeys ∧ (s.emit o).paths = s.paths ∧ (s.emit o).routeQ = s.routeQ ∧ (s.emit o).heldEsc = s.heldEsc
    ∧ (s.emit o).localIn = s.localIn ∧ (s.emit o).ports = s.ports ∧ (s.emit o).attWait = s.attWait ∧ (s.emit o).downLinks = s.downLinks
    ∧ (s.emit o).fseqOut = s.fseqOut ∧ (s.emit o).fseqSeen = s.fseqSeen ∧ (s.emit o).lfsr = s.lfsr ∧ (s.emit o).faulted = s.faulted
    ∧ (s.emit o).admitted = s.admitted ∧ (s.emit o).inService = s.inService ∧ (s.emit o).deferred = s.deferred ∧ (s.emit o).ctxHalves = s.ctxHalves
    ∧ (s.emit o).ctxKeys = s.ctxKeys ∧ (s.emit o).comms = s.comms ∧ (s.emit o).lost = s.lost ∧ (s.emit o).placeReqs = s.placeReqs
    ∧ (s.emit o).parkedReqs = s.parkedReqs ∧ (s.emit o).xlates = s.xlates ∧ (s.emit o).parks = s.parks ∧ (s.emit o).hreads = s.hreads
    ∧ (s.emit o).nextTag = s.nextTag ∧ (s.emit o).invals = s.invals ∧ (s.emit o).winDir = s.winDir ∧ (s.emit o).winWaits = s.winWaits
    ∧ (s.emit o).winStore = s.winStore ∧ (s.emit o).winPoison = s.winPoison ∧ (s.emit o).accels = s.accels ∧ (s.emit o).latoms = s.latoms
    ∧ (s.emit o).unitWaits = s.unitWaits ∧ (s.emit o).journals = s.journals ∧ (s.emit o).lostLines = s.lostLines
    ∧ (s.emit o).poolWaits = s.poolWaits ∧ (s.emit o).store = s.store ∧ (s.emit o).colls = s.colls ∧ (s.emit o).slots = s.slots
    ∧ (s.emit o).xfers = s.xfers ∧ (s.emit o).arrivals = s.arrivals ∧ (s.emit o).foreign = s.foreign ∧ (s.emit o).losses = s.losses
    ∧ (s.emit o).digests = s.digests ∧ (s.emit o).mapDigs = s.mapDigs ∧ (s.emit o).rticks = s.rticks ∧ (s.emit o).progs = s.progs
    ∧ (s.emit o).jobs = s.jobs ∧ (s.emit o).claims = s.claims ∧ (s.emit o).frogSeen = s.frogSeen ∧ (s.emit o).rekey = s.rekey
    ∧ (s.emit o).darnWait = s.darnWait ∧ (s.emit o).darnReads = s.darnReads ∧ (s.emit o).darnIn = s.darnIn ∧ (s.emit o).tier = s.tier
    ∧ (s.emit o).restores = s.restores ∧ (s.emit o).govRate = s.govRate ∧ (s.emit o).govCredit = s.govCredit
    ∧ (s.emit o).firstCastOn = s.firstCastOn ∧ (s.emit o).kslots = s.kslots ∧ (s.emit o).mons = s.mons ∧ (s.emit o).keyCmds = s.keyCmds
    ∧ (s.emit o).slotWaits = s.slotWaits ∧ (s.emit o).mrs = s.mrs ∧ (s.emit o).sec = s.sec ∧ (s.emit o).mgt = s.mgt ∧ (s.emit o).pwr = s.pwr
    ∧ (s.emit o).frozen = s.frozen ∧ (s.emit o).snaps = s.snaps ∧ (s.emit o).winHeld = s.winHeld ∧ (s.emit o).mediaTotal = s.mediaTotal
    ∧ (s.emit o).epoch = s.epoch := by and_intros <;> rfl

/-- A function write changes the functions only. -/
@[simp] theorem State.setFunc_frame (f : Nat) (x : Func) :
    (s.setFunc f x).pending = s.pending ∧ (s.setFunc f x).out = s.out ∧ (s.setFunc f x).freeIdx = s.freeIdx ∧ (s.setFunc f x).time = s.time
    ∧ (s.setFunc f x).regs = s.regs ∧ (s.setFunc f x).staged = s.staged ∧ (s.setFunc f x).ev = s.ev ∧ (s.setFunc f x).rowCtr = s.rowCtr
    ∧ (s.setFunc f x).pool = s.pool ∧ (s.setFunc f x).queues = s.queues ∧ (s.setFunc f x).runs = s.runs ∧ (s.setFunc f x).nextRid = s.nextRid
    ∧ (s.setFunc f x).stamp = s.stamp ∧ (s.setFunc f x).txns = s.txns ∧ (s.setFunc f x).fring = s.fring ∧ (s.setFunc f x).qring = s.qring
    ∧ (s.setFunc f x).fdef = s.fdef ∧ (s.setFunc f x).keys = s.keys ∧ (s.setFunc f x).freedKeys = s.freedKeys ∧ (s.setFunc f x).paths = s.paths
    ∧ (s.setFunc f x).routeQ = s.routeQ ∧ (s.setFunc f x).heldEsc = s.heldEsc ∧ (s.setFunc f x).localIn = s.localIn
    ∧ (s.setFunc f x).ports = s.ports ∧ (s.setFunc f x).attWait = s.attWait ∧ (s.setFunc f x).downLinks = s.downLinks
    ∧ (s.setFunc f x).fseqOut = s.fseqOut ∧ (s.setFunc f x).fseqSeen = s.fseqSeen ∧ (s.setFunc f x).lfsr = s.lfsr
    ∧ (s.setFunc f x).faulted = s.faulted ∧ (s.setFunc f x).admitted = s.admitted ∧ (s.setFunc f x).inService = s.inService
    ∧ (s.setFunc f x).deferred = s.deferred ∧ (s.setFunc f x).ctxHalves = s.ctxHalves ∧ (s.setFunc f x).ctxKeys = s.ctxKeys
    ∧ (s.setFunc f x).comms = s.comms ∧ (s.setFunc f x).lost = s.lost ∧ (s.setFunc f x).placeReqs = s.placeReqs
    ∧ (s.setFunc f x).parkedReqs = s.parkedReqs ∧ (s.setFunc f x).xlates = s.xlates ∧ (s.setFunc f x).parks = s.parks
    ∧ (s.setFunc f x).hreads = s.hreads ∧ (s.setFunc f x).nextTag = s.nextTag ∧ (s.setFunc f x).invals = s.invals
    ∧ (s.setFunc f x).winDir = s.winDir ∧ (s.setFunc f x).winWaits = s.winWaits ∧ (s.setFunc f x).winStore = s.winStore
    ∧ (s.setFunc f x).winPoison = s.winPoison ∧ (s.setFunc f x).accels = s.accels ∧ (s.setFunc f x).latoms = s.latoms
    ∧ (s.setFunc f x).unitWaits = s.unitWaits ∧ (s.setFunc f x).journals = s.journals ∧ (s.setFunc f x).lostLines = s.lostLines
    ∧ (s.setFunc f x).poolWaits = s.poolWaits ∧ (s.setFunc f x).store = s.store ∧ (s.setFunc f x).colls = s.colls ∧ (s.setFunc f x).slots = s.slots
    ∧ (s.setFunc f x).xfers = s.xfers ∧ (s.setFunc f x).arrivals = s.arrivals ∧ (s.setFunc f x).foreign = s.foreign
    ∧ (s.setFunc f x).losses = s.losses ∧ (s.setFunc f x).digests = s.digests ∧ (s.setFunc f x).mapDigs = s.mapDigs
    ∧ (s.setFunc f x).rticks = s.rticks ∧ (s.setFunc f x).progs = s.progs ∧ (s.setFunc f x).jobs = s.jobs ∧ (s.setFunc f x).claims = s.claims
    ∧ (s.setFunc f x).frogSeen = s.frogSeen ∧ (s.setFunc f x).rekey = s.rekey ∧ (s.setFunc f x).darnWait = s.darnWait
    ∧ (s.setFunc f x).darnReads = s.darnReads ∧ (s.setFunc f x).darnIn = s.darnIn ∧ (s.setFunc f x).tier = s.tier
    ∧ (s.setFunc f x).restores = s.restores ∧ (s.setFunc f x).govRate = s.govRate ∧ (s.setFunc f x).govCredit = s.govCredit
    ∧ (s.setFunc f x).firstCastOn = s.firstCastOn ∧ (s.setFunc f x).kslots = s.kslots ∧ (s.setFunc f x).mons = s.mons
    ∧ (s.setFunc f x).keyCmds = s.keyCmds ∧ (s.setFunc f x).slotWaits = s.slotWaits ∧ (s.setFunc f x).mrs = s.mrs ∧ (s.setFunc f x).sec = s.sec
    ∧ (s.setFunc f x).mgt = s.mgt ∧ (s.setFunc f x).pwr = s.pwr ∧ (s.setFunc f x).frozen = s.frozen ∧ (s.setFunc f x).snaps = s.snaps
    ∧ (s.setFunc f x).winHeld = s.winHeld ∧ (s.setFunc f x).mediaTotal = s.mediaTotal ∧ (s.setFunc f x).epoch = s.epoch := by and_intros <;> rfl

/-- A queue write changes the queues only. -/
@[simp] theorem State.setQueue_frame (g : Nat) (q : Queue) :
    (s.setQueue g q).pending = s.pending ∧ (s.setQueue g q).out = s.out ∧ (s.setQueue g q).freeIdx = s.freeIdx ∧ (s.setQueue g q).time = s.time
    ∧ (s.setQueue g q).regs = s.regs ∧ (s.setQueue g q).staged = s.staged ∧ (s.setQueue g q).ev = s.ev ∧ (s.setQueue g q).rowCtr = s.rowCtr
    ∧ (s.setQueue g q).pool = s.pool ∧ (s.setQueue g q).funcs = s.funcs ∧ (s.setQueue g q).runs = s.runs ∧ (s.setQueue g q).nextRid = s.nextRid
    ∧ (s.setQueue g q).stamp = s.stamp ∧ (s.setQueue g q).txns = s.txns ∧ (s.setQueue g q).fring = s.fring ∧ (s.setQueue g q).qring = s.qring
    ∧ (s.setQueue g q).fdef = s.fdef ∧ (s.setQueue g q).keys = s.keys ∧ (s.setQueue g q).freedKeys = s.freedKeys ∧ (s.setQueue g q).paths = s.paths
    ∧ (s.setQueue g q).routeQ = s.routeQ ∧ (s.setQueue g q).heldEsc = s.heldEsc ∧ (s.setQueue g q).localIn = s.localIn
    ∧ (s.setQueue g q).ports = s.ports ∧ (s.setQueue g q).attWait = s.attWait ∧ (s.setQueue g q).downLinks = s.downLinks
    ∧ (s.setQueue g q).fseqOut = s.fseqOut ∧ (s.setQueue g q).fseqSeen = s.fseqSeen ∧ (s.setQueue g q).lfsr = s.lfsr
    ∧ (s.setQueue g q).faulted = s.faulted ∧ (s.setQueue g q).admitted = s.admitted ∧ (s.setQueue g q).inService = s.inService
    ∧ (s.setQueue g q).deferred = s.deferred ∧ (s.setQueue g q).ctxHalves = s.ctxHalves ∧ (s.setQueue g q).ctxKeys = s.ctxKeys
    ∧ (s.setQueue g q).comms = s.comms ∧ (s.setQueue g q).lost = s.lost ∧ (s.setQueue g q).placeReqs = s.placeReqs
    ∧ (s.setQueue g q).parkedReqs = s.parkedReqs ∧ (s.setQueue g q).xlates = s.xlates ∧ (s.setQueue g q).parks = s.parks
    ∧ (s.setQueue g q).hreads = s.hreads ∧ (s.setQueue g q).nextTag = s.nextTag ∧ (s.setQueue g q).invals = s.invals
    ∧ (s.setQueue g q).winDir = s.winDir ∧ (s.setQueue g q).winWaits = s.winWaits ∧ (s.setQueue g q).winStore = s.winStore
    ∧ (s.setQueue g q).winPoison = s.winPoison ∧ (s.setQueue g q).accels = s.accels ∧ (s.setQueue g q).latoms = s.latoms
    ∧ (s.setQueue g q).unitWaits = s.unitWaits ∧ (s.setQueue g q).journals = s.journals ∧ (s.setQueue g q).lostLines = s.lostLines
    ∧ (s.setQueue g q).poolWaits = s.poolWaits ∧ (s.setQueue g q).store = s.store ∧ (s.setQueue g q).colls = s.colls
    ∧ (s.setQueue g q).slots = s.slots ∧ (s.setQueue g q).xfers = s.xfers ∧ (s.setQueue g q).arrivals = s.arrivals
    ∧ (s.setQueue g q).foreign = s.foreign ∧ (s.setQueue g q).losses = s.losses ∧ (s.setQueue g q).digests = s.digests
    ∧ (s.setQueue g q).mapDigs = s.mapDigs ∧ (s.setQueue g q).rticks = s.rticks ∧ (s.setQueue g q).progs = s.progs ∧ (s.setQueue g q).jobs = s.jobs
    ∧ (s.setQueue g q).claims = s.claims ∧ (s.setQueue g q).frogSeen = s.frogSeen ∧ (s.setQueue g q).rekey = s.rekey
    ∧ (s.setQueue g q).darnWait = s.darnWait ∧ (s.setQueue g q).darnReads = s.darnReads ∧ (s.setQueue g q).darnIn = s.darnIn
    ∧ (s.setQueue g q).tier = s.tier ∧ (s.setQueue g q).restores = s.restores ∧ (s.setQueue g q).govRate = s.govRate
    ∧ (s.setQueue g q).govCredit = s.govCredit ∧ (s.setQueue g q).firstCastOn = s.firstCastOn ∧ (s.setQueue g q).kslots = s.kslots
    ∧ (s.setQueue g q).mons = s.mons ∧ (s.setQueue g q).keyCmds = s.keyCmds ∧ (s.setQueue g q).slotWaits = s.slotWaits
    ∧ (s.setQueue g q).mrs = s.mrs ∧ (s.setQueue g q).sec = s.sec ∧ (s.setQueue g q).mgt = s.mgt ∧ (s.setQueue g q).pwr = s.pwr
    ∧ (s.setQueue g q).frozen = s.frozen ∧ (s.setQueue g q).snaps = s.snaps ∧ (s.setQueue g q).winHeld = s.winHeld
    ∧ (s.setQueue g q).mediaTotal = s.mediaTotal ∧ (s.setQueue g q).epoch = s.epoch := by and_intros <;> rfl

/-- A queue update changes the queues only. -/
@[simp] theorem State.modQueue_frame (g : Nat) (h : Queue → Queue) :
    (s.modQueue g h).pending = s.pending ∧ (s.modQueue g h).out = s.out ∧ (s.modQueue g h).freeIdx = s.freeIdx ∧ (s.modQueue g h).time = s.time
    ∧ (s.modQueue g h).regs = s.regs ∧ (s.modQueue g h).staged = s.staged ∧ (s.modQueue g h).ev = s.ev ∧ (s.modQueue g h).rowCtr = s.rowCtr
    ∧ (s.modQueue g h).pool = s.pool ∧ (s.modQueue g h).funcs = s.funcs ∧ (s.modQueue g h).runs = s.runs ∧ (s.modQueue g h).nextRid = s.nextRid
    ∧ (s.modQueue g h).stamp = s.stamp ∧ (s.modQueue g h).txns = s.txns ∧ (s.modQueue g h).fring = s.fring ∧ (s.modQueue g h).qring = s.qring
    ∧ (s.modQueue g h).fdef = s.fdef ∧ (s.modQueue g h).keys = s.keys ∧ (s.modQueue g h).freedKeys = s.freedKeys ∧ (s.modQueue g h).paths = s.paths
    ∧ (s.modQueue g h).routeQ = s.routeQ ∧ (s.modQueue g h).heldEsc = s.heldEsc ∧ (s.modQueue g h).localIn = s.localIn
    ∧ (s.modQueue g h).ports = s.ports ∧ (s.modQueue g h).attWait = s.attWait ∧ (s.modQueue g h).downLinks = s.downLinks
    ∧ (s.modQueue g h).fseqOut = s.fseqOut ∧ (s.modQueue g h).fseqSeen = s.fseqSeen ∧ (s.modQueue g h).lfsr = s.lfsr
    ∧ (s.modQueue g h).faulted = s.faulted ∧ (s.modQueue g h).admitted = s.admitted ∧ (s.modQueue g h).inService = s.inService
    ∧ (s.modQueue g h).deferred = s.deferred ∧ (s.modQueue g h).ctxHalves = s.ctxHalves ∧ (s.modQueue g h).ctxKeys = s.ctxKeys
    ∧ (s.modQueue g h).comms = s.comms ∧ (s.modQueue g h).lost = s.lost ∧ (s.modQueue g h).placeReqs = s.placeReqs
    ∧ (s.modQueue g h).parkedReqs = s.parkedReqs ∧ (s.modQueue g h).xlates = s.xlates ∧ (s.modQueue g h).parks = s.parks
    ∧ (s.modQueue g h).hreads = s.hreads ∧ (s.modQueue g h).nextTag = s.nextTag ∧ (s.modQueue g h).invals = s.invals
    ∧ (s.modQueue g h).winDir = s.winDir ∧ (s.modQueue g h).winWaits = s.winWaits ∧ (s.modQueue g h).winStore = s.winStore
    ∧ (s.modQueue g h).winPoison = s.winPoison ∧ (s.modQueue g h).accels = s.accels ∧ (s.modQueue g h).latoms = s.latoms
    ∧ (s.modQueue g h).unitWaits = s.unitWaits ∧ (s.modQueue g h).journals = s.journals ∧ (s.modQueue g h).lostLines = s.lostLines
    ∧ (s.modQueue g h).poolWaits = s.poolWaits ∧ (s.modQueue g h).store = s.store ∧ (s.modQueue g h).colls = s.colls
    ∧ (s.modQueue g h).slots = s.slots ∧ (s.modQueue g h).xfers = s.xfers ∧ (s.modQueue g h).arrivals = s.arrivals
    ∧ (s.modQueue g h).foreign = s.foreign ∧ (s.modQueue g h).losses = s.losses ∧ (s.modQueue g h).digests = s.digests
    ∧ (s.modQueue g h).mapDigs = s.mapDigs ∧ (s.modQueue g h).rticks = s.rticks ∧ (s.modQueue g h).progs = s.progs ∧ (s.modQueue g h).jobs = s.jobs
    ∧ (s.modQueue g h).claims = s.claims ∧ (s.modQueue g h).frogSeen = s.frogSeen ∧ (s.modQueue g h).rekey = s.rekey
    ∧ (s.modQueue g h).darnWait = s.darnWait ∧ (s.modQueue g h).darnReads = s.darnReads ∧ (s.modQueue g h).darnIn = s.darnIn
    ∧ (s.modQueue g h).tier = s.tier ∧ (s.modQueue g h).restores = s.restores ∧ (s.modQueue g h).govRate = s.govRate
    ∧ (s.modQueue g h).govCredit = s.govCredit ∧ (s.modQueue g h).firstCastOn = s.firstCastOn ∧ (s.modQueue g h).kslots = s.kslots
    ∧ (s.modQueue g h).mons = s.mons ∧ (s.modQueue g h).keyCmds = s.keyCmds ∧ (s.modQueue g h).slotWaits = s.slotWaits
    ∧ (s.modQueue g h).mrs = s.mrs ∧ (s.modQueue g h).sec = s.sec ∧ (s.modQueue g h).mgt = s.mgt ∧ (s.modQueue g h).pwr = s.pwr
    ∧ (s.modQueue g h).frozen = s.frozen ∧ (s.modQueue g h).snaps = s.snaps ∧ (s.modQueue g h).winHeld = s.winHeld
    ∧ (s.modQueue g h).mediaTotal = s.mediaTotal ∧ (s.modQueue g h).epoch = s.epoch := by and_intros <;> rfl

/-- A key write changes the keys only. -/
@[simp] theorem State.setKey_frame (i : Nat) (k : KeyEnt) :
    (s.setKey i k).pending = s.pending ∧ (s.setKey i k).out = s.out ∧ (s.setKey i k).freeIdx = s.freeIdx ∧ (s.setKey i k).time = s.time
    ∧ (s.setKey i k).regs = s.regs ∧ (s.setKey i k).staged = s.staged ∧ (s.setKey i k).ev = s.ev ∧ (s.setKey i k).rowCtr = s.rowCtr
    ∧ (s.setKey i k).pool = s.pool ∧ (s.setKey i k).funcs = s.funcs ∧ (s.setKey i k).queues = s.queues ∧ (s.setKey i k).runs = s.runs
    ∧ (s.setKey i k).nextRid = s.nextRid ∧ (s.setKey i k).stamp = s.stamp ∧ (s.setKey i k).txns = s.txns ∧ (s.setKey i k).fring = s.fring
    ∧ (s.setKey i k).qring = s.qring ∧ (s.setKey i k).fdef = s.fdef ∧ (s.setKey i k).freedKeys = s.freedKeys ∧ (s.setKey i k).paths = s.paths
    ∧ (s.setKey i k).routeQ = s.routeQ ∧ (s.setKey i k).heldEsc = s.heldEsc ∧ (s.setKey i k).localIn = s.localIn ∧ (s.setKey i k).ports = s.ports
    ∧ (s.setKey i k).attWait = s.attWait ∧ (s.setKey i k).downLinks = s.downLinks ∧ (s.setKey i k).fseqOut = s.fseqOut
    ∧ (s.setKey i k).fseqSeen = s.fseqSeen ∧ (s.setKey i k).lfsr = s.lfsr ∧ (s.setKey i k).faulted = s.faulted
    ∧ (s.setKey i k).admitted = s.admitted ∧ (s.setKey i k).inService = s.inService ∧ (s.setKey i k).deferred = s.deferred
    ∧ (s.setKey i k).ctxHalves = s.ctxHalves ∧ (s.setKey i k).ctxKeys = s.ctxKeys ∧ (s.setKey i k).comms = s.comms ∧ (s.setKey i k).lost = s.lost
    ∧ (s.setKey i k).placeReqs = s.placeReqs ∧ (s.setKey i k).parkedReqs = s.parkedReqs ∧ (s.setKey i k).xlates = s.xlates
    ∧ (s.setKey i k).parks = s.parks ∧ (s.setKey i k).hreads = s.hreads ∧ (s.setKey i k).nextTag = s.nextTag ∧ (s.setKey i k).invals = s.invals
    ∧ (s.setKey i k).winDir = s.winDir ∧ (s.setKey i k).winWaits = s.winWaits ∧ (s.setKey i k).winStore = s.winStore
    ∧ (s.setKey i k).winPoison = s.winPoison ∧ (s.setKey i k).accels = s.accels ∧ (s.setKey i k).latoms = s.latoms
    ∧ (s.setKey i k).unitWaits = s.unitWaits ∧ (s.setKey i k).journals = s.journals ∧ (s.setKey i k).lostLines = s.lostLines
    ∧ (s.setKey i k).poolWaits = s.poolWaits ∧ (s.setKey i k).store = s.store ∧ (s.setKey i k).colls = s.colls ∧ (s.setKey i k).slots = s.slots
    ∧ (s.setKey i k).xfers = s.xfers ∧ (s.setKey i k).arrivals = s.arrivals ∧ (s.setKey i k).foreign = s.foreign ∧ (s.setKey i k).losses = s.losses
    ∧ (s.setKey i k).digests = s.digests ∧ (s.setKey i k).mapDigs = s.mapDigs ∧ (s.setKey i k).rticks = s.rticks ∧ (s.setKey i k).progs = s.progs
    ∧ (s.setKey i k).jobs = s.jobs ∧ (s.setKey i k).claims = s.claims ∧ (s.setKey i k).frogSeen = s.frogSeen ∧ (s.setKey i k).rekey = s.rekey
    ∧ (s.setKey i k).darnWait = s.darnWait ∧ (s.setKey i k).darnReads = s.darnReads ∧ (s.setKey i k).darnIn = s.darnIn
    ∧ (s.setKey i k).tier = s.tier ∧ (s.setKey i k).restores = s.restores ∧ (s.setKey i k).govRate = s.govRate
    ∧ (s.setKey i k).govCredit = s.govCredit ∧ (s.setKey i k).firstCastOn = s.firstCastOn ∧ (s.setKey i k).kslots = s.kslots
    ∧ (s.setKey i k).mons = s.mons ∧ (s.setKey i k).keyCmds = s.keyCmds ∧ (s.setKey i k).slotWaits = s.slotWaits ∧ (s.setKey i k).mrs = s.mrs
    ∧ (s.setKey i k).sec = s.sec ∧ (s.setKey i k).mgt = s.mgt ∧ (s.setKey i k).pwr = s.pwr ∧ (s.setKey i k).frozen = s.frozen
    ∧ (s.setKey i k).snaps = s.snaps ∧ (s.setKey i k).winHeld = s.winHeld ∧ (s.setKey i k).mediaTotal = s.mediaTotal
    ∧ (s.setKey i k).epoch = s.epoch := by and_intros <;> rfl

/-- A path write changes the paths only. -/
@[simp] theorem State.setPath_frame (n : Nat) (p : Path) :
    (s.setPath n p).pending = s.pending ∧ (s.setPath n p).out = s.out ∧ (s.setPath n p).freeIdx = s.freeIdx ∧ (s.setPath n p).time = s.time
    ∧ (s.setPath n p).regs = s.regs ∧ (s.setPath n p).staged = s.staged ∧ (s.setPath n p).ev = s.ev ∧ (s.setPath n p).rowCtr = s.rowCtr
    ∧ (s.setPath n p).pool = s.pool ∧ (s.setPath n p).funcs = s.funcs ∧ (s.setPath n p).queues = s.queues ∧ (s.setPath n p).runs = s.runs
    ∧ (s.setPath n p).nextRid = s.nextRid ∧ (s.setPath n p).stamp = s.stamp ∧ (s.setPath n p).txns = s.txns ∧ (s.setPath n p).fring = s.fring
    ∧ (s.setPath n p).qring = s.qring ∧ (s.setPath n p).fdef = s.fdef ∧ (s.setPath n p).keys = s.keys ∧ (s.setPath n p).freedKeys = s.freedKeys
    ∧ (s.setPath n p).routeQ = s.routeQ ∧ (s.setPath n p).heldEsc = s.heldEsc ∧ (s.setPath n p).localIn = s.localIn
    ∧ (s.setPath n p).ports = s.ports ∧ (s.setPath n p).attWait = s.attWait ∧ (s.setPath n p).downLinks = s.downLinks
    ∧ (s.setPath n p).fseqOut = s.fseqOut ∧ (s.setPath n p).fseqSeen = s.fseqSeen ∧ (s.setPath n p).lfsr = s.lfsr
    ∧ (s.setPath n p).faulted = s.faulted ∧ (s.setPath n p).admitted = s.admitted ∧ (s.setPath n p).inService = s.inService
    ∧ (s.setPath n p).deferred = s.deferred ∧ (s.setPath n p).ctxHalves = s.ctxHalves ∧ (s.setPath n p).ctxKeys = s.ctxKeys
    ∧ (s.setPath n p).comms = s.comms ∧ (s.setPath n p).lost = s.lost ∧ (s.setPath n p).placeReqs = s.placeReqs
    ∧ (s.setPath n p).parkedReqs = s.parkedReqs ∧ (s.setPath n p).xlates = s.xlates ∧ (s.setPath n p).parks = s.parks
    ∧ (s.setPath n p).hreads = s.hreads ∧ (s.setPath n p).nextTag = s.nextTag ∧ (s.setPath n p).invals = s.invals
    ∧ (s.setPath n p).winDir = s.winDir ∧ (s.setPath n p).winWaits = s.winWaits ∧ (s.setPath n p).winStore = s.winStore
    ∧ (s.setPath n p).winPoison = s.winPoison ∧ (s.setPath n p).accels = s.accels ∧ (s.setPath n p).latoms = s.latoms
    ∧ (s.setPath n p).unitWaits = s.unitWaits ∧ (s.setPath n p).journals = s.journals ∧ (s.setPath n p).lostLines = s.lostLines
    ∧ (s.setPath n p).poolWaits = s.poolWaits ∧ (s.setPath n p).store = s.store ∧ (s.setPath n p).colls = s.colls ∧ (s.setPath n p).slots = s.slots
    ∧ (s.setPath n p).xfers = s.xfers ∧ (s.setPath n p).arrivals = s.arrivals ∧ (s.setPath n p).foreign = s.foreign
    ∧ (s.setPath n p).losses = s.losses ∧ (s.setPath n p).digests = s.digests ∧ (s.setPath n p).mapDigs = s.mapDigs
    ∧ (s.setPath n p).rticks = s.rticks ∧ (s.setPath n p).progs = s.progs ∧ (s.setPath n p).jobs = s.jobs ∧ (s.setPath n p).claims = s.claims
    ∧ (s.setPath n p).frogSeen = s.frogSeen ∧ (s.setPath n p).rekey = s.rekey ∧ (s.setPath n p).darnWait = s.darnWait
    ∧ (s.setPath n p).darnReads = s.darnReads ∧ (s.setPath n p).darnIn = s.darnIn ∧ (s.setPath n p).tier = s.tier
    ∧ (s.setPath n p).restores = s.restores ∧ (s.setPath n p).govRate = s.govRate ∧ (s.setPath n p).govCredit = s.govCredit
    ∧ (s.setPath n p).firstCastOn = s.firstCastOn ∧ (s.setPath n p).kslots = s.kslots ∧ (s.setPath n p).mons = s.mons
    ∧ (s.setPath n p).keyCmds = s.keyCmds ∧ (s.setPath n p).slotWaits = s.slotWaits ∧ (s.setPath n p).mrs = s.mrs ∧ (s.setPath n p).sec = s.sec
    ∧ (s.setPath n p).mgt = s.mgt ∧ (s.setPath n p).pwr = s.pwr ∧ (s.setPath n p).frozen = s.frozen ∧ (s.setPath n p).snaps = s.snaps
    ∧ (s.setPath n p).winHeld = s.winHeld ∧ (s.setPath n p).mediaTotal = s.mediaTotal ∧ (s.setPath n p).epoch = s.epoch := by and_intros <;> rfl

/-- A path update changes the paths only. -/
@[simp] theorem State.modPath_frame (n : Nat) (h : Path → Path) :
    (s.modPath n h).pending = s.pending ∧ (s.modPath n h).out = s.out ∧ (s.modPath n h).freeIdx = s.freeIdx ∧ (s.modPath n h).time = s.time
    ∧ (s.modPath n h).regs = s.regs ∧ (s.modPath n h).staged = s.staged ∧ (s.modPath n h).ev = s.ev ∧ (s.modPath n h).rowCtr = s.rowCtr
    ∧ (s.modPath n h).pool = s.pool ∧ (s.modPath n h).funcs = s.funcs ∧ (s.modPath n h).queues = s.queues ∧ (s.modPath n h).runs = s.runs
    ∧ (s.modPath n h).nextRid = s.nextRid ∧ (s.modPath n h).stamp = s.stamp ∧ (s.modPath n h).txns = s.txns ∧ (s.modPath n h).fring = s.fring
    ∧ (s.modPath n h).qring = s.qring ∧ (s.modPath n h).fdef = s.fdef ∧ (s.modPath n h).keys = s.keys ∧ (s.modPath n h).freedKeys = s.freedKeys
    ∧ (s.modPath n h).routeQ = s.routeQ ∧ (s.modPath n h).heldEsc = s.heldEsc ∧ (s.modPath n h).localIn = s.localIn
    ∧ (s.modPath n h).ports = s.ports ∧ (s.modPath n h).attWait = s.attWait ∧ (s.modPath n h).downLinks = s.downLinks
    ∧ (s.modPath n h).fseqOut = s.fseqOut ∧ (s.modPath n h).fseqSeen = s.fseqSeen ∧ (s.modPath n h).lfsr = s.lfsr
    ∧ (s.modPath n h).faulted = s.faulted ∧ (s.modPath n h).admitted = s.admitted ∧ (s.modPath n h).inService = s.inService
    ∧ (s.modPath n h).deferred = s.deferred ∧ (s.modPath n h).ctxHalves = s.ctxHalves ∧ (s.modPath n h).ctxKeys = s.ctxKeys
    ∧ (s.modPath n h).comms = s.comms ∧ (s.modPath n h).lost = s.lost ∧ (s.modPath n h).placeReqs = s.placeReqs
    ∧ (s.modPath n h).parkedReqs = s.parkedReqs ∧ (s.modPath n h).xlates = s.xlates ∧ (s.modPath n h).parks = s.parks
    ∧ (s.modPath n h).hreads = s.hreads ∧ (s.modPath n h).nextTag = s.nextTag ∧ (s.modPath n h).invals = s.invals
    ∧ (s.modPath n h).winDir = s.winDir ∧ (s.modPath n h).winWaits = s.winWaits ∧ (s.modPath n h).winStore = s.winStore
    ∧ (s.modPath n h).winPoison = s.winPoison ∧ (s.modPath n h).accels = s.accels ∧ (s.modPath n h).latoms = s.latoms
    ∧ (s.modPath n h).unitWaits = s.unitWaits ∧ (s.modPath n h).journals = s.journals ∧ (s.modPath n h).lostLines = s.lostLines
    ∧ (s.modPath n h).poolWaits = s.poolWaits ∧ (s.modPath n h).store = s.store ∧ (s.modPath n h).colls = s.colls ∧ (s.modPath n h).slots = s.slots
    ∧ (s.modPath n h).xfers = s.xfers ∧ (s.modPath n h).arrivals = s.arrivals ∧ (s.modPath n h).foreign = s.foreign
    ∧ (s.modPath n h).losses = s.losses ∧ (s.modPath n h).digests = s.digests ∧ (s.modPath n h).mapDigs = s.mapDigs
    ∧ (s.modPath n h).rticks = s.rticks ∧ (s.modPath n h).progs = s.progs ∧ (s.modPath n h).jobs = s.jobs ∧ (s.modPath n h).claims = s.claims
    ∧ (s.modPath n h).frogSeen = s.frogSeen ∧ (s.modPath n h).rekey = s.rekey ∧ (s.modPath n h).darnWait = s.darnWait
    ∧ (s.modPath n h).darnReads = s.darnReads ∧ (s.modPath n h).darnIn = s.darnIn ∧ (s.modPath n h).tier = s.tier
    ∧ (s.modPath n h).restores = s.restores ∧ (s.modPath n h).govRate = s.govRate ∧ (s.modPath n h).govCredit = s.govCredit
    ∧ (s.modPath n h).firstCastOn = s.firstCastOn ∧ (s.modPath n h).kslots = s.kslots ∧ (s.modPath n h).mons = s.mons
    ∧ (s.modPath n h).keyCmds = s.keyCmds ∧ (s.modPath n h).slotWaits = s.slotWaits ∧ (s.modPath n h).mrs = s.mrs ∧ (s.modPath n h).sec = s.sec
    ∧ (s.modPath n h).mgt = s.mgt ∧ (s.modPath n h).pwr = s.pwr ∧ (s.modPath n h).frozen = s.frozen ∧ (s.modPath n h).snaps = s.snaps
    ∧ (s.modPath n h).winHeld = s.winHeld ∧ (s.modPath n h).mediaTotal = s.mediaTotal ∧ (s.modPath n h).epoch = s.epoch := by and_intros <;> rfl

/-- An accelerator write changes the accelerators only. -/
@[simp] theorem State.setAccel_frame (a : Nat) (x : Accel) :
    (s.setAccel a x).pending = s.pending ∧ (s.setAccel a x).out = s.out ∧ (s.setAccel a x).freeIdx = s.freeIdx ∧ (s.setAccel a x).time = s.time
    ∧ (s.setAccel a x).regs = s.regs ∧ (s.setAccel a x).staged = s.staged ∧ (s.setAccel a x).ev = s.ev ∧ (s.setAccel a x).rowCtr = s.rowCtr
    ∧ (s.setAccel a x).pool = s.pool ∧ (s.setAccel a x).funcs = s.funcs ∧ (s.setAccel a x).queues = s.queues ∧ (s.setAccel a x).runs = s.runs
    ∧ (s.setAccel a x).nextRid = s.nextRid ∧ (s.setAccel a x).stamp = s.stamp ∧ (s.setAccel a x).txns = s.txns ∧ (s.setAccel a x).fring = s.fring
    ∧ (s.setAccel a x).qring = s.qring ∧ (s.setAccel a x).fdef = s.fdef ∧ (s.setAccel a x).keys = s.keys ∧ (s.setAccel a x).freedKeys = s.freedKeys
    ∧ (s.setAccel a x).paths = s.paths ∧ (s.setAccel a x).routeQ = s.routeQ ∧ (s.setAccel a x).heldEsc = s.heldEsc
    ∧ (s.setAccel a x).localIn = s.localIn ∧ (s.setAccel a x).ports = s.ports ∧ (s.setAccel a x).attWait = s.attWait
    ∧ (s.setAccel a x).downLinks = s.downLinks ∧ (s.setAccel a x).fseqOut = s.fseqOut ∧ (s.setAccel a x).fseqSeen = s.fseqSeen
    ∧ (s.setAccel a x).lfsr = s.lfsr ∧ (s.setAccel a x).faulted = s.faulted ∧ (s.setAccel a x).admitted = s.admitted
    ∧ (s.setAccel a x).inService = s.inService ∧ (s.setAccel a x).deferred = s.deferred ∧ (s.setAccel a x).ctxHalves = s.ctxHalves
    ∧ (s.setAccel a x).ctxKeys = s.ctxKeys ∧ (s.setAccel a x).comms = s.comms ∧ (s.setAccel a x).lost = s.lost
    ∧ (s.setAccel a x).placeReqs = s.placeReqs ∧ (s.setAccel a x).parkedReqs = s.parkedReqs ∧ (s.setAccel a x).xlates = s.xlates
    ∧ (s.setAccel a x).parks = s.parks ∧ (s.setAccel a x).hreads = s.hreads ∧ (s.setAccel a x).nextTag = s.nextTag
    ∧ (s.setAccel a x).invals = s.invals ∧ (s.setAccel a x).winDir = s.winDir ∧ (s.setAccel a x).winWaits = s.winWaits
    ∧ (s.setAccel a x).winStore = s.winStore ∧ (s.setAccel a x).winPoison = s.winPoison ∧ (s.setAccel a x).latoms = s.latoms
    ∧ (s.setAccel a x).unitWaits = s.unitWaits ∧ (s.setAccel a x).journals = s.journals ∧ (s.setAccel a x).lostLines = s.lostLines
    ∧ (s.setAccel a x).poolWaits = s.poolWaits ∧ (s.setAccel a x).store = s.store ∧ (s.setAccel a x).colls = s.colls
    ∧ (s.setAccel a x).slots = s.slots ∧ (s.setAccel a x).xfers = s.xfers ∧ (s.setAccel a x).arrivals = s.arrivals
    ∧ (s.setAccel a x).foreign = s.foreign ∧ (s.setAccel a x).losses = s.losses ∧ (s.setAccel a x).digests = s.digests
    ∧ (s.setAccel a x).mapDigs = s.mapDigs ∧ (s.setAccel a x).rticks = s.rticks ∧ (s.setAccel a x).progs = s.progs ∧ (s.setAccel a x).jobs = s.jobs
    ∧ (s.setAccel a x).claims = s.claims ∧ (s.setAccel a x).frogSeen = s.frogSeen ∧ (s.setAccel a x).rekey = s.rekey
    ∧ (s.setAccel a x).darnWait = s.darnWait ∧ (s.setAccel a x).darnReads = s.darnReads ∧ (s.setAccel a x).darnIn = s.darnIn
    ∧ (s.setAccel a x).tier = s.tier ∧ (s.setAccel a x).restores = s.restores ∧ (s.setAccel a x).govRate = s.govRate
    ∧ (s.setAccel a x).govCredit = s.govCredit ∧ (s.setAccel a x).firstCastOn = s.firstCastOn ∧ (s.setAccel a x).kslots = s.kslots
    ∧ (s.setAccel a x).mons = s.mons ∧ (s.setAccel a x).keyCmds = s.keyCmds ∧ (s.setAccel a x).slotWaits = s.slotWaits
    ∧ (s.setAccel a x).mrs = s.mrs ∧ (s.setAccel a x).sec = s.sec ∧ (s.setAccel a x).mgt = s.mgt ∧ (s.setAccel a x).pwr = s.pwr
    ∧ (s.setAccel a x).frozen = s.frozen ∧ (s.setAccel a x).snaps = s.snaps ∧ (s.setAccel a x).winHeld = s.winHeld
    ∧ (s.setAccel a x).mediaTotal = s.mediaTotal ∧ (s.setAccel a x).epoch = s.epoch := by and_intros <;> rfl

/-- A run write changes the runs only. -/
@[simp] theorem State.setRun_frame (r : Run) :
    (s.setRun r).pending = s.pending ∧ (s.setRun r).out = s.out ∧ (s.setRun r).freeIdx = s.freeIdx ∧ (s.setRun r).time = s.time
    ∧ (s.setRun r).regs = s.regs ∧ (s.setRun r).staged = s.staged ∧ (s.setRun r).ev = s.ev ∧ (s.setRun r).rowCtr = s.rowCtr
    ∧ (s.setRun r).pool = s.pool ∧ (s.setRun r).funcs = s.funcs ∧ (s.setRun r).queues = s.queues ∧ (s.setRun r).nextRid = s.nextRid
    ∧ (s.setRun r).stamp = s.stamp ∧ (s.setRun r).txns = s.txns ∧ (s.setRun r).fring = s.fring ∧ (s.setRun r).qring = s.qring
    ∧ (s.setRun r).fdef = s.fdef ∧ (s.setRun r).keys = s.keys ∧ (s.setRun r).freedKeys = s.freedKeys ∧ (s.setRun r).paths = s.paths
    ∧ (s.setRun r).routeQ = s.routeQ ∧ (s.setRun r).heldEsc = s.heldEsc ∧ (s.setRun r).localIn = s.localIn ∧ (s.setRun r).ports = s.ports
    ∧ (s.setRun r).attWait = s.attWait ∧ (s.setRun r).downLinks = s.downLinks ∧ (s.setRun r).fseqOut = s.fseqOut
    ∧ (s.setRun r).fseqSeen = s.fseqSeen ∧ (s.setRun r).lfsr = s.lfsr ∧ (s.setRun r).faulted = s.faulted ∧ (s.setRun r).admitted = s.admitted
    ∧ (s.setRun r).inService = s.inService ∧ (s.setRun r).deferred = s.deferred ∧ (s.setRun r).ctxHalves = s.ctxHalves
    ∧ (s.setRun r).ctxKeys = s.ctxKeys ∧ (s.setRun r).comms = s.comms ∧ (s.setRun r).lost = s.lost ∧ (s.setRun r).placeReqs = s.placeReqs
    ∧ (s.setRun r).parkedReqs = s.parkedReqs ∧ (s.setRun r).xlates = s.xlates ∧ (s.setRun r).parks = s.parks ∧ (s.setRun r).hreads = s.hreads
    ∧ (s.setRun r).nextTag = s.nextTag ∧ (s.setRun r).invals = s.invals ∧ (s.setRun r).winDir = s.winDir ∧ (s.setRun r).winWaits = s.winWaits
    ∧ (s.setRun r).winStore = s.winStore ∧ (s.setRun r).winPoison = s.winPoison ∧ (s.setRun r).accels = s.accels ∧ (s.setRun r).latoms = s.latoms
    ∧ (s.setRun r).unitWaits = s.unitWaits ∧ (s.setRun r).journals = s.journals ∧ (s.setRun r).lostLines = s.lostLines
    ∧ (s.setRun r).poolWaits = s.poolWaits ∧ (s.setRun r).store = s.store ∧ (s.setRun r).colls = s.colls ∧ (s.setRun r).slots = s.slots
    ∧ (s.setRun r).xfers = s.xfers ∧ (s.setRun r).arrivals = s.arrivals ∧ (s.setRun r).foreign = s.foreign ∧ (s.setRun r).losses = s.losses
    ∧ (s.setRun r).digests = s.digests ∧ (s.setRun r).mapDigs = s.mapDigs ∧ (s.setRun r).rticks = s.rticks ∧ (s.setRun r).progs = s.progs
    ∧ (s.setRun r).jobs = s.jobs ∧ (s.setRun r).claims = s.claims ∧ (s.setRun r).frogSeen = s.frogSeen ∧ (s.setRun r).rekey = s.rekey
    ∧ (s.setRun r).darnWait = s.darnWait ∧ (s.setRun r).darnReads = s.darnReads ∧ (s.setRun r).darnIn = s.darnIn ∧ (s.setRun r).tier = s.tier
    ∧ (s.setRun r).restores = s.restores ∧ (s.setRun r).govRate = s.govRate ∧ (s.setRun r).govCredit = s.govCredit
    ∧ (s.setRun r).firstCastOn = s.firstCastOn ∧ (s.setRun r).kslots = s.kslots ∧ (s.setRun r).mons = s.mons ∧ (s.setRun r).keyCmds = s.keyCmds
    ∧ (s.setRun r).slotWaits = s.slotWaits ∧ (s.setRun r).mrs = s.mrs ∧ (s.setRun r).sec = s.sec ∧ (s.setRun r).mgt = s.mgt
    ∧ (s.setRun r).pwr = s.pwr ∧ (s.setRun r).frozen = s.frozen ∧ (s.setRun r).snaps = s.snaps ∧ (s.setRun r).winHeld = s.winHeld
    ∧ (s.setRun r).mediaTotal = s.mediaTotal ∧ (s.setRun r).epoch = s.epoch := by and_intros <;> rfl

/-- A row-counter write changes the row counters only. -/
@[simp] theorem State.setRowc_frame (c : Nat) (v : DWord) :
    (s.setRowc c v).pending = s.pending ∧ (s.setRowc c v).out = s.out ∧ (s.setRowc c v).freeIdx = s.freeIdx ∧ (s.setRowc c v).time = s.time
    ∧ (s.setRowc c v).regs = s.regs ∧ (s.setRowc c v).staged = s.staged ∧ (s.setRowc c v).ev = s.ev ∧ (s.setRowc c v).pool = s.pool
    ∧ (s.setRowc c v).funcs = s.funcs ∧ (s.setRowc c v).queues = s.queues ∧ (s.setRowc c v).runs = s.runs ∧ (s.setRowc c v).nextRid = s.nextRid
    ∧ (s.setRowc c v).stamp = s.stamp ∧ (s.setRowc c v).txns = s.txns ∧ (s.setRowc c v).fring = s.fring ∧ (s.setRowc c v).qring = s.qring
    ∧ (s.setRowc c v).fdef = s.fdef ∧ (s.setRowc c v).keys = s.keys ∧ (s.setRowc c v).freedKeys = s.freedKeys ∧ (s.setRowc c v).paths = s.paths
    ∧ (s.setRowc c v).routeQ = s.routeQ ∧ (s.setRowc c v).heldEsc = s.heldEsc ∧ (s.setRowc c v).localIn = s.localIn
    ∧ (s.setRowc c v).ports = s.ports ∧ (s.setRowc c v).attWait = s.attWait ∧ (s.setRowc c v).downLinks = s.downLinks
    ∧ (s.setRowc c v).fseqOut = s.fseqOut ∧ (s.setRowc c v).fseqSeen = s.fseqSeen ∧ (s.setRowc c v).lfsr = s.lfsr
    ∧ (s.setRowc c v).faulted = s.faulted ∧ (s.setRowc c v).admitted = s.admitted ∧ (s.setRowc c v).inService = s.inService
    ∧ (s.setRowc c v).deferred = s.deferred ∧ (s.setRowc c v).ctxHalves = s.ctxHalves ∧ (s.setRowc c v).ctxKeys = s.ctxKeys
    ∧ (s.setRowc c v).comms = s.comms ∧ (s.setRowc c v).lost = s.lost ∧ (s.setRowc c v).placeReqs = s.placeReqs
    ∧ (s.setRowc c v).parkedReqs = s.parkedReqs ∧ (s.setRowc c v).xlates = s.xlates ∧ (s.setRowc c v).parks = s.parks
    ∧ (s.setRowc c v).hreads = s.hreads ∧ (s.setRowc c v).nextTag = s.nextTag ∧ (s.setRowc c v).invals = s.invals
    ∧ (s.setRowc c v).winDir = s.winDir ∧ (s.setRowc c v).winWaits = s.winWaits ∧ (s.setRowc c v).winStore = s.winStore
    ∧ (s.setRowc c v).winPoison = s.winPoison ∧ (s.setRowc c v).accels = s.accels ∧ (s.setRowc c v).latoms = s.latoms
    ∧ (s.setRowc c v).unitWaits = s.unitWaits ∧ (s.setRowc c v).journals = s.journals ∧ (s.setRowc c v).lostLines = s.lostLines
    ∧ (s.setRowc c v).poolWaits = s.poolWaits ∧ (s.setRowc c v).store = s.store ∧ (s.setRowc c v).colls = s.colls ∧ (s.setRowc c v).slots = s.slots
    ∧ (s.setRowc c v).xfers = s.xfers ∧ (s.setRowc c v).arrivals = s.arrivals ∧ (s.setRowc c v).foreign = s.foreign
    ∧ (s.setRowc c v).losses = s.losses ∧ (s.setRowc c v).digests = s.digests ∧ (s.setRowc c v).mapDigs = s.mapDigs
    ∧ (s.setRowc c v).rticks = s.rticks ∧ (s.setRowc c v).progs = s.progs ∧ (s.setRowc c v).jobs = s.jobs ∧ (s.setRowc c v).claims = s.claims
    ∧ (s.setRowc c v).frogSeen = s.frogSeen ∧ (s.setRowc c v).rekey = s.rekey ∧ (s.setRowc c v).darnWait = s.darnWait
    ∧ (s.setRowc c v).darnReads = s.darnReads ∧ (s.setRowc c v).darnIn = s.darnIn ∧ (s.setRowc c v).tier = s.tier
    ∧ (s.setRowc c v).restores = s.restores ∧ (s.setRowc c v).govRate = s.govRate ∧ (s.setRowc c v).govCredit = s.govCredit
    ∧ (s.setRowc c v).firstCastOn = s.firstCastOn ∧ (s.setRowc c v).kslots = s.kslots ∧ (s.setRowc c v).mons = s.mons
    ∧ (s.setRowc c v).keyCmds = s.keyCmds ∧ (s.setRowc c v).slotWaits = s.slotWaits ∧ (s.setRowc c v).mrs = s.mrs ∧ (s.setRowc c v).sec = s.sec
    ∧ (s.setRowc c v).mgt = s.mgt ∧ (s.setRowc c v).pwr = s.pwr ∧ (s.setRowc c v).frozen = s.frozen ∧ (s.setRowc c v).snaps = s.snaps
    ∧ (s.setRowc c v).winHeld = s.winHeld ∧ (s.setRowc c v).mediaTotal = s.mediaTotal ∧ (s.setRowc c v).epoch = s.epoch := by and_intros <;> rfl

/-- A pool write changes pooled memory only. -/
@[simp] theorem State.pwrite_frame (o : Nat) (bs : List Byte) :
    (s.pwrite o bs).pending = s.pending ∧ (s.pwrite o bs).out = s.out ∧ (s.pwrite o bs).freeIdx = s.freeIdx ∧ (s.pwrite o bs).time = s.time
    ∧ (s.pwrite o bs).regs = s.regs ∧ (s.pwrite o bs).staged = s.staged ∧ (s.pwrite o bs).ev = s.ev ∧ (s.pwrite o bs).rowCtr = s.rowCtr
    ∧ (s.pwrite o bs).funcs = s.funcs ∧ (s.pwrite o bs).queues = s.queues ∧ (s.pwrite o bs).runs = s.runs ∧ (s.pwrite o bs).nextRid = s.nextRid
    ∧ (s.pwrite o bs).stamp = s.stamp ∧ (s.pwrite o bs).txns = s.txns ∧ (s.pwrite o bs).fring = s.fring ∧ (s.pwrite o bs).qring = s.qring
    ∧ (s.pwrite o bs).fdef = s.fdef ∧ (s.pwrite o bs).keys = s.keys ∧ (s.pwrite o bs).freedKeys = s.freedKeys ∧ (s.pwrite o bs).paths = s.paths
    ∧ (s.pwrite o bs).routeQ = s.routeQ ∧ (s.pwrite o bs).heldEsc = s.heldEsc ∧ (s.pwrite o bs).localIn = s.localIn
    ∧ (s.pwrite o bs).ports = s.ports ∧ (s.pwrite o bs).attWait = s.attWait ∧ (s.pwrite o bs).downLinks = s.downLinks
    ∧ (s.pwrite o bs).fseqOut = s.fseqOut ∧ (s.pwrite o bs).fseqSeen = s.fseqSeen ∧ (s.pwrite o bs).lfsr = s.lfsr
    ∧ (s.pwrite o bs).faulted = s.faulted ∧ (s.pwrite o bs).admitted = s.admitted ∧ (s.pwrite o bs).inService = s.inService
    ∧ (s.pwrite o bs).deferred = s.deferred ∧ (s.pwrite o bs).ctxHalves = s.ctxHalves ∧ (s.pwrite o bs).ctxKeys = s.ctxKeys
    ∧ (s.pwrite o bs).comms = s.comms ∧ (s.pwrite o bs).lost = s.lost ∧ (s.pwrite o bs).placeReqs = s.placeReqs
    ∧ (s.pwrite o bs).parkedReqs = s.parkedReqs ∧ (s.pwrite o bs).xlates = s.xlates ∧ (s.pwrite o bs).parks = s.parks
    ∧ (s.pwrite o bs).hreads = s.hreads ∧ (s.pwrite o bs).nextTag = s.nextTag ∧ (s.pwrite o bs).invals = s.invals
    ∧ (s.pwrite o bs).winDir = s.winDir ∧ (s.pwrite o bs).winWaits = s.winWaits ∧ (s.pwrite o bs).winStore = s.winStore
    ∧ (s.pwrite o bs).winPoison = s.winPoison ∧ (s.pwrite o bs).accels = s.accels ∧ (s.pwrite o bs).latoms = s.latoms
    ∧ (s.pwrite o bs).unitWaits = s.unitWaits ∧ (s.pwrite o bs).journals = s.journals ∧ (s.pwrite o bs).lostLines = s.lostLines
    ∧ (s.pwrite o bs).poolWaits = s.poolWaits ∧ (s.pwrite o bs).store = s.store ∧ (s.pwrite o bs).colls = s.colls ∧ (s.pwrite o bs).slots = s.slots
    ∧ (s.pwrite o bs).xfers = s.xfers ∧ (s.pwrite o bs).arrivals = s.arrivals ∧ (s.pwrite o bs).foreign = s.foreign
    ∧ (s.pwrite o bs).losses = s.losses ∧ (s.pwrite o bs).digests = s.digests ∧ (s.pwrite o bs).mapDigs = s.mapDigs
    ∧ (s.pwrite o bs).rticks = s.rticks ∧ (s.pwrite o bs).progs = s.progs ∧ (s.pwrite o bs).jobs = s.jobs ∧ (s.pwrite o bs).claims = s.claims
    ∧ (s.pwrite o bs).frogSeen = s.frogSeen ∧ (s.pwrite o bs).rekey = s.rekey ∧ (s.pwrite o bs).darnWait = s.darnWait
    ∧ (s.pwrite o bs).darnReads = s.darnReads ∧ (s.pwrite o bs).darnIn = s.darnIn ∧ (s.pwrite o bs).tier = s.tier
    ∧ (s.pwrite o bs).restores = s.restores ∧ (s.pwrite o bs).govRate = s.govRate ∧ (s.pwrite o bs).govCredit = s.govCredit
    ∧ (s.pwrite o bs).firstCastOn = s.firstCastOn ∧ (s.pwrite o bs).kslots = s.kslots ∧ (s.pwrite o bs).mons = s.mons
    ∧ (s.pwrite o bs).keyCmds = s.keyCmds ∧ (s.pwrite o bs).slotWaits = s.slotWaits ∧ (s.pwrite o bs).mrs = s.mrs ∧ (s.pwrite o bs).sec = s.sec
    ∧ (s.pwrite o bs).mgt = s.mgt ∧ (s.pwrite o bs).pwr = s.pwr ∧ (s.pwrite o bs).frozen = s.frozen ∧ (s.pwrite o bs).snaps = s.snaps
    ∧ (s.pwrite o bs).winHeld = s.winHeld ∧ (s.pwrite o bs).mediaTotal = s.mediaTotal ∧ (s.pwrite o bs).epoch = s.epoch := by and_intros <;> rfl

/-- A port write changes the ports only. -/
@[simp] theorem State.setPort_frame (p : Nat) (x : Port) :
    (s.setPort p x).pending = s.pending ∧ (s.setPort p x).out = s.out ∧ (s.setPort p x).freeIdx = s.freeIdx ∧ (s.setPort p x).time = s.time
    ∧ (s.setPort p x).regs = s.regs ∧ (s.setPort p x).staged = s.staged ∧ (s.setPort p x).ev = s.ev ∧ (s.setPort p x).rowCtr = s.rowCtr
    ∧ (s.setPort p x).pool = s.pool ∧ (s.setPort p x).funcs = s.funcs ∧ (s.setPort p x).queues = s.queues ∧ (s.setPort p x).runs = s.runs
    ∧ (s.setPort p x).nextRid = s.nextRid ∧ (s.setPort p x).stamp = s.stamp ∧ (s.setPort p x).txns = s.txns ∧ (s.setPort p x).fring = s.fring
    ∧ (s.setPort p x).qring = s.qring ∧ (s.setPort p x).fdef = s.fdef ∧ (s.setPort p x).keys = s.keys ∧ (s.setPort p x).freedKeys = s.freedKeys
    ∧ (s.setPort p x).paths = s.paths ∧ (s.setPort p x).routeQ = s.routeQ ∧ (s.setPort p x).heldEsc = s.heldEsc
    ∧ (s.setPort p x).localIn = s.localIn ∧ (s.setPort p x).attWait = s.attWait ∧ (s.setPort p x).downLinks = s.downLinks
    ∧ (s.setPort p x).fseqOut = s.fseqOut ∧ (s.setPort p x).fseqSeen = s.fseqSeen ∧ (s.setPort p x).lfsr = s.lfsr
    ∧ (s.setPort p x).faulted = s.faulted ∧ (s.setPort p x).admitted = s.admitted ∧ (s.setPort p x).inService = s.inService
    ∧ (s.setPort p x).deferred = s.deferred ∧ (s.setPort p x).ctxHalves = s.ctxHalves ∧ (s.setPort p x).ctxKeys = s.ctxKeys
    ∧ (s.setPort p x).comms = s.comms ∧ (s.setPort p x).lost = s.lost ∧ (s.setPort p x).placeReqs = s.placeReqs
    ∧ (s.setPort p x).parkedReqs = s.parkedReqs ∧ (s.setPort p x).xlates = s.xlates ∧ (s.setPort p x).parks = s.parks
    ∧ (s.setPort p x).hreads = s.hreads ∧ (s.setPort p x).nextTag = s.nextTag ∧ (s.setPort p x).invals = s.invals
    ∧ (s.setPort p x).winDir = s.winDir ∧ (s.setPort p x).winWaits = s.winWaits ∧ (s.setPort p x).winStore = s.winStore
    ∧ (s.setPort p x).winPoison = s.winPoison ∧ (s.setPort p x).accels = s.accels ∧ (s.setPort p x).latoms = s.latoms
    ∧ (s.setPort p x).unitWaits = s.unitWaits ∧ (s.setPort p x).journals = s.journals ∧ (s.setPort p x).lostLines = s.lostLines
    ∧ (s.setPort p x).poolWaits = s.poolWaits ∧ (s.setPort p x).store = s.store ∧ (s.setPort p x).colls = s.colls ∧ (s.setPort p x).slots = s.slots
    ∧ (s.setPort p x).xfers = s.xfers ∧ (s.setPort p x).arrivals = s.arrivals ∧ (s.setPort p x).foreign = s.foreign
    ∧ (s.setPort p x).losses = s.losses ∧ (s.setPort p x).digests = s.digests ∧ (s.setPort p x).mapDigs = s.mapDigs
    ∧ (s.setPort p x).rticks = s.rticks ∧ (s.setPort p x).progs = s.progs ∧ (s.setPort p x).jobs = s.jobs ∧ (s.setPort p x).claims = s.claims
    ∧ (s.setPort p x).frogSeen = s.frogSeen ∧ (s.setPort p x).rekey = s.rekey ∧ (s.setPort p x).darnWait = s.darnWait
    ∧ (s.setPort p x).darnReads = s.darnReads ∧ (s.setPort p x).darnIn = s.darnIn ∧ (s.setPort p x).tier = s.tier
    ∧ (s.setPort p x).restores = s.restores ∧ (s.setPort p x).govRate = s.govRate ∧ (s.setPort p x).govCredit = s.govCredit
    ∧ (s.setPort p x).firstCastOn = s.firstCastOn ∧ (s.setPort p x).kslots = s.kslots ∧ (s.setPort p x).mons = s.mons
    ∧ (s.setPort p x).keyCmds = s.keyCmds ∧ (s.setPort p x).slotWaits = s.slotWaits ∧ (s.setPort p x).mrs = s.mrs ∧ (s.setPort p x).sec = s.sec
    ∧ (s.setPort p x).mgt = s.mgt ∧ (s.setPort p x).pwr = s.pwr ∧ (s.setPort p x).frozen = s.frozen ∧ (s.setPort p x).snaps = s.snaps
    ∧ (s.setPort p x).winHeld = s.winHeld ∧ (s.setPort p x).mediaTotal = s.mediaTotal ∧ (s.setPort p x).epoch = s.epoch := by and_intros <;> rfl

/-- A port update changes the ports only. -/
@[simp] theorem State.modPort_frame (p : Nat) (h : Port → Port) :
    (s.modPort p h).pending = s.pending ∧ (s.modPort p h).out = s.out ∧ (s.modPort p h).freeIdx = s.freeIdx ∧ (s.modPort p h).time = s.time
    ∧ (s.modPort p h).regs = s.regs ∧ (s.modPort p h).staged = s.staged ∧ (s.modPort p h).ev = s.ev ∧ (s.modPort p h).rowCtr = s.rowCtr
    ∧ (s.modPort p h).pool = s.pool ∧ (s.modPort p h).funcs = s.funcs ∧ (s.modPort p h).queues = s.queues ∧ (s.modPort p h).runs = s.runs
    ∧ (s.modPort p h).nextRid = s.nextRid ∧ (s.modPort p h).stamp = s.stamp ∧ (s.modPort p h).txns = s.txns ∧ (s.modPort p h).fring = s.fring
    ∧ (s.modPort p h).qring = s.qring ∧ (s.modPort p h).fdef = s.fdef ∧ (s.modPort p h).keys = s.keys ∧ (s.modPort p h).freedKeys = s.freedKeys
    ∧ (s.modPort p h).paths = s.paths ∧ (s.modPort p h).routeQ = s.routeQ ∧ (s.modPort p h).heldEsc = s.heldEsc
    ∧ (s.modPort p h).localIn = s.localIn ∧ (s.modPort p h).attWait = s.attWait ∧ (s.modPort p h).downLinks = s.downLinks
    ∧ (s.modPort p h).fseqOut = s.fseqOut ∧ (s.modPort p h).fseqSeen = s.fseqSeen ∧ (s.modPort p h).lfsr = s.lfsr
    ∧ (s.modPort p h).faulted = s.faulted ∧ (s.modPort p h).admitted = s.admitted ∧ (s.modPort p h).inService = s.inService
    ∧ (s.modPort p h).deferred = s.deferred ∧ (s.modPort p h).ctxHalves = s.ctxHalves ∧ (s.modPort p h).ctxKeys = s.ctxKeys
    ∧ (s.modPort p h).comms = s.comms ∧ (s.modPort p h).lost = s.lost ∧ (s.modPort p h).placeReqs = s.placeReqs
    ∧ (s.modPort p h).parkedReqs = s.parkedReqs ∧ (s.modPort p h).xlates = s.xlates ∧ (s.modPort p h).parks = s.parks
    ∧ (s.modPort p h).hreads = s.hreads ∧ (s.modPort p h).nextTag = s.nextTag ∧ (s.modPort p h).invals = s.invals
    ∧ (s.modPort p h).winDir = s.winDir ∧ (s.modPort p h).winWaits = s.winWaits ∧ (s.modPort p h).winStore = s.winStore
    ∧ (s.modPort p h).winPoison = s.winPoison ∧ (s.modPort p h).accels = s.accels ∧ (s.modPort p h).latoms = s.latoms
    ∧ (s.modPort p h).unitWaits = s.unitWaits ∧ (s.modPort p h).journals = s.journals ∧ (s.modPort p h).lostLines = s.lostLines
    ∧ (s.modPort p h).poolWaits = s.poolWaits ∧ (s.modPort p h).store = s.store ∧ (s.modPort p h).colls = s.colls ∧ (s.modPort p h).slots = s.slots
    ∧ (s.modPort p h).xfers = s.xfers ∧ (s.modPort p h).arrivals = s.arrivals ∧ (s.modPort p h).foreign = s.foreign
    ∧ (s.modPort p h).losses = s.losses ∧ (s.modPort p h).digests = s.digests ∧ (s.modPort p h).mapDigs = s.mapDigs
    ∧ (s.modPort p h).rticks = s.rticks ∧ (s.modPort p h).progs = s.progs ∧ (s.modPort p h).jobs = s.jobs ∧ (s.modPort p h).claims = s.claims
    ∧ (s.modPort p h).frogSeen = s.frogSeen ∧ (s.modPort p h).rekey = s.rekey ∧ (s.modPort p h).darnWait = s.darnWait
    ∧ (s.modPort p h).darnReads = s.darnReads ∧ (s.modPort p h).darnIn = s.darnIn ∧ (s.modPort p h).tier = s.tier
    ∧ (s.modPort p h).restores = s.restores ∧ (s.modPort p h).govRate = s.govRate ∧ (s.modPort p h).govCredit = s.govCredit
    ∧ (s.modPort p h).firstCastOn = s.firstCastOn ∧ (s.modPort p h).kslots = s.kslots ∧ (s.modPort p h).mons = s.mons
    ∧ (s.modPort p h).keyCmds = s.keyCmds ∧ (s.modPort p h).slotWaits = s.slotWaits ∧ (s.modPort p h).mrs = s.mrs ∧ (s.modPort p h).sec = s.sec
    ∧ (s.modPort p h).mgt = s.mgt ∧ (s.modPort p h).pwr = s.pwr ∧ (s.modPort p h).frozen = s.frozen ∧ (s.modPort p h).snaps = s.snaps
    ∧ (s.modPort p h).winHeld = s.winHeld ∧ (s.modPort p h).mediaTotal = s.mediaTotal ∧ (s.modPort p h).epoch = s.epoch := by and_intros <;> rfl

end Sys2Proof.Machine
end

