-- ==== Sys2Proof/Laws/Tab.lean ====
section
/-! SUPPORT. Sparse tables: reading after writing, and the canonical form that every write keeps. -/

namespace Sys2Proof

variable {β : Type}

theorem Tab.get_insert (d : Nat → β) (t : Tab β) (k : Nat) (v : β) (j : Nat) :
    Tab.get d (Tab.insert t k v) j = if j = k then v else Tab.get d t j := by
  induction t with
  | nil => simp [Tab.insert, Tab.get, eq_comm]
  | cons e t ih =>
    obtain ⟨a, w⟩ := e
    simp only [Tab.insert]
    split
    · simp only [Tab.get, eq_comm (a := k)]
    · split
      · rename_i h; subst h; simp only [Tab.get, eq_comm (a := k)]; split <;> rfl
      · simp only [Tab.get, ih]
        by_cases h : a = j
        · subst h; rename_i h1 h2; simp [Ne.symm h2]
        · simp [h]

theorem Tab.get_filter (d : Nat → β) (t : Tab β) (k j : Nat) :
    Tab.get d (t.filter (fun e => e.1 != k)) j = if j = k then d k else Tab.get d t j := by
  induction t with
  | nil => by_cases h : j = k <;> simp [Tab.get, h]
  | cons e t ih =>
    obtain ⟨a, w⟩ := e
    by_cases ha : a = k
    · subst ha; by_cases h : j = a <;> simp_all [Tab.get, eq_comm]
    · simp only [List.filter, show (a != k) = true by simpa using ha, Tab.get, ih]
      by_cases h : a = j
      · subst h; simp [ha]
      · simp [h]

/-- Reading a table after a write. -/
@[simp] theorem Tab.get_put [DecidableEq β] (d : Nat → β) (t : Tab β) (k : Nat) (v : β) (j : Nat) :
    Tab.get d (Tab.put d t k v) j = if j = k then v else Tab.get d t j := by
  unfold Tab.put
  split
  · rename_i h; rw [Tab.get_filter, h]
  · rw [Tab.get_insert]

@[simp] theorem Tab.get_nil (d : Nat → β) (j : Nat) : Tab.get d [] j = d j := rfl

theorem Tab.mem_insert (t : Tab β) (k : Nat) (v : β) (e : Nat × β) : e ∈ Tab.insert t k v → e = (k, v) ∨ e ∈ t := by
  induction t with
  | nil => simp [Tab.insert]
  | cons f t ih =>
    obtain ⟨a, w⟩ := f
    simp only [Tab.insert]
    split
    · simp
    · split
      · intro h; simp at h ⊢; tauto
      · intro h; simp at h ⊢; tauto

theorem Tab.sorted_insert (t : Tab β) (k : Nat) (v : β) (h : (t.map Prod.fst).Pairwise (· < ·)) :
    ((Tab.insert t k v).map Prod.fst).Pairwise (· < ·) := by
  induction t with
  | nil => simp [Tab.insert]
  | cons f t ih =>
    obtain ⟨a, w⟩ := f
    simp only [List.map_cons, List.pairwise_cons] at h
    simp only [Tab.insert]
    split
    · rename_i hk
      simp only [List.map_cons, List.pairwise_cons]
      refine ⟨?_, h⟩
      intro x hx
      rcases List.mem_cons.1 hx with rfl | hx
      · exact hk
      · exact lt_trans hk (h.1 x hx)
    · split
      · rename_i hk; subst hk; simpa using h
      · rename_i h1 h2
        simp only [List.map_cons, List.pairwise_cons]
        refine ⟨?_, ih h.2⟩
        intro x hx
        obtain ⟨e, he, rfl⟩ := List.mem_map.1 hx
        rcases Tab.mem_insert t k v e he with rfl | he
        · simp only; omega
        · exact h.1 _ (List.mem_map_of_mem he)

/-- The empty table is in canonical form. -/
@[simp] theorem Tab.wf_nil [DecidableEq β] (d : Nat → β) : Tab.wf d [] = true := by simp [Tab.wf]

/-- A write keeps the canonical form. -/
theorem Tab.wf_put [DecidableEq β] (d : Nat → β) (t : Tab β) (k : Nat) (v : β) (h : Tab.wf d t = true) : Tab.wf d (Tab.put d t k v) = true := by
  simp only [Tab.wf, Bool.and_eq_true, decide_eq_true_eq, List.all_eq_true, bne_iff_ne] at h ⊢
  unfold Tab.put
  split
  · exact ⟨h.1.sublist (List.filter_sublist.map _), fun e he => h.2 e (List.mem_of_mem_filter he)⟩
  · rename_i hv
    refine ⟨Tab.sorted_insert t k v h.1, fun e he => ?_⟩
    rcases Tab.mem_insert t k v e he with rfl | he
    · exact hv
    · exact h.2 e he

/-- A write of consecutive values keeps the canonical form. -/
theorem Tab.wf_putAll [DecidableEq β] (d : Nat → β) (vs : List β) :
    ∀ (t : Tab β) (k : Nat), Tab.wf d t = true → Tab.wf d (Tab.putAll d t k vs) = true := by
  induction vs with
  | nil => intro t k h; exact h
  | cons v vs ih => intro t k h; exact ih _ _ (Tab.wf_put d t k v h)

end Sys2Proof
end

