-- ==== Sys2Proof/Laws/Access.lean ====
section
/-! SUPPORT. Each accessor after each update of what it reads, and the canonical forms that the primitive updates keep. -/

namespace Sys2Proof.Machine

variable (s : State)

/-! ## Accessors -/

@[simp] theorem State.reg_setReg (a : Nat) (v : Word) (b : Nat) : (s.setReg a v).reg b = if b = a then v else s.reg b := by
  simp [State.reg, State.setReg]

@[simp] theorem State.counter_count (a n b : Nat) : (s.count a n).counter b = if b = a then s.counter a + BitVec.ofNat 64 n else s.counter b := by
  simp [State.counter, State.count]

@[simp] theorem State.func_setFunc (f : Nat) (x : Func) (k : Nat) : (s.setFunc f x).func k = if k = f then x else s.func k := by
  simp [State.func, State.setFunc]

@[simp] theorem State.queue_setQueue (g : Nat) (q : Queue) (k : Nat) : (s.setQueue g q).queue k = if k = g then q else s.queue k := by
  simp [State.queue, State.setQueue]

@[simp] theorem State.key_setKey (i : Nat) (x : KeyEnt) (k : Nat) : (s.setKey i x).key k = if k = i then x else s.key k := by
  simp [State.key, State.setKey]

@[simp] theorem State.path_setPath (n : Nat) (x : Path) (k : Nat) : (s.setPath n x).path k = if k = n then x else s.path k := by
  simp [State.path, State.setPath]

@[simp] theorem State.accel_setAccel (a : Nat) (x : Accel) (k : Nat) : (s.setAccel a x).accel k = if k = a then x else s.accel k := by
  simp [State.accel, State.setAccel]

@[simp] theorem State.port_setPort (p : Nat) (x : Port) (k : Nat) : (s.setPort p x).port k = if k = p then x else s.port k := by
  simp [State.port, State.setPort]

@[simp] theorem State.rowc_setRowc (c : Nat) (v : DWord) (k : Nat) : (s.setRowc c v).rowc k = if k = c then v else s.rowc k := by
  simp [State.rowc, State.setRowc]

@[simp] theorem State.queue_modQueue (g : Nat) (h : Queue → Queue) (k : Nat) :
    (s.modQueue g h).queue k = if k = g then h (s.queue g) else s.queue k := by simp [State.modQueue]

@[simp] theorem State.path_modPath (n : Nat) (h : Path → Path) (k : Nat) :
    (s.modPath n h).path k = if k = n then h (s.path n) else s.path k := by simp [State.modPath]

@[simp] theorem State.port_modPort (p : Nat) (h : Port → Port) (k : Nat) :
    (s.modPort p h).port k = if k = p then h (s.port p) else s.port k := by simp [State.modPort]

/-- An accessor reads one field of State. -/
theorem State.reg_congr {s t : State} (h : s.regs = t.regs) (a : Nat) : s.reg a = t.reg a := by simp [State.reg, h]

@[simp] theorem State.setReg_reads (a : Nat) (v : Word) :
    (∀ b, (s.setReg a v).counter b = s.counter b) ∧ (∀ g, (s.setReg a v).queue g = s.queue g) ∧ (∀ f, (s.setReg a v).func f = s.func f)
    ∧ (∀ i, (s.setReg a v).key i = s.key i) ∧ (∀ p, (s.setReg a v).port p = s.port p) ∧ (∀ n, (s.setReg a v).path n = s.path n)
    ∧ (∀ x, (s.setReg a v).accel x = s.accel x) ∧ (∀ c, (s.setReg a v).rowc c = s.rowc c) ∧ ∀ o, (s.setReg a v).pbyte o = s.pbyte o := by
  and_intros <;> intro _ <;> rfl

@[simp] theorem State.count_reads (a n : Nat) :
    (∀ b, (s.count a n).reg b = s.reg b) ∧ (∀ g, (s.count a n).queue g = s.queue g) ∧ (∀ f, (s.count a n).func f = s.func f)
    ∧ (∀ i, (s.count a n).key i = s.key i) ∧ (∀ p, (s.count a n).port p = s.port p) ∧ (∀ m, (s.count a n).path m = s.path m)
    ∧ (∀ x, (s.count a n).accel x = s.accel x) ∧ (∀ c, (s.count a n).rowc c = s.rowc c) ∧ ∀ o, (s.count a n).pbyte o = s.pbyte o := by
  and_intros <;> intro _ <;> rfl

@[simp] theorem State.setQueue_reads (g : Nat) (q : Queue) :
    (∀ b, (s.setQueue g q).reg b = s.reg b) ∧ (∀ b, (s.setQueue g q).counter b = s.counter b) ∧ (∀ f, (s.setQueue g q).func f = s.func f)
    ∧ (∀ i, (s.setQueue g q).key i = s.key i) ∧ (∀ p, (s.setQueue g q).port p = s.port p) ∧ ∀ n, (s.setQueue g q).path n = s.path n := by
  and_intros <;> intro _ <;> rfl

@[simp] theorem State.setKey_reads (i : Nat) (k : KeyEnt) :
    (∀ b, (s.setKey i k).reg b = s.reg b) ∧ (∀ b, (s.setKey i k).counter b = s.counter b) ∧ (∀ g, (s.setKey i k).queue g = s.queue g)
    ∧ ∀ f, (s.setKey i k).func f = s.func f := by
  and_intros <;> intro _ <;> rfl

@[simp] theorem State.setPort_reads (p : Nat) (x : Port) :
    (∀ b, (s.setPort p x).reg b = s.reg b) ∧ (∀ b, (s.setPort p x).counter b = s.counter b) ∧ (∀ g, (s.setPort p x).queue g = s.queue g)
    ∧ ∀ f, (s.setPort p x).func f = s.func f := by
  and_intros <;> intro _ <;> rfl

@[simp] theorem State.modPort_reads (p : Nat) (h : Port → Port) :
    (∀ b, (s.modPort p h).reg b = s.reg b) ∧ (∀ b, (s.modPort p h).counter b = s.counter b) ∧ (∀ g, (s.modPort p h).queue g = s.queue g)
    ∧ ∀ f, (s.modPort p h).func f = s.func f := by
  and_intros <;> intro _ <;> rfl

@[simp] theorem State.setPath_reads (n : Nat) (x : Path) :
    (∀ b, (s.setPath n x).reg b = s.reg b) ∧ (∀ b, (s.setPath n x).counter b = s.counter b) ∧ (∀ g, (s.setPath n x).queue g = s.queue g)
    ∧ (∀ f, (s.setPath n x).func f = s.func f) ∧ ∀ p, (s.setPath n x).port p = s.port p := by
  and_intros <;> intro _ <;> rfl

@[simp] theorem State.setFunc_reads (f : Nat) (x : Func) :
    (∀ b, (s.setFunc f x).reg b = s.reg b) ∧ (∀ b, (s.setFunc f x).counter b = s.counter b) ∧ (∀ g, (s.setFunc f x).queue g = s.queue g)
    ∧ ∀ p, (s.setFunc f x).port p = s.port p := by
  and_intros <;> intro _ <;> rfl

@[simp] theorem State.emit_reads (o : Out) :
    (∀ b, (s.emit o).reg b = s.reg b) ∧ (∀ b, (s.emit o).counter b = s.counter b) ∧ (∀ g, (s.emit o).queue g = s.queue g)
    ∧ (∀ f, (s.emit o).func f = s.func f) ∧ (∀ p, (s.emit o).port p = s.port p) ∧ (s.emit o).out = s.out ++ [o] := by
  and_intros <;> (try intro _) <;> rfl

/-! ## Fields of registers -/

theorem bitMask_getLsbD (lo w k : Nat) (hk : k < 32) : (bitMask lo w).getLsbD k = decide (lo ≤ k ∧ k < lo + w) := by
  simp only [bitMask, BitVec.getLsbD_ofNat, hk, decide_true, Bool.true_and, Nat.testBit_mul_two_pow, Nat.testBit_two_pow_sub_one]
  rw [← Bool.decide_and]
  exact decide_eq_decide.2 (by omega)

/-- The bits of a word into which a field was inserted. -/
theorem insertBits_getLsbD (x : Word) (lo w v k : Nat) (hk : k < 32) :
    (insertBits x lo w v).getLsbD k = if lo ≤ k ∧ k < lo + w then v.testBit (k - lo) else x.getLsbD k := by
  simp only [insertBits, BitVec.getLsbD_or, BitVec.getLsbD_and, BitVec.getLsbD_not, bitMask_getLsbD _ _ _ hk, BitVec.getLsbD_ofNat, hk, decide_true,
    Bool.true_and, Nat.testBit_mul_two_pow, Nat.testBit_mod_two_pow]
  by_cases h : lo ≤ k ∧ k < lo + w
  · have : k - lo < w := by omega
    simp [h, this]
  · by_cases h1 : lo ≤ k
    · have h2 : ¬ k - lo < w := by omega
      have h3 : ¬ k < lo + w := by omega
      simp [h1, h2, h3]
    · simp [h1]

/-- A field read after a write of the same field. -/
theorem extractBits_insertBits (x : Word) (lo w v : Nat) (h : lo + w ≤ 32) : extractBits (insertBits x lo w v) lo w = v % 2 ^ w := by
  apply Nat.eq_of_testBit_eq
  intro i
  simp only [extractBits, Nat.testBit_mod_two_pow, Nat.testBit_div_two_pow]
  by_cases hi : i < w
  · have hk : i + lo < 32 := by omega
    have := insertBits_getLsbD x lo w v (i + lo) hk
    rw [BitVec.getLsbD, if_pos (by omega), Nat.add_sub_cancel] at this
    simp [hi, this]
  · simp [hi]

/-- A field read after a write of another field of the same word. -/
theorem extractBits_insertBits_other (x : Word) (lo w v lo' w' : Nat) (h : lo' + w' ≤ lo ∨ lo + w ≤ lo') (h' : lo' + w' ≤ 32) :
    extractBits (insertBits x lo w v) lo' w' = extractBits x lo' w' := by
  apply Nat.eq_of_testBit_eq
  intro i
  simp only [extractBits, Nat.testBit_mod_two_pow, Nat.testBit_div_two_pow]
  by_cases hi : i < w'
  · have hk : i + lo' < 32 := by omega
    have := insertBits_getLsbD x lo w v (i + lo') hk
    rw [BitVec.getLsbD, if_neg (by omega)] at this
    simp [hi, this, BitVec.getLsbD]
  · simp [hi]

theorem State.reg_setFld (a lo w v b : Nat) : (s.setFld a lo w v).reg b = if b = a then insertBits (s.reg a) lo w v else s.reg b := by
  simp [State.setFld]

theorem State.fld_setFld (a lo w v : Nat) (h : lo + w ≤ 32) : (s.setFld a lo w v).fld a lo w = v % 2 ^ w := by
  simp [State.fld, State.reg_setFld, extractBits_insertBits _ _ _ _ h]

theorem State.fld_setFld_other (a lo w v lo' w' : Nat) (h : lo' + w' ≤ lo ∨ lo + w ≤ lo') (h' : lo' + w' ≤ 32) :
    (s.setFld a lo w v).fld a lo' w' = s.fld a lo' w' := by
  simp [State.fld, State.reg_setFld, extractBits_insertBits_other _ _ _ _ _ _ h h']

theorem State.fld_setFld_ne (a lo w v b lo' w' : Nat) (h : b ≠ a) : (s.setFld a lo w v).fld b lo' w' = s.fld b lo' w' := by
  simp [State.fld, State.reg_setFld, h]

/-- A command's answer: RESULT is told, SEQ advances by one modulo 256, and no other register changes. -/
theorem State.setResult_told (a v : Nat) (h : v < 16) : State.told s (s.setResult a v) a v ∧ ∀ b, b ≠ a → (s.setResult a v).reg b = s.reg b := by
  refine ⟨⟨?_, ?_⟩, ?_⟩
  · rw [State.setResult, State.bumpSeq, State.fld_setFld_other _ _ _ _ _ _ _ (by omega) (by omega), State.fld_setFld _ _ _ _ _ (by omega)]
    omega
  · rw [State.setResult, State.bumpSeq, State.fld_setFld _ _ _ _ _ (by omega), State.fld_setFld_other _ _ _ _ _ _ _ (by omega) (by omega)]; rfl
  · intro b hb; simp [State.setResult, State.bumpSeq, State.reg_setFld, hb]

/-! ## Canonical forms -/

/-- A register write and a pool write keep the canonical forms, and so does any update that leaves both tables. -/
theorem State.setReg_canonical (h : s.canonical) (a : Nat) (v : Word) : (s.setReg a v).canonical := ⟨h.1, Tab.wf_put _ _ _ _ h.2⟩

theorem State.setFld_canonical (h : s.canonical) (a lo w v : Nat) : (s.setFld a lo w v).canonical := s.setReg_canonical h _ _

theorem State.pwrite_canonical (h : s.canonical) (o : Nat) (bs : List Byte) : (s.pwrite o bs).canonical := ⟨Tab.wf_putAll _ _ _ _ h.1, h.2⟩

theorem State.canonical_congr {s t : State} (h : s.canonical) (hp : t.pool = s.pool) (hr : t.regs = s.regs) : t.canonical := by
  simpa [State.canonical, State.poolWf, State.regsWf, hp, hr] using h

end Sys2Proof.Machine
end

