-- ==== Sys2Proof/Laws/Faults.lean ====
section
/-! SUPPORT. What raising a fault leaves: pooled memory, row counters, queues, running instructions, keys, communicators and the tier. -/

namespace Sys2Proof.Machine

/-- From s to t no memory, counter, queue, instruction, key, communicator or object of the tier changes. -/
def State.Calm (s t : State) : Prop :=
  t.pool = s.pool ∧ t.rowCtr = s.rowCtr ∧ t.queues = s.queues ∧ t.runs = s.runs ∧ t.keys = s.keys ∧ t.comms = s.comms ∧ t.tier = s.tier

theorem State.Calm.refl (s : State) : State.Calm s s := by simp [State.Calm]

theorem State.Calm.trans {s t u : State} (h : State.Calm s t) (k : State.Calm t u) : State.Calm s u := by
  simp only [State.Calm] at *
  obtain ⟨h1, h2, h3, h4, h5, h6, h7⟩ := h
  obtain ⟨k1, k2, k3, k4, k5, k6, k7⟩ := k
  simp [*]

variable (s : State)

theorem State.dlog_calm (f : Nat) (pa : DWord) : State.Calm s (s.dlog f pa).2 := by
  unfold State.dlog
  simp only []
  (repeat' split) <;> simp [State.Calm]

theorem State.postWrite_calm (f : Nat) (pasid : BitVec 20) (va : DWord) (bs : List Byte) : State.Calm s (s.postWrite f pasid va bs).2 := by
  unfold State.postWrite
  split
  · split
    · rename_i x _
      refine State.Calm.trans ?_ (State.Calm.trans ((s.touchXlate x).dlog_calm f (x.apply va)) ?_) <;> simp [State.Calm, State.touchXlate]
    · exact State.Calm.refl s
  · exact State.Calm.trans (s.dlog_calm f va) (by simp [State.Calm])

theorem State.park_calm (p : Park) : State.Calm s (s.park p) := by
  unfold State.park State.admitPark
  simp only []
  (repeat' split) <;> simp [State.Calm]

theorem State.attachXmit_calm (a : Nat) (psn : Word) (m : AMsg) : State.Calm s (s.attachXmit a psn m) := by
  unfold State.attachXmit State.attachWire
  simp only []
  (repeat' split) <;> simp [State.Calm]

theorem State.attachSend_calm (a : Nat) (m : AMsg) : State.Calm s (s.attachSend a m) := by
  unfold State.attachSend
  simp only []
  split
  · exact State.Calm.trans (by simp [State.Calm]) (State.attachXmit_calm _ a _ m)
  · simp [State.Calm]

theorem State.awr_calm (a off : Nat) (bs : List Byte) (t : Ticket) : State.Calm s (s.awr a off bs t) := by
  unfold State.awr
  simp only []
  exact State.Calm.trans (by simp [State.Calm]) (State.attachSend_calm _ a _)

theorem State.setRecs_calm (k : RecRing) (f : Nat) (l : List (Nat × List Byte)) : State.Calm s (s.setRecs k f l) := by
  simp [State.Calm, State.setRecs]

theorem State.faultLost_calm (f cls : Nat) : State.Calm s (s.faultLost f cls) := by
  simp [State.Calm, State.faultLost]

theorem State.faultIrq_calm (f : Nat) : State.Calm s (s.faultIrq f) := by
  unfold State.faultIrq
  split <;> simp [State.Calm]

theorem State.recWritten_calm (k : RecRing) (f : Nat) : State.Calm s (s.recWritten k f) := by
  unfold State.recWritten
  simp only []
  split
  · exact State.Calm.refl s
  · refine State.Calm.trans (u := _) (s.setRecs_calm k f ((s.recs k f).drop 1)) ?_
    cases k
    · exact State.Calm.trans (by simp [State.Calm]) (State.faultIrq_calm _ f)
    · simp [State.Calm]

theorem State.recFailed_calm (k : RecRing) (f : Nat) : State.Calm s (s.recFailed k f) := by
  unfold State.recFailed
  split
  · exact State.Calm.refl s
  · rename_i t _
    refine State.Calm.trans (s.setRecs_calm k f t) ?_
    cases k
    · exact State.Calm.trans (t := (s.setRecs .fault f t).setFld (RecRing.reg .fault f 0x1C) 9 1 1) (by simp [State.Calm]) (State.faultLost_calm _ f _)
    · simp [State.Calm]

theorem State.recTry_calm (k : RecRing) (f : Nat) (bs : List Byte) : State.Calm s (s.recTry k f bs).2 := by
  unfold State.recTry
  simp only []
  split
  · split
    · exact s.postWrite_calm _ _ _ _
    · split
      · exact s.park_calm _
      · exact State.Calm.refl s
  · split
    · exact s.awr_calm _ _ _ _
    · exact State.Calm.refl s
  · split
    · simp [State.Calm]
    · exact State.Calm.refl s

theorem State.recPump_calm (k : RecRing) (f n : Nat) : ∀ s : State, State.Calm s (State.recPump k f n s) := by
  induction n with
  | zero => intro s; exact State.Calm.refl s
  | succ n ih =>
    intro s
    unfold State.recPump
    split
    · exact State.Calm.refl s
    · rename_i bs _ _
      have h := s.recTry_calm k f bs
      split <;> rename_i heq <;> rw [heq] at h
      · exact (h.trans (State.recWritten_calm _ k f)).trans (ih _)
      · exact (h.trans (State.recFailed_calm _ k f)).trans (ih _)
      · exact h

theorem State.recPush_calm (k : RecRing) (f cls : Nat) (bs : List Byte) : State.Calm s (s.recPush k f cls bs) := by
  unfold State.recPush
  simp only []
  split
  · exact (s.setRecs_calm k f _).trans (State.recPump_calm k f 1 _)
  · exact s.setRecs_calm k f _

/-- A fault disturbs no memory, counter, queue, instruction, key or communicator. -/
theorem State.raise_calm (f : Nat) (c : FCode) (q : Nat) (eseq : Word) (a b x d : Nat) : State.Calm s (s.raise f c q eseq a b x d) := by
  have h : ∀ (n : Nat) (w : Word), State.Calm s ((s.count 0x200030).setFunc n { (s.count 0x200030).func n with fseq := w }) := by
    intro n w; simp [State.Calm]
  have hl : ∀ (t : State) (n k : Nat), State.Calm s t → State.Calm s (t.faultLost n k) := fun t n k ht => ht.trans (t.faultLost_calm n k)
  have hp : ∀ (t : State) (n k : Nat) (bs : List Byte), State.Calm s t → State.Calm s (t.recPush .fault n k bs) :=
    fun t n k bs ht => ht.trans (t.recPush_calm .fault n k bs)
  unfold State.raise
  generalize (if s.enabled f then f else 0) = f'
  generalize (if s.enabled f then 0 else f + 256) = e
  simp only []
  split
  · exact hp _ _ _ _ (h _ _)
  · exact hl _ _ _ (h _ _)

/-- A posted write disturbs none of them either. -/
theorem State.hostPost_calm (f : Nat) (pasid : BitVec 20) (va : DWord) (bs : List Byte) : State.Calm s (s.hostPost f pasid va bs) := by
  unfold State.hostPost
  simp only []
  split
  · exact (s.postWrite_calm f pasid va bs).trans (State.raise_calm _ _ _ _ _ _ _ _ _)
  · exact s.postWrite_calm f pasid va bs

end Sys2Proof.Machine
end

