-- ==== Sys2Proof/Laws/Ops.lean ====
section
/-! SUPPORT. What each shared operation can do, said once: the gates of the commands, doorbells and counter slots, arrivals, faults and settling. -/

namespace Sys2Proof.Machine

open Host (Outcome)

variable (s : State)

/-! ## A step -/

theorem step_cons (c : Instr) (rest : List Instr) (h : s.pending = c :: rest) : step s = exec c { s with pending := rest } := by
  simp [step, h]

/-- Every command of the block ends in a next state: none stops. -/
theorem exec_next (c : Instr) (s : State) : ∃ t, exec c s = .next t := by
  cases c
  case pllLockLoss lost =>
    cases lost
    case host => by_cases h : (s.count 0x200140).hostUp <;> simp only [exec, execPllLockLoss, h] <;> exact ⟨_, rfl⟩
    all_goals exact ⟨_, rfl⟩
  all_goals exact ⟨_, rfl⟩

/-- Nothing enabled: no internal action happens. -/
theorem State.settleN_quiet (h : s.internal = none) (n : Nat) : s.settleN n = s := by cases n <;> simp [State.settleN, h]

/-- Nothing enabled: settling only notes why queues wait, and lets the store follow what is held. -/
theorem State.settle_quiet (h : s.internal = none) : s.settle = s.noteHolds.allocate := by
  simp [State.settle, s.settleN_quiet h]

/-- The allocator changes the store's cells and nothing else. -/
theorem State.allocate_frame : { s.allocate with store := s.store } = s := by simp only [State.allocate]

/-! ## The gates of commands -/

/-- KEY_CMD: a write while GO reads 1 is counted, any other is acted on. -/
theorem State.keyCmd_spec (f op : Nat) (k : State → State) :
    (s.bit (page f 0x1124) 31 = true → s.keyCmd f op k = s.count (page f 0x2010))
    ∧ (s.bit (page f 0x1124) 31 = false → s.keyCmd f op k = k (s.setFld (page f 0x1124) 0 3 op)) := by
  constructor <;> intro h <;> simp [State.keyCmd, h]

theorem State.jobCmd_spec (f op : Nat) (k : State → State) :
    (s.bit (page f 0x1140) 31 = true → s.jobCmd f op k = s.count (page f 0x2010))
    ∧ (s.bit (page f 0x1140) 31 = false → s.jobCmd f op k = k (s.setFld (page f 0x1140) 24 2 op)) := by
  constructor <;> intro h <;> simp [State.jobCmd, h]

/-- NV_CMD: counted while GO reads 1, acted on once the tier is ready, and kept with GO reading 1 until then. -/
theorem State.nvCmd_spec (f op : Nat) (k : State → State) :
    (s.bit (page f 0x1214) 31 = true → s.nvCmd f op k = s.count (page f 0x2010))
    ∧ (s.bit (page f 0x1214) 31 = false → s.nvReady = true → s.nvCmd f op k = k (s.setFld (page f 0x1214) 0 2 op))
    ∧ (s.bit (page f 0x1214) 31 = false → s.nvReady = false →
      s.nvCmd f op k = (s.setFld (page f 0x1214) 0 2 op).setFld (page f 0x1214) 31 1 1) := by
  refine ⟨?_, ?_, ?_⟩ <;> intros <;> simp_all [State.nvCmd]

/-- GLOBAL_COMMIT: counted while BUSY reads 1, answered GEN_STALE for another generation, acted on for CURRENT + 1. -/
theorem State.commitWrite_spec (gen : BitVec 16) (k : State → State) :
    (s.bit 0x100 16 = true → s.commitWrite gen k = s.count 0x200018)
    ∧ (s.bit 0x100 16 = false → gen.toNat ≠ (s.fld 0x100 0 16 + 1) % 2 ^ 16 → s.commitWrite gen k = (s.count 0x200020).commitStatus 3 0)
    ∧ (s.bit 0x100 16 = false → gen.toNat = (s.fld 0x100 0 16 + 1) % 2 ^ 16 → s.commitWrite gen k = k s) := by
  refine ⟨fun h => ?_, fun h h1 => ?_, fun h h1 => ?_⟩
  · simp [State.commitWrite, h]
  · have h2 : gen.toNat ≠ (s.fld 0x100 0 16 + 1) % 65536 := h1
    simp [State.commitWrite, h, h2]
  · simp only [State.commitWrite, h, h1]; simp

/-! ## Doorbells and counter slots -/

/-- A doorbell reaches its queue where the queue exists and its function runs; any other is counted. -/
theorem State.bell_spec (f q : Nat) (k : State → Nat → State) :
    (s.globalQ f q = none → s.bell f q k = s.count (page f 0x2008))
    ∧ ∀ g, s.globalQ f q = some g →
      ((s.queue g).created = false → s.bell f q k = s.count (page f 0x2008))
      ∧ ((s.queue g).created = true → s.resetting f = false → s.boundOff = false → s.bell f q k = k s g) := by
  refine ⟨fun h => ?_, fun g h => ⟨fun h1 => ?_, fun h1 h2 h3 => ?_⟩⟩
  · simp [State.bell, h]
  · simp [State.bell, h, h1]
  · simp [State.bell, h, h1, h2, h3]

/-- A counter slot outside the grant is counted; within it the counter takes its new word, and the node settles. -/
theorem State.slotWrite_spec (f c : Nat) (h : DWord → DWord) :
    (s.globalC f c = none → s.slotWrite f c h = s.count (page f 0x2010))
    ∧ ∀ n, s.globalC f c = some n → s.slotWrite f c h = (s.setRowc n (h (s.rowc n))).settle := by
  refine ⟨fun h => ?_, fun g h => ?_⟩ <;> simp [State.slotWrite, h]

/-! ## Starting an instruction -/

/-- The next instance of a queue, of the opcode asked for and with its ORDER met, leaves the queue and is acted on (R42, R44, R106). -/
theorem State.startOp_spec (g : Nat) (op : BitVec 8) (why : State → Run → List Nat) (extra : State → Fetched → Bool) (k : State → Run → State)
    (i : Fetched) (iter : Nat) (h : s.startable g op i iter) (hx : extra s i = true) :
    s.startOp g op why extra k = k (s.started g i iter) (s.newRun g i iter) := by
  obtain ⟨h1, h2, h3, h4⟩ := h
  simp [State.startOp, State.startOp?, State.startNext, State.started, h1, h2, h3, h4, hx]

/-- No instruction starts on a queue whose buckets do not hold the 64 B of a start (R381). -/
theorem State.startOp_held (g : Nat) (op : BitVec 8) (why : State → Run → List Nat) (extra : State → Fetched → Bool) (k : State → Run → State)
    (h : s.bucketsAllow g 64 = false) : s.startOp g op why extra k = s := by
  have hm : s.mayStart g = false := by simp [State.mayStart, h]
  unfold State.startOp State.startOp?
  cases (s.queue g).nextInst with
  | none => rfl
  | some x => simp [hm]

/-! ## Arrivals -/

/-- A notice acts where this node is not bound off, its sender is not lost and is another node, and its FSEQ is new; that of a lost node is counted. -/
theorem State.takeNotice_spec (kind : NoticeKind) (h : Hdr) (n : NoticeF) (k : State → State) :
    let a := s.consume { hdr := h, body := .notice kind n, payload := [] }
    (a.boundOff = true → s.takeNotice kind h n k = a)
    ∧ (a.boundOff = false → a.isLost h.src.toNat = true → kind ≠ .castOn → s.takeNotice kind h n k = a.count 0x260078)
    ∧ (a.boundOff = false → a.isLost h.src.toNat = false → h.src.toNat ≠ a.self → a.noticeFresh kind h.src n = true →
      s.takeNotice kind h n k = k (a.noteFseq kind h.src n)) := by
  refine ⟨fun h1 => ?_, fun h1 h2 h3 => ?_, fun h1 h2 h3 h4 => ?_⟩
  · simp [State.takeNotice, h1]
  · simp [State.takeNotice, h1, h2, h3]
  · simp [State.takeNotice, h1, h2, h3, h4]

/-- A packet is seen as fresh, stale or a duplicate only where the node is not bound off and its sender is another node that is not lost. -/
theorem State.arrive_spec (h : Hdr) (resend : Bool) (k : State → State) :
    (s.boundOff = true → s.arrive h resend k = s)
    ∧ (s.boundOff = false → h.src.toNat = s.self → s.arrive h resend k = k s)
    ∧ (s.boundOff = false → h.src.toNat ≠ s.self → s.lost.contains h.src.toNat = true → s.arrive h resend k = s.count 0x260078)
    ∧ (s.boundOff = false → h.src.toNat ≠ s.self → s.lost.contains h.src.toNat = false → (s.rxCheck h.src.toNat h.psn h.lup).1 = .fresh →
      s.arrive h resend k = k (s.rxCheck h.src.toNat h.psn h.lup).2) := by
  refine ⟨fun h1 => ?_, fun h1 h2 => ?_, fun h1 h2 h3 => ?_, fun h1 h2 h3 h4 => ?_⟩
  · simp only [State.arrive, h1, if_true]
  · simp only [State.arrive, h1, h2]; simp
  · simp only [State.arrive, h1, h2, h3]; simp
  · simp only [State.arrive, h1, h2, h3, h4]; simp

/-! ## Pooled memory -/

/-- A pool write without marked window lines lands at once, or waits for the save of a unit, the end of a restore, or a lost line. -/
theorem State.poolWrite_spec (off : Nat) (bs : List Byte) (t : Ticket) (h : s.markedLines off bs.length = []) :
    (s.writeWaits off bs.length = false → s.poolWrite off bs t = (true, s.pwrite off bs))
    ∧ (s.writeWaits off bs.length = true →
      s.poolWrite off bs t = (false, { s with unitWaits := s.unitWaits ++ [{ off, data := bs, ticket := t }] })) := by
  constructor <;> intro h1 <;> simp [State.poolWrite, h, h1]

/-- The read of a pooled operand: its bytes at once, or nothing yet where a line of it is lost. -/
theorem State.readOpnd_pool (f : Nat) (pasid : BitVec 20) (o : Opnd) (t : Ticket) (h : o.space = .pool) :
    (s.lineLost o.addr.toNat o.len = false → s.readOpnd f pasid o t = (s.pread o.addr.toNat o.len, 0, s))
    ∧ (s.lineLost o.addr.toNat o.len = true →
      s.readOpnd f pasid o t = (List.replicate o.len 0, o.len, s.poolWait o.addr.toNat o.len 0 t)) := by
  constructor <;> intro h1 <;> simp [State.readOpnd, h, h1]

/-! ## Faults -/

/-- A fault that is lost is counted, its class flagged; it changes no field but registers and counters. -/
theorem State.faultLost_frame (f cls : Nat) : { s.faultLost f cls with regs := s.regs, ev := s.ev } = s := by
  simp [State.faultLost, State.bumpSeq, State.setFld, State.setReg, State.count]

end Sys2Proof.Machine
end

