-- ==== Sys2Proof/Laws/PerInstr.lean ====
section
/-! SUPPORT. A family of laws with one lemma per command: no word of the table spells it. -/

namespace Sys2Proof.Laws.NoWord

/-- No word spells the command: the table gives its row no bits. -/
def Statement (i : Instr) : Prop := ∀ nbits w, decodeTableWord nbits w ≠ some i

theorem holds (i : Instr) : Statement i := by intro _ _ h; cases h

theorem nop (g : Nat) : Statement (.nop g) := holds _
theorem put (g : Nat) : Statement (.put g) := holds _
theorem puti (g : Nat) : Statement (.puti g) := holds _
theorem get (g : Nat) : Statement (.get g) := holds _
theorem copy (g : Nat) : Statement (.copy g) := holds _
theorem flush (g : Nat) : Statement (.flush g) := holds _
theorem fadd (g : Nat) : Statement (.fadd g) := holds _
theorem cas (g : Nat) : Statement (.cas g) := holds _
theorem wait (g : Nat) : Statement (.wait g) := holds _
theorem signal (g : Nat) : Statement (.signal g) := holds _
theorem mark (g : Nat) : Statement (.mark g) := holds _
theorem fence (g : Nat) : Statement (.fence g) := holds _
theorem repeat_ (g : Nat) : Statement (.repeat_ g) := holds _
theorem rdsc (g : Nat) : Statement (.rdsc g) := holds _
theorem agth (g : Nat) : Statement (.agth g) := holds _
theorem ared (g : Nat) : Statement (.ared g) := holds _
theorem a2a (g : Nat) : Statement (.a2a g) := holds _
theorem a2av (g : Nat) : Statement (.a2av g) := holds _
theorem disp (g : Nat) : Statement (.disp g) := holds _
theorem comb (g : Nat) : Statement (.comb g) := holds _
theorem rug (g : Nat) : Statement (.rug g) := holds _
theorem snap (g : Nat) : Statement (.snap g) := holds _
theorem pers (g : Nat) : Statement (.pers g) := holds _
theorem digest (g : Nat) : Statement (.digest g) := holds _
theorem check (g : Nat) : Statement (.check g) := holds _
theorem tag (g : Nat) (upset : TagUpset) : Statement (.tag g upset) := holds _
theorem uprog (g : Nat) : Statement (.uprog g) := holds _
theorem commCreate (g : Nat) : Statement (.commCreate g) := holds _
theorem commReplace (g : Nat) : Statement (.commReplace g) := holds _
theorem commDestroy (g : Nat) : Statement (.commDestroy g) := holds _
theorem queueQuery (f q : Nat) : Statement (.queueQuery f q) := holds _
theorem queueCreate (f q : Nat) (reachable : Bool) : Statement (.queueCreate f q reachable) := holds _
theorem queueModify (f q : Nat) : Statement (.queueModify f q) := holds _
theorem queueDestroy (f q : Nat) : Statement (.queueDestroy f q) := holds _
theorem dbPi (f q : Nat) (pi : BitVec 32) : Statement (.dbPi f q pi) := holds _
theorem dbCci (f q : Nat) (cci : BitVec 32) : Statement (.dbCci f q cci) := holds _
theorem entryFetch (g : Nat) (r : FetchResult) : Statement (.entryFetch g r) := holds _
theorem ownReread (g : Nat) (r : FetchResult) : Statement (.ownReread g r) := holds _
theorem staleEntry (g : Nat) : Statement (.staleEntry g) := holds _
theorem ringRetry (g : Nat) (completion : Bool) (r : FetchResult) : Statement (.ringRetry g completion r) := holds _
theorem cringStall (g : Nat) : Statement (.cringStall g) := holds _
theorem cntWrite (f c : Nat) (part : SlotPart) (v : DWord) : Statement (.cntWrite f c part v) := holds _
theorem cntAdd (f c : Nat) (part : SlotPart) (v : DWord) : Statement (.cntAdd f c part v) := holds _
theorem cntSeterr (f c : Nat) (v : DWord) : Statement (.cntSeterr f c v) := holds _
theorem cntClrerr (f c : Nat) (v : DWord) : Statement (.cntClrerr f c v) := holds _
theorem flr (f : Nat) : Statement (.flr f) := holds _
theorem vfEnableClear : Statement (.vfEnableClear) := holds _
theorem d3hotToD0 (f : Nat) : Statement (.d3hotToD0 f) := holds _
theorem cxlReset : Statement (.cxlReset) := holds _
theorem hostLinkDown (ev : LinkDownEvent) : Statement (.hostLinkDown ev) := holds _
theorem hostRetrain (rateChange : Bool) (rate : BitVec 3) (width : BitVec 5) : Statement (.hostRetrain rateChange rate width) := holds _
theorem busMasterClear (f : Nat) : Statement (.busMasterClear f) := holds _
theorem funcResetCmd (f : Nat) : Statement (.funcResetCmd f) := holds _
theorem funcResetEnd (f : Nat) : Statement (.funcResetEnd f) := holds _
theorem keyQuery (f : Nat) : Statement (.keyQuery f) := holds _
theorem keyRegister (f : Nat) : Statement (.keyRegister f) := holds _
theorem keyRevoke (f : Nat) : Statement (.keyRevoke f) := holds _
theorem keyRelease (f : Nat) : Statement (.keyRelease f) := holds _
theorem keyDrained (index : Nat) : Statement (.keyDrained index) := holds _
theorem request (h : Hdr) (r : ReqF) (payload : List Byte) : Statement (.request h r payload) := holds _
theorem response (h : Hdr) (r : RespF) (payload : List Byte) : Statement (.response h r payload) := holds _
theorem placementAnswer (src : BitVec 20) (psn : BitVec 32) : Statement (.placementAnswer src psn) := holds _
theorem contextFetchDone (src : BitVec 20) (psn : BitVec 32) : Statement (.contextFetchDone src psn) := holds _
theorem deliveryAck (h : Hdr) (a : AckF) : Statement (.deliveryAck h a) := holds _
theorem ackTimer (node : BitVec 20) : Statement (.ackTimer node) := holds _
theorem e2eRetransmit (node : BitVec 20) (psn : BitVec 32) : Statement (.e2eRetransmit node psn) := holds _
theorem e2eRespAbandon (node : BitVec 20) (psn : BitVec 32) : Statement (.e2eRespAbandon node psn) := holds _
theorem packetRoute : Statement (.packetRoute) := holds _
theorem escapeTimeout (p : Nat) : Statement (.escapeTimeout p) := holds _
theorem linkDownNotice (p : Nat) (h : Hdr) (n : NoticeF) : Statement (.linkDownNotice p h n) := holds _
theorem linkUpNotice (p : Nat) (h : Hdr) (n : NoticeF) : Statement (.linkUpNotice p h n) := holds _
theorem linkReannounce : Statement (.linkReannounce) := holds _
theorem gaugeUpdate (node : BitVec 20) : Statement (.gaugeUpdate node) := holds _
theorem gaugeIdle (node : BitVec 20) : Statement (.gaugeIdle node) := holds _
theorem telemetrySample (stall : List (BitVec 32)) : Statement (.telemetrySample stall) := holds _
theorem codewordRx (p : Nat) (cw : Codeword) : Statement (.codewordRx p cw) := holds _
theorem lockLost (p : Nat) : Statement (.lockLost p) := holds _
theorem errorRate (p : Nat) : Statement (.errorRate p) := holds _
theorem laneLos (p : Nat) (lanes : BitVec 16) : Statement (.laneLos p lanes) := holds _
theorem fastRetrainEnd (p : Nat) : Statement (.fastRetrainEnd p) := holds _
theorem credit (p : Nat) (es : List CreditEntry) : Statement (.credit p es) := holds _
theorem creditReportTimer (p : Nat) : Statement (.creditReportTimer p) := holds _
theorem audit (p : Nat) (cls : BitVec 3) (usedA0 usedA1 usedE : BitVec 32) : Statement (.audit p cls usedA0 usedA1 usedE) := holds _
theorem auditSend (p : Nat) : Statement (.auditSend p) := holds _
theorem keepalive (p : Nat) (k : KeepaliveF) : Statement (.keepalive p k) := holds _
theorem keepaliveSend (p : Nat) : Statement (.keepaliveSend p) := holds _
theorem keepaliveTimeout (p : Nat) : Statement (.keepaliveTimeout p) := holds _
theorem bindOffSymbol (p : Nat) (node : BitVec 20) (cause : BitVec 8) : Statement (.bindOffSymbol p node cause) := holds _
theorem abort (p : Nat) : Statement (.abort p) := holds _
theorem tsIdent (p : Nat) (i : IdentF) : Statement (.tsIdent p i) := holds _
theorem tsCredit (p : Nat) (cls : BitVec 3) (a0 a1 e : BitVec 16) : Statement (.tsCredit p cls a0 a1 e) := holds _
theorem tsSwatch (p : Nat) (msg : SwatchMsg) (lanePass duration : BitVec 16) : Statement (.tsSwatch p msg lanePass duration) := holds _
theorem tsReady (p : Nat) : Statement (.tsReady p) := holds _
theorem trainStateDone (found : TrainFound) : Statement (.trainStateDone found) := holds _
theorem trainTimeout (p : Nat) : Statement (.trainTimeout p) := holds _
theorem trainRetry (p : Nat) : Statement (.trainRetry p) := holds _
theorem swatchPhase (p : Nat) (m : SwatchMeasure) : Statement (.swatchPhase p m) := holds _
theorem portLinkEnable (p : Nat) (on : Bool) : Statement (.portLinkEnable p on) := holds _
theorem portRetrain (p : Nat) : Statement (.portRetrain p) := holds _
theorem portSwatch (p : Nat) : Statement (.portSwatch p) := holds _
theorem portHoldDown (p : Nat) (on : Bool) : Statement (.portHoldDown p on) := holds _
theorem contrib (h : Hdr) (c : CollF) (payload : List Byte) : Statement (.contrib h c payload) := holds _
theorem result (h : Hdr) (c : CollF) (payload : List Byte) : Statement (.result h c payload) := holds _
theorem data (h : Hdr) (c : CollF) (payload : List Byte) : Statement (.data h c payload) := holds _
theorem count (h : Hdr) (c : CollF) (payload : List Byte) : Statement (.count h c payload) := holds _
theorem grant (h : Hdr) (c : CollF) (payload : List Byte) : Statement (.grant h c payload) := holds _
theorem resendReq (h : Hdr) (c : CollF) : Statement (.resendReq h c) := holds _
theorem acceptAck (h : Hdr) (c : CollF) : Statement (.acceptAck h c) := holds _
theorem nak (h : Hdr) (c : CollF) : Statement (.nak h c) := holds _
theorem resultAck (h : Hdr) (c : CollF) : Statement (.resultAck h c) := holds _
theorem notReady (h : Hdr) (c : CollF) : Statement (.notReady h c) := holds _
theorem notReadyRetry (comm : BitVec 24) (node : BitVec 20) : Statement (.notReadyRetry comm node) := holds _
theorem handleTimeout (comm : BitVec 24) (node : BitVec 20) : Statement (.handleTimeout comm node) := holds _
theorem chunkLoss (p : Nat) (h : Hdr) (c : CollF) : Statement (.chunkLoss p h c) := holds _
theorem slotGrant : Statement (.slotGrant) := holds _
theorem slotFinish (slot : Nat) : Statement (.slotFinish slot) := holds _
theorem accountingSweep (found : SweepFinding) : Statement (.accountingSweep found) := holds _
theorem bindOffSquelch : Statement (.bindOffSquelch) := holds _
theorem deadConfirm (x : BitVec 20) : Statement (.deadConfirm x) := holds _
theorem deadNode (p : Nat) (h : Hdr) (n : NoticeF) : Statement (.deadNode p h n) := holds _
theorem rankClaim (p : Nat) (h : Hdr) (n : NoticeF) : Statement (.rankClaim p h n) := holds _
theorem claimSettle (job : BitVec 24) (shard units : Nat) : Statement (.claimSettle job shard units) := holds _
theorem rankAbandoned (comm : BitVec 24) (rank : BitVec 20) : Statement (.rankAbandoned comm rank) := holds _
theorem frogRequest (p : Nat) (h : Hdr) (c : CollF) : Statement (.frogRequest p h c) := holds _
theorem frogVoteWait (job : BitVec 24) : Statement (.frogVoteWait job) := holds _
theorem frogRestoreDone (job : BitVec 24) : Statement (.frogRestoreDone job) := holds _
theorem unitSaveDone (comm : BitVec 24) (unit : Nat) : Statement (.unitSaveDone comm unit) := holds _
theorem darningRead (h : Hdr) (r : ReqF) : Statement (.darningRead h r) := holds _
theorem darningDone (job : BitVec 24) : Statement (.darningDone job) := holds _
theorem persDurable (obj : DWord) : Statement (.persDurable obj) := holds _
theorem governorTick (now24hMedia now24hHost : Nat) : Statement (.governorTick now24hMedia now24hHost) := holds _
theorem retentionScan (block : Nat) (refresh : Bool) : Statement (.retentionScan block refresh) := holds _
theorem nandBlockFail (block : Nat) (page : PageFinding) (availGib : Nat) : Statement (.nandBlockFail block page availGib) := holds _
theorem jobFrog (f : Nat) : Statement (.jobFrog f) := holds _
theorem jobSetStep (f : Nat) : Statement (.jobSetStep f) := holds _
theorem nvQuery (f : Nat) : Statement (.nvQuery f) := holds _
theorem nvRestore (f : Nat) : Statement (.nvRestore f) := holds _
theorem nvDelete (f : Nat) : Statement (.nvDelete f) := holds _
theorem failRetire (f : Nat) (code : BitVec 32) : Statement (.failRetire f code) := holds _
theorem storeSweep (found : CellFinding) : Statement (.storeSweep found) := holds _
theorem poolScrub (off : Nat) (found : LineFinding) : Statement (.poolScrub off found) := holds _
theorem translationAnswer (f : Nat) (pasid : BitVec 20) (page : DWord) (ans : XlateAnswer) : Statement (.translationAnswer f pasid page ans) := holds _
theorem prgResponse (f : Nat) (pasid : BitVec 20) (page : DWord) (code : PrgCode) : Statement (.prgResponse f pasid page code) := holds _
theorem priTimeout (f : Nat) (pasid : BitVec 20) (page : DWord) : Statement (.priTimeout f pasid page) := holds _
theorem atsInvalidate (f : Nat) (pasid : BitVec 20) (page : DWord) (log2 : Nat) (itag : BitVec 5) : Statement (.atsInvalidate f pasid page log2 itag) := holds _
theorem hostReadError (tag : Nat) (why : HostReadFail) : Statement (.hostReadError tag why) := holds _
theorem windowRead (line : Nat) : Statement (.windowRead line) := holds _
theorem windowWrite (line : Nat) (bytes : List Byte) : Statement (.windowWrite line bytes) := holds _
theorem birsp (line : Nat) (dirty : Option (List Byte)) : Statement (.birsp line dirty) := holds _
theorem hostWinFlush : Statement (.hostWinFlush) := holds _
theorem hostDlogEnable (f : Nat) (on : Bool) : Statement (.hostDlogEnable f on) := holds _
theorem hostDlogRound (f : Nat) : Statement (.hostDlogRound f) := holds _
theorem hostDlogPause (f : Nat) (on : Bool) : Statement (.hostDlogPause f on) := holds _
theorem placeRsp (a : Nat) (tag : BitVec 16) (status : AttStatus) : Statement (.placeRsp a tag status) := holds _
theorem ardData (a : Nat) (tag : BitVec 16) (roff : Nat) (bytes : List Byte) (status : AttStatus) : Statement (.ardData a tag roff bytes status) := holds _
theorem aatomRsp (a : Nat) (tag : BitVec 16) (old : DWord) (status : AttStatus) : Statement (.aatomRsp a tag old status) := holds _
theorem doorbell (a : Nat) (q : BitVec 14) (slotOff : BitVec 8) (v : DWord) : Statement (.doorbell a q slotOff v) := holds _
theorem counter (a : Nat) (cnt : BitVec 15) (op : CounterOp) (v : DWord) : Statement (.counter a cnt op v) := holds _
theorem cntRd (a : Nat) (tag : BitVec 16) (cnt : BitVec 15) : Statement (.cntRd a tag cnt) := holds _
theorem lrd (a : Nat) (tag : BitVec 16) (addr : DWord) (len : Nat) (key : BitVec 32) : Statement (.lrd a tag addr len key) := holds _
theorem lwr (a : Nat) (tag : BitVec 16) (addr : DWord) (key : BitVec 32) (payload : List Byte) : Statement (.lwr a tag addr key payload) := holds _
theorem latom (a : Nat) (tag : BitVec 16) (addr : DWord) (key : BitVec 32) (cas size : Bool) (operand swap : DWord) : Statement (.latom a tag addr key cas size operand swap) := holds _
theorem attachRetransmit (a : Nat) (psn : BitVec 32) : Statement (.attachRetransmit a psn) := holds _
theorem accelLost (a : Nat) : Statement (.accelLost a) := holds _
theorem queueSched (f : Nat) : Statement (.queueSched f) := holds _
theorem sampleEnable (f : Nat) (on : Bool) : Statement (.sampleEnable f on) := holds _
theorem samplePeriod (f : Nat) : Statement (.samplePeriod f) := holds _
theorem faultqEnable (f : Nat) (on : Bool) : Statement (.faultqEnable f on) := holds _
theorem monEnable (f m : Nat) (on : Bool) : Statement (.monEnable f m on) := holds _
theorem monDrainDone (f m : Nat) : Statement (.monDrainDone f m) := holds _
theorem keyslotQuery (f : Nat) : Statement (.keyslotQuery f) := holds _
theorem keyslotLoad (f : Nat) : Statement (.keyslotLoad f) := holds _
theorem keyslotClear (f : Nat) : Statement (.keyslotClear f) := holds _
theorem attest (bufferOk : Bool) : Statement (.attest bufferOk) := holds _
theorem certs (bufferOk : Bool) : Statement (.certs bufferOk) := holds _
theorem extend (mr : BitVec 3) : Statement (.extend mr) := holds _
theorem update (image : List Byte) (bufferOk : Bool) : Statement (.update image bufferOk) := holds _
theorem advanceSvn : Statement (.advanceSvn) := holds _
theorem globalCommit (gen : BitVec 16) : Statement (.globalCommit gen) := holds _
theorem globalDiscard (gen : BitVec 16) : Statement (.globalDiscard gen) := holds _
theorem aliasWrite (addr : Nat) (v : Word) : Statement (.aliasWrite addr v) := holds _
theorem statusSeqWrite (f addr : Nat) (v : Word) : Statement (.statusSeqWrite f addr v) := holds _
theorem cntSnap (f : Nat) : Statement (.cntSnap f) := holds _
theorem cntFreeze (on : Bool) : Statement (.cntFreeze on) := holds _
theorem freezeExpire : Statement (.freezeExpire) := holds _
theorem rstCtl (f : Nat) (code : BitVec 32) : Statement (.rstCtl f code) := holds _
theorem mgtKeyLoad : Statement (.mgtKeyLoad) := holds _
theorem mgtKeyErase : Statement (.mgtKeyErase) := holds _
theorem registerWrite (f addr : Nat) (v : Word) : Statement (.registerWrite f addr v) := holds _
theorem pllLockLoss (lost : PllLost) : Statement (.pllLockLoss lost) := holds _
theorem coldReset (cause : ColdCause) (boot : FlashRead) : Statement (.coldReset cause boot) := holds _
theorem nodeResetN (boot : FlashRead) : Statement (.nodeResetN boot) := holds _
theorem poolReady : Statement (.poolReady) := holds _
theorem nvReady : Statement (.nvReady) := holds _
theorem castOnSend : Statement (.castOnSend) := holds _
theorem castOn (p : Nat) (h : Hdr) (n : NoticeF) : Statement (.castOn p h n) := holds _
theorem watchdogExpire : Statement (.watchdogExpire) := holds _
theorem ident (m : MgmtReq) : Statement (.ident m) := holds _
theorem regRead (m : MgmtReq) : Statement (.regRead m) := holds _
theorem regWrite (m : MgmtReq) : Statement (.regWrite m) := holds _
theorem bufWrite (m : MgmtReq) : Statement (.bufWrite m) := holds _
theorem bufRead (m : MgmtReq) : Statement (.bufRead m) := holds _
theorem sec (m : MgmtReq) : Statement (.sec m) := holds _
theorem powerActive (m : MgmtReq) : Statement (.powerActive m) := holds _
theorem powerStandby (m : MgmtReq) : Statement (.powerStandby m) := holds _
theorem powerColdReset (m : MgmtReq) (boot : FlashRead) : Statement (.powerColdReset m boot) := holds _
theorem wakeMatch (frame : List Byte) (boot : FlashRead) : Statement (.wakeMatch frame boot) := holds _
theorem plcaFallback : Statement (.plcaFallback) := holds _
theorem throttleEval (x : Sensors) : Statement (.throttleEval x) := holds _
theorem prsntBreak : Statement (.prsntBreak) := holds _
theorem vinUndervoltage : Statement (.vinUndervoltage) := holds _
theorem vinOvervoltage : Statement (.vinOvervoltage) := holds _
theorem overTemperature (what : HotPart) : Statement (.overTemperature what) := holds _
theorem powerOverlimit : Statement (.powerOverlimit) := holds _
theorem powerOn (boot : FlashRead) : Statement (.powerOn boot) := holds _
theorem hostReadCompletion (tag : Nat) (bytes : List Byte) : Statement (.hostReadCompletion tag bytes) := holds _
theorem hostLinkUp (rate : BitVec 3) (width : BitVec 5) : Statement (.hostLinkUp rate width) := holds _
theorem h2dSnoop (addr : DWord) : Statement (.h2dSnoop addr) := holds _
theorem busMasterEnableSet (f : Nat) : Statement (.busMasterEnableSet f) := holds _
theorem hdmDecoderCommit : Statement (.hdmDecoderCommit) := holds _
theorem partnerSignalDetected (p : Nat) : Statement (.partnerSignalDetected p) := holds _
theorem pllLockReturn (die : Nat) : Statement (.pllLockReturn die) := holds _
theorem tokenBucketRefill (b : Bucket) (bytes : Nat) : Statement (.tokenBucketRefill b bytes) := holds _
theorem regulatorsOff : Statement (.regulatorsOff) := holds _
theorem prsntNMade : Statement (.prsntNMade) := holds _
theorem testReset : Statement (.testReset) := holds _
theorem plcaCycle : Statement (.plcaCycle) := holds _
theorem csmaCdCollision : Statement (.csmaCdCollision) := holds _
theorem managementFrame (f : BadFrame) : Statement (.managementFrame f) := holds _

end Sys2Proof.Laws.NoWord
end

