-- ==== Sys2Proof/Tests/Slice0.lean ====
section
/-! SUPPORT. Witnesses of the statements' hypotheses, the checks of well-formedness, and small tests of single commands. -/

namespace Sys2Proof.Tests

set_option Elab.async false

open Sys2Proof.Machine
open Host (Outcome)

/-! ## Small states -/

/-- A node of which function 0 has 4 queues, 8 row counters, 256 MiB of pool, 16 keys, 2 program slots, 2 key slots and a GiB of the tier; pool and tier ready. -/
def base : State :=
  ((((((((State.reset.setReg 0x1B0000 0x40000).setReg 0x1B0004 0x80000).setReg 0x1B0008 0x10000).setReg 0x1B000C 16).setReg 0x1B0020 0x200).setReg
    0x1B0024 0x200).setReg 0x1B0028 1).setReg 0x200 0x30000).setReg 0x18000C 100

/-- An entry of an opcode with fields at bit positions. -/
def ent (op : Nat) (fs : List (Nat × Nat)) : Entry := BitVec.ofNat 512 (op + (fs.map (fun f => f.2 * 2 ^ f.1)).sum)

def ins (w : Entry) : Fetched := { pos := 0, w, x := none }
def insX (w x : Entry) : Fetched := { pos := 0, w, x := some x }

/-- The base with queue 0 created and one instruction held. -/
def held (i : Fetched) : State := base.setQueue 0 { created := true, held := [{ ins := i, body := [], doomed := false }] }

/-- Key 0 of function 0, GEN 1, local, of the first 64 KiB of the pool. -/
def lkey : KeyEnt := { gen := 1, state := .valid, owner := 0, desc := BitVec.ofNat 256 (2 ^ 64 * 65536 + 2 ^ 128 * (2 + 64)) }

/-- A communicator of two ranks, this node being rank 0. -/
def duo : Comm :=
  { creator := 0, tag := 0, ranks := [{ node := 0, cgen := 0, pgroup := 0, pmember := 0 }, { node := 1, cgen := 0, pgroup := 1, pmember := 0 }]
    spares := [], job := 0, jmode := false, ckptEvery := 0, ckptStride := 0 }

def withComm (s : State) : State := { s with comms := [(1, some duo)] }

/-! ## Witnesses -/

/-- The instruction is next on queue 0 of a state, its start, its start with the charge, and its run. -/
abbrev starts (s : State) (op : BitVec 8) (i : Fetched) : Prop := s.startable 0 op i 0
def begun (s : State) (i : Fetched) : State := s.started 0 i 0
def paid (s : State) (i : Fetched) : State := s.charged 0 i 0
def runOf (s : State) (i : Fetched) : Run := s.newRun 0 i 0

/-- With key 0 valid. -/
def keyed (i : Fetched) : State := (held i).setKey 0 lkey

def nop : Fetched := ins (ent 0 [])
def fence (kind : Nat) : Fetched := ins (ent 0x23 [(17, kind)])
/-- PUT or GET of n bytes between pool offset 0 and node 5. -/
def move (op n : Nat) : Fetched := ins (ent op [(17, 2), (32, 7), (64, 5 * 2 ^ 42), (192, 1), (224, n)])
def puti (n : Nat) : Fetched :=
  if n ≤ 48 then ins (ent 0x11 [(17, n), (64, 5 * 2 ^ 42)]) else insX (ent 0x11 [(9, 1), (17, n), (64, 5 * 2 ^ 42)]) 0
def copy : Fetched := ins (ent 0x13 [(17, 2), (19, 2), (32, 1), (128, 4096), (192, 1), (224, 4096)])
def atomic (op size : Nat) : Fetched := ins (ent op [(17, size), (64, 5 * 2 ^ 42 + 8), (128, 1)])
def signalTo (q placed : Nat) : Fetched := ins (ent 0x21 [(17, 7), (64, q), (128, 1), (192, placed)])
def mark (placed : Nat) : Fetched := ins (ent 0x22 [(17, placed), (64, 5 * 2 ^ 42)])
def wait : Fetched := ins (ent 0x20 [(17, 7), (64, 1)])
def flush (scope q : Nat) : Fetched := ins (ent 0x14 [(17, scope), (64, q)])
/-- The instruction is next on queue 0 of a state and nothing in it is malformed. -/
abbrev sound (s : State) (op : BitVec 8) (i : Fetched) (why : State → Run → List Nat) : Prop :=
  starts s op i ∧ lowestDetail (why (begun s i) (runOf s i)) = none

theorem test_wit_NopAndFenceComplete :
    sound (held nop) 0x00 nop State.nopReasons
    ∧ ∀ k ∈ [0, 1], sound (held (fence k)) 0x23 (fence k) State.fenceReasons ∧ ((held (fence k)).earlier 0).isEmpty = true
      ∧ entOpx (fence k).w 0 1 = k := by and_intros <;> decide +kernel

/-- The hypotheses that PUT and GET share. -/
abbrev moveOk (op n : Nat) : Prop := sound (keyed (move op n)) (BitVec.ofNat 8 op) (move op n) State.moveReasons

/-- A COPY with some bytes granted, and a state whose queue 0 is out of tokens. -/
def copying (n : Nat) : Run := { runOf (keyed copy) copy with phase := .granting, aux := n }
def shaped : State := base.setQueue 0 { created := true, rate := 1, tokens := 0 }

theorem test_wit_MovesStart :
    (moveOk 0x10 1 ∧ (moveOpnd (move 0x10 1).w).len ≠ 0 ∧ (begun (keyed (move 0x10 1)) (move 0x10 1)).localFail 0 [moveOpnd (move 0x10 1).w] = none)
    ∧ (moveOk 0x12 65536 ∧ (begun (keyed (move 0x12 65536)) (move 0x12 65536)).localFail 0 [moveOpnd (move 0x12 65536).w] = none)
    ∧ (moveOk 0x10 0 ∧ moveOk 0x12 0 ∧ (moveOpnd (move 0x10 0).w).len = 0)
    ∧ (∀ n ∈ [1, 112], sound (held (puti n)) 0x11 (puti n) State.putiReasons ∧ entOpx (puti n).w 0 7 = n)
    ∧ (sound (keyed copy) 0x13 copy State.copyReasons ∧ entBytes copy.w 28 4 ≠ 0
      ∧ (begun (keyed copy) copy).localFail 0 [copyDst copy.w, copySrc copy.w] = none)
    ∧ ((copying 0).phase = .granting ∧ (copying 0).aux < entBytes (copying 0).ins.w 28 4 ∧ base.bucketsAllow (copying 0).g (64 + 4096) = true
      ∧ shaped.bucketsAllow (copying 0).g (64 + 4096) = false ∧ entBytes (copying 4096).ins.w 28 4 ≤ (copying 4096).aux) := by and_intros <;> decide +kernel

theorem test_wit_AtomicsStart :
    ∀ k ∈ [(0x18, 0), (0x18, 1), (0x19, 0), (0x19, 1)],
      sound (held (atomic k.1 k.2)) (BitVec.ofNat 8 k.1) (atomic k.1 k.2) (State.atomicReasons (k.1 == 0x19)) := by decide +kernel

def sig3 (placed : Nat) : Fetched := signalTo (3 * 2 ^ 62) placed
def sig5 (placed : Nat) : Fetched := signalTo (5 * 2 ^ 42 + 2 ^ 41) placed

theorem test_wit_SignalsMarksAndWaitsStart :
    (∀ k ∈ [0, 1], sound (held (sig3 k)) 0x21 (sig3 k) State.signalReasons ∧ raForm (entQ1 (sig3 k).w) = 3 ∧ (sig3 k).w.getLsbD 192 = (k == 1)
      ∧ ((begun (held (sig3 k)) (sig3 k)).globalC 0 (entOpx (sig3 k).w 0 15)).isSome = true)
    ∧ (∀ k ∈ [0, 1], sound (held (sig5 k)) 0x21 (sig5 k) State.signalReasons ∧ raForm (entQ1 (sig5 k).w) ≠ 3 ∧ (sig5 k).w.getLsbD 192 = (k == 1))
    ∧ (∀ k ∈ [0, 1], sound (held (mark k)) 0x22 (mark k) State.markReasons ∧ entOpx (mark k).w 0 1 = k)
    ∧ (sound (held wait) 0x20 wait State.waitReasons ∧ ((paid (held wait) wait).globalC 0 (entOpx wait.w 0 15)).isSome = true)
    ∧ (∀ k ∈ [(0, 5 * 2 ^ 42), (1, 0)], sound (held (flush k.1 k.2)) 0x14 (flush k.1 k.2) State.flushReasons ∧ entOpx (flush k.1 k.2).w 0 1 = k.1) := by
  and_intros <;> decide +kernel

/-- REPEAT of one NOP, COUNT 1. -/
def rep : Fetched := ins (ent 0x28 [(17, 1), (32, 1)])
def repState : State := base.setQueue 0 { created := true, held := [{ ins := rep, body := [nop], doomed := false }] }

theorem test_wit_RepeatStarts : sound repState 0x28 rep (State.repeatReasons [nop]) := by and_intros <;> decide +kernel

/-- A collective of communicator 1 with CSEQ 1 on pool operands without elements. -/
def coll (op : Nat) (fs xs : List (Nat × Nat)) : Fetched :=
  let w := [(17, 2), (19, 2), (32, 1), (64, 1)] ++ fs
  if xs.isEmpty then ins (ent op w) else insX (ent op ((9, 1) :: w)) (ent 0 xs)
def collState (i : Fetched) : State := withComm (held i)
def rdsc : Fetched := coll 0x30 [] []
def agth : Fetched := coll 0x31 [] []
def ared : Fetched := coll 0x32 [] []
def a2a : Fetched := coll 0x33 [] []
def a2av : Fetched := coll 0x34 [(27, 2)] [(0, 4096), (192, 1)]
def rug : Fetched := coll 0x37 [] [(168, 1)]
/-- DISP and COMB of one token of 256 elements, one expert, K 1. -/
def moe (op : Nat) : Fetched := coll op [(27, 2), (256, 256), (384, 1), (416, 256), (448, 1), (464, 1), (480, 1)] [(0, 4096), (192, 1)]

theorem test_wit_CollectivesStart :
    (collState rdsc).collOpens 0 0x30 rdsc 0 duo ∧ (collState agth).collOpens 0 0x31 agth 0 duo ∧ (collState ared).collOpens 0 0x32 ared 0 duo
    ∧ (collState a2a).collOpens 0 0x33 a2a 0 duo ∧ (collState a2av).collOpens 0 0x34 a2av 0 duo ∧ (collState rug).collOpens 0 0x37 rug 0 duo
    ∧ ((withComm (keyed a2av)).admitColl (runOf (collState a2av) a2av) 1 duo).localFail 0 ((coArrays a2av 0x34 2).take 1) = none
    ∧ (∀ op ∈ [0x35, 0x36], (collState (moe op)).collOpens 0 (BitVec.ofNat 8 op) (moe op) 0 duo
      ∧ ((withComm (keyed (moe op))).admitColl (runOf (collState (moe op)) (moe op)) 1 duo).localFail 0 (coArrays (moe op) (BitVec.ofNat 8 op) 2) = none) := by
  and_intros <;> decide +kernel

/-- SNAP of one unit for step 1, its area at pool offset 0. -/
def snap : Fetched := ins (ent 0x40 [(32, 1), (64, 1), (96, 1), (128, 1), (256, 65536)])
/-- Key 0 of the first 256 MiB of the pool. -/
def bigKey : KeyEnt := { lkey with desc := BitVec.ofNat 256 (2 ^ 64 * 2 ^ 28 + 2 ^ 128 * (2 + 64)) }
def snapState : State := withComm ((held snap).setKey 0 bigKey)
def pers : Fetched := ins (ent 0x41 [(32, 1), (128, 4096), (192, 2 ^ 63 - 1)])

theorem test_wit_SnapAndPersStart :
    (sound snapState 0x40 snap State.snapReasons ∧ State.snapReady 0 snapState snap = true ∧ snap.frogged = false
      ∧ (paid snapState snap).ownComm 0 (coComm snap.w) = some duo ∧ (paid snapState snap).jobAbandoned duo.job = false
      ∧ (paid snapState snap).localFail 0 [snapArea snap.w (duo.groupK 0) duo.jmode] = none ∧ ((paid snapState snap).rankedKeys 1 0).length ≤ 2046)
    ∧ (sound (keyed pers) 0x41 pers State.persReasons ∧ (keyed pers).bit 0x200 17 = true
      ∧ (paid (keyed pers) pers).localFail 0 [persOpnd pers.w] = none ∧ (paid (keyed pers) pers).lineLost (entQ1 pers.w).toNat 4096 = false
      ∧ (paid (keyed pers) pers).tierOf 0 + entBytes pers.w 16 8 ≤ (paid (keyed pers) pers).grant 0 0x28 0 14 * 2 ^ 30
      ∧ (paid (keyed pers) pers).tierAll + entBytes pers.w 16 8 ≤ (paid (keyed pers) pers).fld 0x18000C 0 16 * 2 ^ 30) := by
  and_intros <;> decide +kernel

def digest : Fetched := ins (ent 0x48 [(17, 2), (27, 2), (32, 1), (128, 8), (192, 4096), (256, 1)])
def tag : Fetched := ins (ent 0x4A [(25, 2), (29, 2), (32, 1), (128, 8), (192, 4096), (256, 1)])
def uprog : Fetched := ins (ent 0x50 [(23, 2), (32, 1), (128, 64)])
def check : Fetched := ins (ent 0x49 [(17, 2), (32, 1), (128, 8)])
def tagState : State := { keyed tag with kslots := [(0, { a := [1], b := [1] })] }

theorem test_wit_IntegrityInstructionsStart :
    (sound (keyed digest) 0x48 digest State.digestReasons ∧ (paid (keyed digest) digest).localFail 0 [digestSrc digest.w, digestOut digest.w] = none)
    ∧ (sound tagState 0x4A tag State.tagReasons
      ∧ (paid tagState tag).kslotOf 0 (entOpx tag.w 0 8) = some 0 ∧ (paid tagState tag).kslot 0 ≠ {}
      ∧ (paid tagState tag).slotEmptied true 0 0 = false ∧ (paid tagState tag).localFail 0 [tagSrc tag.w, tagOut tag.w] = none)
    ∧ (sound (keyed uprog) 0x50 uprog State.uprogReasons ∧ (paid (keyed uprog) uprog).localFail 0 [uprogSrc uprog.w] = none)
    ∧ (sound (keyed check) 0x49 check State.checkReasons
      ∧ entBytes check.w 16 8 ≠ 0 ∧ (paid (keyed check) check).localFail 0 [checkSrc check.w] = none) := by
  and_intros <;> decide +kernel

/-- COMM with an ACTION, for handle 1, with P ranks. -/
def comm (action n : Nat) : Fetched := ins (ent 0x58 [(17, action), (19, 2), (32, 1), (128, 1), (160, n)])
def commState (action n : Nat) : State := (held (comm action n)).setKey 0 bigKey

theorem test_wit_CommActionsStart :
    (∀ k ∈ [(0, 1), (0, 2 ^ 20), (1, 1)],
      sound (commState k.1 k.2) 0x58 (comm k.1 k.2) State.commReasons ∧ commAction (comm k.1 k.2).w = k.1
        ∧ (paid (commState k.1 k.2) (comm k.1 k.2)).localFail 0 [commMap (comm k.1 k.2).w 64] = none)
    ∧ sound (withComm (held (comm 2 0))) 0x58 (comm 2 0) State.commReasons ∧ commAction (comm 2 0).w = 2 := by
  and_intros <;> decide +kernel

/-- The smallest rings: 64 entries and 128 records in host memory. -/
def qdesc : Entry := BitVec.ofNat 512 (0x0706 * 2 ^ 192)
def described : State := base.setReg (page 0 0x1018) 0x0706
def existing : State := described.setQueue 1 { created := true, desc := qdesc }

theorem test_wit_QueueCommands :
    (existing.queueCmd 0 1 0).queueResult 0 1 0 true = 1 ∧ (described.queueCmd 0 1 1).queueResult 0 1 1 true = 1
    ∧ (existing.queueCmd 0 1 2).queueResult 0 1 2 true = 1 ∧ (existing.queueCmd 0 1 3).queueResult 0 1 3 true = 1
    ∧ (described.queueCmd 0 4 1).queueResult 0 4 1 true = 3 ∧ (existing.queueCmd 0 1 1).queueResult 0 1 1 true = 4
    ∧ (base.queueCmd 0 1 0).queueResult 0 1 0 true = 5 ∧ (base.queueCmd 0 1 2).queueResult 0 1 2 true = 5
    ∧ (base.queueCmd 0 1 3).queueResult 0 1 3 true = 5 := by
  and_intros <;> decide +kernel

/-- Queue 1 after 10 announced entries of which 4 are fetched, and 3 records written of which 1 is taken. -/
def busy : State := base.setQueue 1 { created := true, desc := qdesc, fetch := 4, dbpi := 10, cpi := 3, cci := 1 }

theorem test_wit_DoorbellRules :
    base.globalQ 0 4 = none ∧ base.globalQ 0 3 = some 3 ∧ (base.queue 3).created = false
    ∧ busy.globalQ 0 1 = some 1 ∧ (busy.queue 1).created = true ∧ busy.resetting 0 = false ∧ busy.boundOff = false
    ∧ (busy.setFld (page 0 0x1A00) 8 1 1).resetting 0 = true ∧ ((busy.setFld (page 0 0x1A00) 8 1 1).queue 1).created = true
    ∧ ((10 : Word) = (busy.queue 1).dbpi ∧ 2 ^ 31 ≤ ((10 + 2 ^ 31 : Word) - (busy.queue 1).dbpi).toNat)
    ∧ (((69 : Word) - (busy.queue 1).dbpi).toNat < 2 ^ 31 ∧ qRingSize (busy.queue 1).desc < ((69 : Word) - (busy.queue 1).fetch).toNat)
    ∧ ((68 : Word) ≠ (busy.queue 1).dbpi ∧ ((68 : Word) - (busy.queue 1).fetch).toNat ≤ qRingSize (busy.queue 1).desc)
    ∧ ((3 : Word) ≠ (busy.queue 1).cci ∧ ((busy.queue 1).cpi - (3 : Word)).toNat ≤ qCringSize (busy.queue 1).desc)
    ∧ (((4 : Word) - (busy.queue 1).cci).toNat < 2 ^ 31 ∧ qCringSize (busy.queue 1).desc < ((busy.queue 1).cpi - (4 : Word)).toNat) := by
  and_intros <;> decide +kernel

/-- Queue 1 may fetch: the host is reached. -/
def fetching : State := (busy.setReg 0x190000 0x500).setFunc 0 { busMaster := true }
/-- Its work ring is in virtual host memory that no cached translation covers, or in an accelerator for which it has no key. -/
def untranslated : State := (fetching.setFunc 0 { busMaster := true, ats := true }).setFld 0x190000 16 1 1
def keyless : State := fetching.setQueue 1 { busy.queue 1 with desc := BitVec.ofNat 512 (0x10706 * 2 ^ 192) }
/-- Queue 1 waits on a position, which has been read n times. -/
def stalled (n : Nat) (r : Bool) : State := fetching.setQueue 1 { busy.queue 1 with stale := some (4, n, r) }
def rec0 : CRec :=
  { status := 0, opcode := 0, eseq := 0, iter := 0, flags := 0, detail := 0, result := 0, info := 0, ctr := none, err := false, sol := none, startT := 0 }
/-- Both its rings fail, with one record held. -/
def failing : State := fetching.setQueue 1 { busy.queue 1 with workFault := true, compFault := true, heldRecs := [rec0] }
/-- Its completion ring is full. -/
def full : State := busy.setQueue 1 { busy.queue 1 with cpi := 129, heldRecs := [rec0] }
/-- It has fetched up to the ring's last index. -/
def atEnd : Queue := { busy.queue 1 with fetch := 63, dbpi := 70 }

theorem test_wit_FetchRules :
    (fetching.mayFetch 1 = true ∧ fetching.ringWay 1 4 6 = .clear ∧ (fetching.queue 1).readFrom = (4, []) ∧ (fetching.queue 1).readMax 4 = 6)
    ∧ (untranslated.mayFetch 1 = true ∧ untranslated.ringWay 1 4 6 = .waits 256 ∧ untranslated.hostReach (untranslated.ownerOf 1) = true)
    ∧ (keyless.mayFetch 1 = true ∧ keyless.ringWay 1 4 6 = .fails 2 256)
    ∧ (((stalled 1 false).queue 1).stale = some (4, 1, false) ∧ ((stalled 1 false).queue 1).workFault = false ∧ ((stalled 1 false).queue 1).half = none
      ∧ 0 < ((stalled 1 false).queue 1).readMax 4 ∧ (stalled 1 false).ringWay 1 4 1 = .clear)
    ∧ (entOwn (ent 0x100 []) = lap 4 (qRingSize qdesc) ∧ entOwn (ent 0 []) ≠ lap 4 (qRingSize qdesc))
    ∧ ((stalled 64 false).queue 1).stale = some (4, 64, false)
    ∧ ((failing.queue 1).workFault = true ∧ (failing.queue 1).stale = none ∧ failing.ringWay 1 4 6 = .clear ∧ (failing.queue 1).compFault = true
      ∧ (failing.tryRecord 1 true).isSome = true)
    ∧ ((full.queue 1).heldRecs ≠ [] ∧ (full.queue 1).cringRoom = false ∧ (full.queue 1).stallRaised = false)
    ∧ (atEnd.fetch ≠ atEnd.dbpi ∧ atEnd.heldCount < 64 ∧ entExt (ent 0x300 []) = true ∧ entOwn (ent 0x300 []) = lap 63 (qRingSize qdesc)
      ∧ (atEnd.fetch.toNat + 1) % qRingSize atEnd.desc = 0 ∧ 2 ≤ (atEnd.dbpi - atEnd.fetch).toNat)
    ∧ ((busy.queue 1).fetch ≠ (busy.queue 1).dbpi ∧ (busy.queue 1).heldCount < 64 ∧ (busy.queue 1).collect = none ∧ entExt (ent 0x100 []) = false) := by
  and_intros <;> decide +kernel

theorem test_wit_CounterSlots :
    base.globalC 0 7 = some 7 ∧ base.globalC 0 8 = none ∧ (slotReplace .whole 0 (2 ^ 63 - 1)).getLsbD 63 = false := by
  and_intros <;> decide +kernel

/-- Function 0 is being reset by FUNC_RESET_CMD, and function 1 by FLR. -/
def resets : State := ((base.setFld (page 0 0x1A00) 8 1 1).setFld (page 1 0x1A00) 8 1 1).setReg 0x1B4010 0x80000000

theorem test_wit_FunctionResetCommands :
    existing.queuesOf 0 = [1] ∧ base.enabled 0 = true ∧ base.enabled 1 = false ∧ resets.resetting 0 = true ∧ base.resetting 0 = false
    ∧ resets.bit 0x1B4010 31 = true ∧ resets.fld 0x1B4010 0 8 = 0
    ∧ (resets.setReg 0x1B4010 0).resetting 1 = true ∧ (resets.setReg 0x1B4010 0).bit 0x1B4010 31 = false := by
  and_intros <;> decide +kernel

def linked : State := base.setReg 0x610 0x3FF

theorem test_wit_HostLinkCommands :
    (((linked.setFld 0x190000 8 3 5).setFld 0x190000 11 5 16).setFld 0x190000 16 1 1).bit 0x610 9 = true ∧ base.bit 0x8000 0 = false := by
  and_intros <;> decide +kernel

/-- KEY_DESC describes 64 KiB of the pool with the local right. -/
def keyDescribed : State := (base.setReg (page 0 0x1108) 65536).setReg (page 0 0x1110) 0x42
/-- KEY_CMD_KEY names key 0 in one of its states. -/
def keyIs (st : KeyState) (auto : Bool) : State := (base.setReg (page 0 0x1120) 1).setKey 0 { lkey with state := st, autoRelease := auto }

theorem test_wit_KeyCommandsDone :
    base.bit (page 0 0x1124) 31 = false ∧ (keyIs .valid false).namedKey 0 = some 0 ∧ ((keyIs .valid false).key 0).state = .valid
    ∧ keyDescribed.registerResult 0 (keyDescribed.keyDesc 0) = 1 ∧ keyDescribed.nextIndex = some 0 ∧ keyDescribed.poolReady = true
    ∧ (keyIs .drained false).namedKey 0 = some 0 ∧ ((keyIs .drained false).key 0).state = .drained
    ∧ ((keyIs .draining false).key 0).state = .draining ∧ (keyIs .draining false).keyBusy 0 = false ∧ ((keyIs .draining true).key 0).autoRelease = true := by
  and_intros <;> decide +kernel

/-- A header from node 1 to this node, a request, a response and a notice. -/
def hdr : Hdr := { newHdr 4 0 with src := 1 }
def req : ReqF :=
  { opcode := 0x18, iqueue := 0, placed := false, instid := 0, addr := 0, key := 1, comm := 0, size := true, fetch := false, seterr := false, clrerr := false, arg := 0 }
def resp : RespF := { opcode := 0x18, iqueue := 0, instid := 0, rpsn := 0, roff := 0, result := 0, swapped := false }
def ackF : AckF := { ackBase := 0, okmap := 1, echo := 0, fstatus := 0, freason := 0, fpsn := 0 }
def note (subject : Nat) : NoticeF := { newNotice subject with fseq := 1, reason := 1 }
def pkt (b : Body) : Packet := { hdr, body := b, payload := [] }
/-- A retained packet of class 4: with its tries, and of a run or not. -/
def kept (tries : Nat) (rid : Option Nat) : Retained :=
  { pkt := pkt (.request req), addr := 5 * 2 ^ 42, comm := none, sentT := 0, tries, rid, off := 0, len := 0, needsResp := true, acked := false, longRaised := false }
def keeps (x : Retained) : State := base.setPath 1 { retained := [x] }

theorem test_wit_PacketsAreTaken :
    base.boundOff = false ∧ hdr.src.toNat ≠ base.self ∧ base.lost.contains hdr.src.toNat = false ∧ (base.rxCheck 1 hdr.psn hdr.lup).1 = .fresh
    ∧ (base.consume { hdr, body := .request req, payload := [] }).self = 0 ∧ base.retrFull hdr req = false
    ∧ respCells req ≠ 0 ∧ base.canGrow 7 (respCells req) = true ∧ (base.setReg 0x15003C 0).retrFull hdr req = true
    ∧ ({ base with placeReqs := [(pkt (.request req), [7])] } : State).placeReqs.find? (fun e => e.1.hdr.src == 1 && e.1.hdr.psn == 0)
      = some (pkt (.request req), [7]) ∧ base.admitted = []
    ∧ ({ base with parkedReqs := [pkt (.request req)] } : State).parkedReqs.find? (fun p => p.hdr.src == 1 && p.hdr.psn == 0) = some (pkt (.request req)) := by
  and_intros <;> decide +kernel

theorem test_wit_PsnVerdicts :
    psnBefore 4 5 = true ∧ psnBefore 5 5 = false ∧ (base.setPath 1 { rbase := 5 }).path 1 = { rbase := 5 }
    ∧ ({ rbase := 5 } : Path).rxOf 5 = none ∧ ({ rx := [(5, .pending)] } : Path).rxOf 5 = some .pending
    ∧ ({ rx := [(5, .done 0 0)] } : Path).rxOf 5 = some (.done 0 0) := by
  and_intros <;> decide +kernel

/-- An engine's retained packet toward node 1 whose tokens are spent, the limit of tries being 5, and the kept response to its request 3. -/
def spent : State := (keeps (kept 4 none)).setPath 1 { retained := [kept 4 none], tokens := 0 }
def reply : Retained := { kept 1 none with reply := some 3 }

theorem test_wit_AcknowledgingAndResending :
    (base.consume { hdr, body := .ack ackF, payload := [] }).boundOff = false ∧ (base.consume { hdr, body := .ack ackF, payload := [] }).lost = []
    ∧ ((base.setPath 1 { unreported := [(0, false), (63, true)] }).path 1).unreported = [(0, false), (63, true)] ∧ ((63 : Word) - 0).toNat < 64
    ∧ ((keeps (kept 4 none)).path 1).retained.find? (fun x => x.pkt.hdr.psn == 0) = some (kept 4 none) ∧ (1 : Nat) ≠ base.self
    ∧ isAnswer (kept 4 none).pkt = false ∧ ((kept 4 none).acked && !(kept 4 none).needsResp) = false ∧ (keeps (kept 4 none)).destOf 1 (kept 4 none) = .node 1
    ∧ (kept 4 none).pkt.hdr.cls = 4 ∧ (4 < (base.setReg 0x110018 (5 * 2 ^ 22)).fld 0x110018 22 5) ∧ (base.setReg 0x110018 0).fld 0x110018 22 5 ≤ 4
    ∧ (∀ y ∈ ((keeps (kept 4 none)).path 1).retained, y.due = false) ∧ packetCost (kept 4 none).pkt ≤ ((keeps (kept 4 none)).path 1).tokens
    ∧ (kept 4 none).missing = 0 ∧ (spent.path 1).tokens < packetCost (kept 4 none).pkt
    ∧ ((keeps (kept 4 (some 0))).path 1).retained.find? (fun x => x.pkt.hdr.psn == 0) = some (kept 4 (some 0))
    ∧ ({ keeps (kept 4 (some 0)) with lost := [5] } : State).destOf 1 (kept 4 (some 0)) = .lost
    ∧ ((keeps reply).path 1).repliesTo 3 ≠ [] := by
  and_intros <;> decide +kernel

def inPkt (dst hops : Nat) : InPkt :=
  { pkt := { hdr := { hdr with dst := BitVec.ofNat 20 dst, hops := BitVec.ofNat 4 hops }, body := .ack ackF, payload := [] }, port := none, originated := false }

theorem test_wit_RoutingChoices :
    ({ base with routeQ := [inPkt 0 0] } : State).routeQ = inPkt 0 0 :: [] ∧ (inPkt 0 0).pkt.hdr.dst.toNat = base.self
    ∧ (inPkt 9 15).pkt.hdr.dst.toNat ≠ base.self ∧ (inPkt 9 15).pkt.hdr.hops = 15
    ∧ ((base.setPort 3 { egress := [inPkt 9 0] }).port 3).egress.find? (fun e => e.pkt.hdr.vc != 2) = some (inPkt 9 0) ∧ base.routeFixed = false := by
  and_intros <;> decide +kernel

theorem test_wit_LinkNotices :
    base.boundOff = false ∧ base.isLost hdr.src.toNat = false ∧ base.noticeFresh .linkDown hdr.src (note 1) = true
    ∧ base.noticeFresh .linkUp hdr.src (note 1) = true ∧ (base.consume { hdr, body := .notice .linkUp (note 1), payload := [] }).lost = [] := by
  and_intros <;> decide +kernel

theorem test_wit_GaugeAndTelemetry :
    ({ newAcked := 4, newEchoed := 1 } : Path).newAcked ≠ 0 ∧ 0 < ({ newAcked := 4, newEchoed := 1 } : Path).newEchoed
    ∧ ({ quiet := 2 } : Path).quiet + 1 < (base.setReg 0x11001C 0x50000000).fld 0x11001C 28 4
    ∧ (base.setReg 0x11001C 0x50000000).fld 0x11001C 28 4 ≤ ({ quiet := 4 } : Path).quiet + 1
    ∧ ({ retained := [{ kept 1 none with acked := true }] } : Path).retained.all (·.acked) = true := by
  and_intros <;> decide +kernel

/-- Port 3 in a state of training, with its full lane set. -/
def atState (st : Nat) : State := (base.setFld (plink 3 8) 8 3 st).setLanes 3 (3, 0)
/-- Port 3 up and locked, and up with lane 0 without signal. -/
def locked : State := (atState psUp).setPort 3 { lock := true }
def lossy : State := (atState psUp).setFld (plink 3 0x10) 16 16 1

/-- Codewords of zeros, with its last symbol wrong, and with its last sixteen symbols wrong. -/
def zeroWord : Codeword := { lanes := List.replicate 8 (List.replicate 340 0) }
def oneWrong : Codeword := { lanes := List.replicate 7 (List.replicate 340 0) ++ [List.replicate 339 0 ++ [1]] }
def sixteenWrong : Codeword := { lanes := List.replicate 8 (List.replicate 334 0 ++ [1, 0, 0, 0, 0, 1]) }

theorem test_wit_PortReceiving_listens :
    (atState psUp).listens 3 = true ∧ ((atState psUp).port 3).lock = false ∧ locked.listens 3 = true ∧ (locked.port 3).lock = true ∧ locked.boundOff = false := by
  and_intros <;> decide +kernel

theorem test_wit_PortReceiving_good : (locked.decode 3 zeroWord).1 = some (0, List.replicate 10 .idle) := by decide +kernel

theorem test_wit_PortReceiving_corrected : (locked.decode 3 oneWrong).1 = some (1, List.replicate 10 .idle) := by decide +kernel

theorem test_wit_PortReceiving_uncorrectable : (locked.decode 3 sixteenWrong).1 = none := by decide +kernel

theorem test_wit_PortReceiving :
    ((base.setPort 3 { last := some ([1], [2]) }).port 3).last = some ([1], [2]) ∧ (atState psUp).portRuns 3 = true
    ∧ (((atState psUp).setPort 3 { errTimes := [0, 0, 0] }).port 3).errTimes.length < 4
    ∧ ((((atState psUp).setPort 3 { errTimes := [0, 0, 0, 0] }).port 3).errTimes.filter (fun t => decide (0 < t + 1000000000))).length = 4
    ∧ lossy.portUp 3 = true ∧ laneMask 3 (lossy.lanesOf 3).1 (lossy.lanesOf 3).2 &&& 1 ≠ 0 ∧ lossy.bestSet 3 0 = none
    ∧ (lossy.bestSet 3 0xFFFE).isSome = true
    ∧ (((atState psIdent).setPort 3 { fast := some .lock, identOk := true, limits := List.range 6 }).port 3).fast.isSome = true
    ∧ ((atState psIdent).setPort 3 { fast := some .lock, identOk := true, limits := List.range 6 }).identDone 3 = true ∧ ((atState psUp).port 3).fast = none := by
  and_intros <;> decide +kernel

theorem test_wit_CreditRules :
    (atState psUp).portRuns 3 = true ∧ ((5 : Word) - 3).toNat < 2 ^ 31 ∧ ((5 : Word) - 5).toNat < 2 ^ 31 ∧ (6 : Word) ≠ 5 ∧ ((6 : Word) - 5).toNat < 2 ^ 31 := by
  and_intros <;> decide +kernel

/-- Port 3 enabled, with its PLL locked and a place in the first dimension. -/
def mayGo : State := (((atState psDown).setFld (plink 3 0) 0 1 1).setReg 0x208 0x3FF).setReg 0x11010C 8
def ready (w : Swatch) : State := (atState psSwatch).setPort 3 { sw := some w }
def swatch (ph : SwPhase) (leader : Bool) : Swatch := { leader, phase := ph, own := 0xFF, partner := none, lanes := 3, group := 0 }
def identOf (n : Nat) : IdentF := { node := BitVec.ofNat 20 n, port := 0, lanesOk := 3, version := 1, fast := false, nlinksm1 := 0, link := 0, maxrd := 0 }

theorem test_wit_PortTraining :
    (mayGo.port 3).fast = none ∧ mayGo.pstate 3 = psDown ∧ mayGo.mayTrain 3 = true ∧ (atState psDetect).pstate 3 = psDetect
    ∧ (((atState psDetect).setFld (plink 3 0x10) 16 16 0).signalSet 3).isSome = true ∧ (((atState psDetect).setFld (plink 3 0x10) 16 16 0xFF).signalSet 3).isSome = false
    ∧ (atState psEqualise).pstate 3 = psEqualise ∧ (atState psLock).pstate 3 = psLock ∧ (atState psIdent).pstate 3 = psIdent
    ∧ ((atState psIdent).setPort 3 { identOk := true, limits := List.range 6 }).identDone 3 = true
    ∧ (atState psUp).pstate 3 = psUp ∧ (ready (swatch .ready true)).pstate 3 = psSwatch
    ∧ ((ready (swatch .ready true)).port 3).sw = some (swatch .ready true) ∧ ((ready (swatch .ready true)).port 3).fast = none
    ∧ (identOf 0).node.toNat = withCoord ((atState psIdent).setReg 0x11010C 0).self (((atState psIdent).setReg 0x11010C 0).portDim 3)
        (((atState psIdent).setReg 0x11010C 0).portPeer 3)
    ∧ ((atState psUp).port 3).sw = none ∧ (((atState psHeld).setPort 3 { heldBy := .partner }).port 3).heldBy = .partner
    ∧ ((atState psHeld).setPort 3 { heldBy := .partner }).pstate 3 = psHeld ∧ ((atState psUp).setFld (plink 3 0) 0 1 1).bit (plink 3 0) 0 = true
    ∧ (atState psHeld).bit (plink 3 0) 5 = false := by
  and_intros <;> decide +kernel

theorem test_wit_Swatching :
    ∀ ph ∈ [SwPhase.askA, .runA, .endA, .askB, .runB, .results], ∀ l ∈ [true, false],
      ((ready (swatch ph l)).port 3).sw = some (swatch ph l) ∧ (swatch ph l).leader = l ∧ (swatch ph l).phase = ph ∧ (swatch ph l).partner = none := by
  decide +kernel

/-- A collective message of communicator 1, CSEQ 1, and what it meets. -/
def collF (op chunk : Nat) : CollF :=
  { opcode := BitVec.ofNat 8 op, comm := 1, npkt := 0, exc := false, cgen := 0, cseq := 1, chunk := BitVec.ofNat 26 chunk, pidx := 0, srank := 1, pdig := 0, tcrc := 0 }
def taken (k : CollKind) : State := ((withComm base).takePkt { hdr, body := .coll k (collF 0x32 0), payload := [] }).2

theorem test_wit_CollectiveMessages :
    ∀ k ∈ [CollKind.contrib, .result, .data, .count, .grant, .resendReq, .acceptAck, .nak, .resultAck, .notReady],
      (taken k).boundOff = false ∧ (taken k).isLost 1 = false ∧ hdr.src.toNat ≠ (taken k).self ∧ ((taken k).rxCheck 1 hdr.psn hdr.lup).1 = .fresh
        ∧ (((taken k).rxCheck 1 hdr.psn hdr.lup).2.delivered 1 hdr.psn hdr.ce stOk 0).comm 1 = some duo ∧ duo.tag = hdr.ttag := by
  decide +kernel

/-- An ARED of 1,024 elements in progress, a slot of its first chunk with both inputs in, and a transfer that its only peer has not answered. -/
def ared1 : Fetched := coll 0x32 [(256, 1024)] []
def run0 : Run := { runOf (collState ared1) ared1 with phase := .coll }
def going : State :=
  { collState ared1 with
    runs := [run0]
    colls := [(collState ared1).newColl run0 1 duo]
    slots := [(0, some { comm := 1, cseq := 1, chunk := 0, reserved := true, acc := [], bits := 3, exc := false })]
    xfers := [{ comm := 1, cseq := 1, kind := .contrib, op := 0x32, chunk := 0, srank := 0, bytes := [], exc := false, pdig := 0
                peers := [{ rank := 1, node := 1, tries := 1, held := true }] }] }

theorem test_wit_CollectiveTimersAndSlots :
    (going.unready 1 1).map (fun x => (x.comm, x.cseq)) = [(1, 1)] ∧ (going.collAt 1 1).map (·.rid) = some 0 ∧ going.run? 0 = some run0
    ∧ (taken .chunkLoss).comm 1 = some duo ∧ (collF 0x32 0).opcode ≠ 0x40 ∧ going.rticks = []
    ∧ (going.comms.map (·.1) = [1] ∧ ({ going with slots := [] } : State).slots = [] ∧ (({ going with slots := [] } : State).nextRequest 1).isSome = true)
    ∧ (going.collAt 1 1).map (fun c => (c.op, decide (c.slotTotal 0 ≤ 2))) = some (0x32, true)
    ∧ ({ comm := 1, cseq := 1, chunk := 0, reserved := true, acc := [], bits := 3, exc := false } : RSlot).got = 2 := by
  and_intros <;> decide +kernel

/-- Links down to node 1 in the only dimension, node 1 not yet lost. -/
def cut : State := { base.setReg 0x110008 1 with downLinks := [(0, 0, 1)] }

theorem test_wit_LosingNodes :
    (base.setFld 0x170004 16 1 1).boundOff = true ∧ cut.confirmDim 1 = some 0 ∧ cut.diff cut.self 1 = [0] ∧ cut.allDown 1 0 = true
    ∧ cut.boundOff = false ∧ base.isLost hdr.src.toNat = false ∧ base.noticeFresh .deadNode hdr.src (note 2) = true ∧ (note 2).reason = 1
    ∧ base.lost.contains base.self = false := by
  and_intros <;> decide +kernel

def told : State := (base.noteFseq .deadNode hdr.src (note 0)).forwardNotice 3 .deadNode hdr (note 0)

theorem test_wit_DeadNodeNamingItself :
    (base.consume { hdr, body := .notice .deadNode (note 0), payload := [] }).boundOff = false
    ∧ base.noticeFresh .deadNode hdr.src (note 0) = true ∧ hdr.src.toNat ≠ base.self ∧ (note 0).reason = 1
    ∧ (note 0).subject.toNat = told.self ∧ told.lost.contains 0 = false ∧ told.boundOff = false := by
  and_intros <;> decide +kernel

theorem test_wit_BindOffOnce : base.boundOff = false ∧ (base.setFld 0x170004 16 1 1).boundOff = true := by
  and_intros <;> decide +kernel

/-- The commit area of communicator 1: one protected unit and one parity unit from offset 0, committed. -/
def journal : Journal :=
  { comm := 1, st := .active, parityValid := true, cstep := 1, ccseq := 1, pstep := 0, jmode := false, committed := true, base := 0, n := 1, np := 1, saved := [] }
def frog (ph : FrogPhase) : Frog := { number := 1, phase := ph, votes := [], voted := true, target := some (1, 1) }
/-- Job 0 with a frog in a phase and its commit communicator, and that state as its restore begins. -/
def frogged (ph : FrogPhase) : State := { (withComm base).setJob 0 { commit := some 1, frog := some (frog ph) } with journals := [journal] }
def restored (s : State) : State :=
  let a := (s.frogRestore 1 ((s.rankHere 1).getD 0) (1, 1)).needRestore 1
  a.rebuildLines 1 ((a.rankHere 1).getD 0)
/-- A restore that undoes unit 0, and a state whose host may hold the lines at the start of each area (R350). -/
def withSaved (s : State) : State := { s with journals := [{ journal with saved := [0] }] }
def snooped (s : State) : State := { s.setFld 0x150050 0 2 1 with winDir := [0, journal.undo 1 / 64] }
def claim : Claim := { job := 0, comm := 1, rank := 0, cgen := 1, phase := .darning }
def asked (op : Nat) : State := ((withComm base).setReg (page 0 0x1140) (BitVec.ofNat 32 (1 + op * 2 ^ 24))).setFld (page 0 0x1140) 24 2 op

theorem test_wit_RanksAndFrogs :
    base.noticeFresh .rankClaim hdr.src (note 2) = true ∧ (withComm base).comm 1 = some duo ∧ duo.ranks[1]? = some { node := 1, cgen := 0, pgroup := 1, pmember := 0 }
    ∧ ({ withComm base with lost := [1] } : State).openRank { node := 1, cgen := 0, pgroup := 1, pmember := 0 } = true
    ∧ ({ withComm base with lost := [1] } : State).noSpareLeft 0 = true
    ∧ ((frogged .noCommit).job 0).frog = some (frog .noCommit) ∧ ((frogged .restore).job 0).frog = some (frog .restore) ∧ (frog .restore).target = some (1, 1)
    ∧ ((frogged .restore).job 0).commit = some 1 ∧ ((restored (frogged .restore)).job 0).again = false
    ∧ ((restored ((frogged .restore).setJob 0 { commit := some 1, frog := some (frog .restore), again := true })).job 0).again = true
    ∧ (frogged .noCommit).journal? 1 = some journal ∧ journal.saved.contains 1 = false ∧ 1 < journal.n + journal.np
    ∧ (frogged .noCommit).lineLost (journal.base + UNIT) UNIT = false
    ∧ (frogged .restore).undoMarked 1 = [] ∧ (snooped (withSaved (frogged .restore))).undoMarked 1 ≠ []
    ∧ ((snooped (withSaved (frogged .restore))).job 0).frog = some (frog .restore) ∧ ((snooped (withSaved (frogged .restore))).job 0).commit = some 1
    ∧ (frogged .noCommit).markedLines (journal.undo 1) UNIT = [] ∧ (snooped (frogged .noCommit)).markedLines (journal.undo 1) UNIT ≠ []
    ∧ (snooped (frogged .noCommit)).journal? 1 = some journal ∧ (snooped (frogged .noCommit)).lineLost (journal.base + UNIT) UNIT = false
    ∧ (base.rxCheck 1 hdr.psn hdr.lup).1 = .fresh ∧ ({ base with claims := [claim] } : State).darned 0 = true
    ∧ (withComm base).bit (page 0 0x1140) 31 = false ∧ (asked 0).jobCommOf 0 = some (1, duo) ∧ (asked 1).jobCommOf 0 = some (1, duo)
    ∧ (asked 1).jobBusy 0 = false ∧ (asked 1).reg64 (page 0 0x1148) ≠ BitVec.allOnes 64 ∧ ((asked 1).job 0).commit = none := by
  and_intros <;> decide +kernel

def version : TVer := { step := 1, data := [1, 2, 3] }
def stored : TObj := { obj := 5, owner := 0, cur := some version, prev := none, writing := [(0, version)] }
/-- Object 5 of function 0 with a version, named by NV_CMD. -/
def tiered : State := { base.setReg (page 0 0x1200) 5 with tier := [stored], runs := [runOf (keyed pers) pers] }
def nvc (op : Nat) : State := tiered.setFld (page 0 0x1214) 0 2 op
def unready : State := { base.setReg 0x200 0 with restores := [] }

theorem test_wit_TierCommands :
    tiered.tier.find? (fun o => o.obj == 5 && !o.writing.isEmpty) = some stored ∧ stored.writing = (0, version) :: []
    ∧ ((({ tiered.setTobj { stored with cur := some version, prev := some version, writing := [] } with govCredit := 0 } : State).media 4096).showGov.run? 0)
      = some (runOf (keyed pers) pers)
    ∧ tiered.tobj? 0 5 = some stored ∧ stored.cur = some version
    ∧ tiered.pwr.nandPaused = false ∧ ({ tiered with pwr := { tiered.pwr with nandPaused := true } } : State).pwr.nandPaused = true
    ∧ tiered.bit (page 0 0x1214) 31 = false ∧ tiered.nvReady = true ∧ (nvc 0).nvVersion 0 = some version ∧ (nvc 1).nvVersion 0 = some version
    ∧ raForm ((nvc 1).reg64 (page 0 0x1208)) = 0 ∧ raSpace ((nvc 1).reg64 (page 0 0x1208)) = 0 ∧ (nvc 2).nvObj 0 = some stored
    ∧ (nvc 2).restores = [] ∧ (nvc 2).nvPrev 0 = false ∧ stored.cur ≠ none
    ∧ unready.nvReady = false ∧ ((List.range 256).all (fun f => !unready.bit (page f 0x1214) 31)) = true := by
  and_intros <;> decide +kernel

/-- The journal of an open frog whose undo copy at line 131008 would be needed. -/
def undoing : State := ((frogged .vote).count 0x220048)

theorem test_wit_SweepsAndScrubs :
    (0 ≠ lastLine ∧ 131008 ≠ lastLine) ∧ undoing.protectedBy 131008 = some journal ∧ undoing.comm 1 = some duo ∧ undoing.protectedBy 131072 = none
    ∧ undoing.undoNeeded 131072 = false := by
  and_intros <;> decide +kernel

def parked (st : ParkState) (w : Bool) : Park := { f := 0, pasid := 0, va := 4096, len := 64, write := w, data := [], off := 0, ticket := .nobody, st }
def parking (st : ParkState) (w : Bool) : State := { base with parks := [parked st w] }
def hread : HRead := { tag := 3, f := 0, pasid := 0, va := 4096, len := 64, off := 0, ticket := .nobody }

theorem test_wit_HostMemoryAnswers :
    (parking .translating true).parksAt 0 0 4096 .translating = [parked .translating true]
    ∧ (parking .translating false).parksAt 0 0 8191 .translating = [parked .translating false]
    ∧ ({ base with parks := [{ parked .translating true with len := 4097 }] } : State).askedAhead 0 0 8192 = true
    ∧ (parking .translating true).askedAhead 0 0 8192 = false
    ∧ (parking .paging true).parksAt 0 0 4096 .paging = [parked .paging true] ∧ base.hreads = []
    ∧ ({ base with hreads := [hread] } : State).hreads.find? (fun r => r.tag == 3) = some hread := by
  and_intros <;> decide +kernel

/-- The window mapped onto the pool from its start, or onto the store. -/
def window (mode : Nat) : State := (base.setReg 0x150050 (BitVec.ofNat 32 mode)).setReg 0x190000 0x30000

theorem test_wit_HostWindow :
    (window 1).winPresent = true ∧ (window 2).winPresent = true ∧ ((window 1).setReg 0x200 0).winPresent = true ∧ base.winPresent = false
    ∧ (window 1).winHolds 7 = false ∧ ((window 1).winLine 7).isSome = true ∧ ((window 2).winLine 7).isSome = true ∧ (window 2).winHolds 7 = false
    ∧ (window 1).fld 0x150050 0 2 = 1 ∧ (window 2).fld 0x150050 0 2 = 2 ∧ ((window 1).setReg 0x200 0).winHolds 7 = true
    ∧ ({ window 1 with winDir := [7] } : State).winDir = [7] ∧ ({ window 1 with winDir := [7] } : State).winDir ≠ [] ∧ base.winDir = [] := by
  and_intros <;> decide +kernel

def aop (k : AKind) : AOp := { tag := 9, kind := k, addr := 0, len := 8, off := 0, got := 0, data := List.replicate 8 0, ticket := .nobody }
/-- Accelerator 0 present, without a port that is up, with an operation of a kind. -/
def accel (k : AKind) : State := (base.setReg 0x1A0000 0x100).setAccel 0 { ops := [aop k], retained := [(4, 1, amsg 1)], links := [(32, 0)] }
/-- Key 0 of the first 64 KiB of the pool with every right. -/
def akey : KeyEnt := { lkey with desc := BitVec.ofNat 256 (2 ^ 64 * 65536 + 2 ^ 128 * (2 + 124)) }

theorem test_wit_AcceleratorMessages :
    ((accel .awr).accel 0).ops.find? (fun o => o.tag == 9 && o.kind == .awr) = some (aop .awr)
    ∧ ((accel .ard).accel 0).ops.find? (fun o => o.tag == 9 && o.kind == .ard) = some (aop .ard) ∧ (aop .ard).len ≤ (aop .ard).got + 8
    ∧ ((accel .aatom).accel 0).ops.find? (fun o => o.tag == 9 && o.kind == .aatom) = some (aop .aatom)
    ∧ (accel .awr).globalQ ((accel .awr).accOwner 0) 3 = some 3 ∧ (accel .awr).globalC ((accel .awr).accOwner 0) 7 = some 7
    ∧ busy.globalQ (busy.accOwner 0) 1 = some 1 ∧ (busy.queue 1).created = true ∧ busy.globalQ (busy.accOwner 0) 4 = none
    ∧ (base.setKey 0 akey).accelCheck 0 1 0x12 0 65536 = none ∧ (base.setKey 0 akey).accelCheck 0 1 0x10 65535 1 = none
    ∧ (base.setKey 0 akey).markedLines 65535 1 = [] ∧ (base.setKey 0 akey).writeWaits 65535 1 = false ∧ (base.setKey 0 akey).lineLost 0 65536 = false
    ∧ (base.setKey 0 akey).accelCheck 0 1 0x18 65528 8 = none ∧ (base.setKey 0 akey).accelCheck 0 1 0x18 65532 4 = none
    ∧ (base.setKey 0 akey).poolBusy 65528 8 = false
    ∧ ((accel .awr).accel 0).retained.find? (fun r => r.1 == 4) = some (4, 1, amsg 1) ∧ 1 < ((accel .awr).setReg 0x1A0040 0x20000).fld 0x1A0040 16 5 ∧ ((accel .awr).setReg 0x1A0040 0x10000).fld 0x1A0040 16 5 ≤ 1
    ∧ (accel .awr).accPresent 0 = true ∧ ((accel .awr).accel 0).links.all (fun l => !(accel .awr).portUp l.1) = true := by
  and_intros <;> decide +kernel

/-- The same area in a restore that has an undo copy, at the offset after the units. -/
def undone : State := { undoing with journals := [{ journal with st := .restoring, saved := [0] }] }

theorem test_wit_SweepsAndScrubs_undo : undone.protectedBy 262144 = none ∧ undone.undoNeeded 262144 = true := by
  and_intros <;> decide +kernel

def scheduled : State := existing.setReg (page 0 0x1060) 0x40001

theorem test_wit_SchedulingAndRings :
    scheduled.bit (page 0 0x1060) 31 = false ∧ scheduled.globalQ 0 (scheduled.fld (page 0 0x1060) 0 14) = some 1 ∧ (scheduled.queue 1).created = true
    ∧ scheduled.fld (page 0 0x1060) 16 4 ≠ 0 ∧ scheduled.bit (page 0 0x1060) 21 = false ∧ (base.setReg (page 0 0x108C) 2).fld (page 0 0x108C) 1 2 ≤ 1
    ∧ (base.setReg (page 0 0x108C) 1).bit (page 0 0x108C) 0 = true ∧ (base.setReg (page 0 0x190C) 2).fld (page 0 0x190C) 1 2 ≤ 1
    ∧ shaped.bucketsAllow 0 64 = false := by
  and_intros <;> decide +kernel

/-- Monitor 7 of function 0 on, and draining. -/
def monitored (st : Nat) : State := (base.setReg (monReg 0 7 0) 1).setFld (monReg 0 7 0x28) 8 2 st
/-- KEYSLOT_CMD names key slot 1 with a key of n bytes. -/
def slotted (n : Nat) : State := { base.setReg (page 0 0x1340) (BitVec.ofNat 32 (1 + 256 * n)) with kslots := [(1, { a := [1], b := [1] })] }

theorem test_wit_MonitorsAndKeySlots :
    base.monCtlOk 0 7 = true ∧ (base.setReg (monReg 0 7 0) 0x60).monCtlOk 0 7 = false ∧ (monitored 2).bit (monReg 0 7 0) 0 = true
    ∧ (monitored 2).fld (monReg 0 7 0x28) 8 2 = 2 ∧ (monitored 2).mons = [] ∧ ((monitored 2).setFld (monReg 0 7 0x28) 8 2 0).bit (monReg 0 7 0) 2 = false
    ∧ (∀ op ∈ [0, 1, 2], ∀ n ∈ [32, 64], ((slotted n).setFld (page 0 0x1340) 16 2 op).kslotOf 0 (((slotted n).setFld (page 0 0x1340) 16 2 op).fld (page 0 0x1340) 0 8) = some 1
      ∧ ((slotted n).setFld (page 0 0x1340) 16 2 op).kslot 1 ≠ {} ∧ ((slotted n).setFld (page 0 0x1340) 16 2 op).fld (page 0 0x1340) 8 7 = n
      ∧ ((slotted n).setFld (page 0 0x1340) 16 2 op).tagsOn 1 = []) := by
  and_intros <;> decide +kernel

/-- The host reached, and buffers of 8,192 and of 8,193 bytes. -/
def secured (n : Nat) : State := fetching.setReg 0x8010 (BitVec.ofNat 32 n)
/-- An image of 8,193 bytes for component 1. -/
def image : List Byte := List.replicate 6 0 ++ [1] ++ List.replicate 8186 0
/-- A flash whose running management image carries SVN 3. -/
def flashed : State := { base with sec := { base.sec with flash := [{ slotB := false, comp := 2, bytes := List.replicate 8 0 ++ [3] }] } }

theorem test_wit_SecurityCommands :
    base.bit 0x8014 31 = false ∧ base.inRecovery = false ∧ 8192 ≤ ((secured 8192).setFld 0x8014 0 4 0).secLen ∧ (secured 8192).hostReach 0 = true
    ∧ 8193 ≤ (image.take ((secured 8193).setFld 0x8014 0 4 3).secLen).length ∧ hdrNat (image.take 8193) 6 1 = 1
    ∧ (flashed.setFld 0x8014 0 4 4).sec.svn < (flashed.setFld 0x8014 0 4 4).runningSvn := by
  and_intros <;> decide +kernel

theorem test_wit_AliasBits :
    (0xFFFC < 0x10000 ∧ 0xFFFC % 4 = 0 ∧ 31 < 32) ∧ (accMask (fun _ => true) 0x110004).getLsbD 19 = true
    ∧ (accMask (fun _ => true) 0x110004).getLsbD 0 = true := by
  and_intros <;> decide +kernel

theorem test_wit_CommitAndDiscard :
    base.bit 0x100 16 = false ∧ (1 : BitVec 16).toNat = (base.fld 0x100 0 16 + 1) % 2 ^ 16
    ∧ (0 : BitVec 16).toNat = ((base.setReg 0x100 0xFFFF).fld 0x100 0 16 + 1) % 2 ^ 16 ∧ base.staged = []
    ∧ (base.blockChecks base.candidate).all (fun b => b.2.2.2.2.1 == 1) = true ∧ (2 : BitVec 16).toNat ≠ (base.fld 0x100 0 16 + 1) % 2 ^ 16 := by
  and_intros <;> decide +kernel

theorem test_wit_StatusRegistersAndFreezes :
    base.frozen = none ∧ (base.setReg 0x120 1).bit 0x120 0 = true ∧ (seqClear 0x108).isSome = true ∧ (5 : Word) &&& ~~~ accMask (fun _ => true) 0x108 = 0
    ∧ extractBits 5 0 8 = (base.setReg 0x108 0x105).fld 0x108 0 8 ∧ extractBits 4 0 8 ≠ (base.setReg 0x108 0x105).fld 0x108 0 8 := by
  and_intros <;> decide +kernel

def off : State := { base with pwr := { base.pwr with state := .off } }
/-- Standing by, with a wake filter that any frame matches. -/
def asleep : State := { (base.setReg 0x430 (crc32ieee [])).setReg 0x434 1 with pwr := { base.pwr with state := .standby } }
/-- Ready to cast on: phase 3, 100 ms up, no dimension in use. -/
def castable : State := { base.setReg 0x200 0x30300 with time := 100000000 }

theorem test_wit_NodeResets :
    base.pwr.state ≠ .off ∧ off.pwr.state = .off ∧ off.pwr.present = true ∧ off.pwr.latched = false ∧ asleep.pwr.state = .standby
    ∧ asleep.wakeMatches 0 [] = true ∧ (base.setReg 0x200 0).poolReady = false ∧ castable.mayCastOn = true
    ∧ (note 2).subject.toNat ≠ base.self ∧ Tab.get (fun _ => (0 : Word)) base.fseqSeen (noticeCode .castOn * 2 ^ 20 + 2) < (note 2).fseq := by
  and_intros <;> decide +kernel

/-- What the sensors read at a power and at a temperature, the time of a rise having come or not, and under the limits for 100 ms or not. -/
def sensors (pin tj : Nat) (rise under : Bool) : Sensors := { pin, vin := 0, tj, lp := 0, nand := 0, coolOut := 0, riseOk := rise, underHeld := under }
def throttled : State := base.setFld 0x208 10 4 1

theorem test_wit_PowerControl :
    (base.overPower (sensors 700 20 true false) = true ∧ overThermal (sensors 700 100 true false) = true ∧ base.throttle = 0)
    ∧ (throttled.throttle = 1 ∧ throttled.under (sensors 100 20 true true) = true ∧ throttled.overPower (sensors 100 20 true true) = false
      ∧ overThermal (sensors 100 20 true true) = false)
    ∧ throttled.under (sensors 700 20 true true) = false ∧ base.pwr.state = .active ∧ off.pwr.state ≠ .active
    ∧ ({ base with pwr := { base.pwr with offDue := true } } : State).pwr.offDue = true ∧ base.pwr.offDue = false ∧ base.pwr.present = true
    ∧ ({ base with pwr := { base.pwr with present := false } } : State).pwr.present = false := by
  and_intros <;> decide +kernel

/-- A keyed request of an OP with a body, its tag made with the key [1], and the node that holds it. -/
def mreq (op : Nat) (body : List Byte) : MgmtReq :=
  { broadcast := false, version := 1, flags := 0, ctr := 1, body, tag := mgmtTag [1] (mgmtHead 1 op 0 1 body.length 0 ++ body) }
def managed : State := { base with mgt := { base.mgt with key := some [1] } }

theorem test_wit_ManagementPort_forms :
    managed.pwr.state = .active ∧ (mreq 1 []).body = [] ∧ (mreq 1 []).version = 1 ∧ (mreq 1 []).broadcast = false
    ∧ bodyNat (mreq 2 (leBytes 4 0 ++ leBytes 4 256)) 4 = 256 ∧ bar0Ok 0 256 = true
    ∧ bodyNat (mreq 3 (leBytes 4 0 ++ leBytes 4 1 ++ leBytes 4 7)) 4 = 1 ∧ bodyNat (mreq 4 (leBytes 4 bufSize)) 0 + 0 ≤ bufSize
    ∧ ({ managed with mgt := { managed.mgt with open_ := [(0, 1024)] } } : State).isOpen 0 1024 = true
    ∧ bodyNat (mreq 5 (leBytes 4 0 ++ leBytes 4 1024)) 4 = 1024 ∧ (mreq 6 (List.replicate 74 0)).body.length = 74
    ∧ bodyNat (mreq 6 (List.replicate 74 0)) 66 + bodyNat (mreq 6 (List.replicate 74 0)) 70 ≤ bufSize ∧ managed.mayStandby = true := by
  and_intros <;> decide +kernel

/-- Every request of `mreq` is authentic to the node that holds the key. -/
theorem managed_authentic (s : State) (h : s.mgt = managed.mgt) (op : Nat) (body : List Byte) : s.authentic op (mreq op body) = true := by
  have z : base.mgt.ctr = 0 := by decide +kernel
  simp [State.authentic, h, managed, mreq, z]

theorem test_wit_ManagementPort_tags :
    (managed.count 0x200100).authentic 2 (mreq 2 (leBytes 4 0 ++ leBytes 4 256)) = true
    ∧ (managed.count 0x200100).authentic 3 (mreq 3 (leBytes 4 0 ++ leBytes 4 1 ++ leBytes 4 7)) = true
    ∧ (managed.count 0x200100).authentic 4 (mreq 4 (leBytes 4 bufSize)) = true
    ∧ (∀ v, (managed.count 0x200100).authentic 7 (mreq 7 [v]) = true) ∧ (∀ v, managed.authentic 7 (mreq 7 [v]) = true)
    ∧ Machine.MgmtReq.plain (mreq 7 [1]) :=
  ⟨managed_authentic _ (by simp) _ _, managed_authentic _ (by simp) _ _, managed_authentic _ (by simp) _ _,
    fun _ => managed_authentic _ (by simp) _ _, fun _ => managed_authentic _ rfl _ _, by decide⟩

theorem test_wit_ManagementSegment :
    base.pwr.state = .active ∧ (base.setReg 0x408 0x203).bit 0x408 0 = true ∧ (base.setReg 0x408 0x203).fld 0x408 1 8 = 1
    ∧ ({ base with mgt := { base.mgt with plca := 0x203 } } : State).plcaOn = true
    ∧ ({ base with mgt := { base.mgt with plca := 0x203 } } : State).plca 1 8 = 1 ∧ base.fld 0x408 1 8 = 255
    ∧ ({ base with mgt := { base.mgt with wire := some ([], 15) } } : State).mgt.wire = some ([], 15)
    ∧ ({ base with mgt := { base.mgt with wire := some ([], 16) } } : State).mgt.wire = some ([], 16) := by
  and_intros <;> decide +kernel

theorem test_wit_HeaderRoundTrip :
    Machine.Body.fits { hdr with ackpkt := false } (.request req) = true ∧ Machine.Body.fits { hdr with cls := 0 } (.notice .deadNode (note 1)) = true := by
  and_intros <;> decide +kernel

/-- A step that passes an empty queue, one with an empty queue still to come, and a state of canonical form. -/
theorem test_wit_Machine :
    base.pending = [] ∧ base.canonical ∧ safeStep base
    ∧ (match step { base with pending := [.dbPi 0 9 1, .gaugeIdle 5] } with | .next t => t.pending == [.gaugeIdle 5] | _ => false) = true := by
  refine ⟨by decide +kernel, by decide +kernel, ⟨_, rfl⟩, by decide +kernel⟩

theorem test_wit_Arithmetic :
    fval 0x7FC00000 = .nan ∧ (0xBF800000 : Word).getLsbD 31 = true ∧ fval 0xBF800000 ≠ .nan ∧ (0x40400000 : Word).getLsbD 31 = false
    ∧ fval 0x40400000 ≠ .nan ∧ (2 ^ 63 : Int) ≤ (0x7FFFFFFFFFFFFFFF : DWord).toInt + (1 : DWord).toInt
    ∧ (0x8000000000000000 : DWord).toInt + (-1 : DWord).toInt < -(2 : Int) ^ 63 := by
  and_intros <;> decide +kernel

theorem test_wit_FunctionWideReset :
    (held nop).queuesOf 0 = [0] ∧ (0 : Nat) ∈ (held nop).queuesOf 0 := by
  and_intros <;> decide +kernel

/-! ## Well-formedness: one ill-formed command for each check -/

theorem test_wf_refuses :
    okPort 36 = false ∧ okPort 35 = true ∧ okFunc 256 = false ∧ okFunc 255 = true ∧ okQueue 16384 = false ∧ okQueue 16383 = true
    ∧ okCounter 32768 = false ∧ okCounter 32767 = true ∧ okAccel 4 = false ∧ okAccel 3 = true ∧ okLine 4194304 = false ∧ okLine 4194303 = true
    ∧ okTag 16384 = false ∧ okTag 16383 = true ∧ okPage 11 = false ∧ okPage 12 = true ∧ okPage 31 = false ∧ okPage 30 = true
    ∧ okSlot (.head []) = false ∧ okSlot (.body []) = false ∧ okSlot (.ctrl []) = false ∧ okSlot .idle = true
    ∧ okCodeword { lanes := List.replicate 17 [] } = false ∧ okCodeword { lanes := [List.replicate 1361 0] } = false ∧ okCodeword zeroWord = true
    ∧ okMeasure { bits := 1, errors := List.replicate 17 0, worst := [] } = false ∧ okMeasure { bits := 1, errors := [], worst := List.replicate 5 none } = false
    ∧ okMeasure { bits := 1, errors := [], worst := [some 16] } = false ∧ okMeasure { bits := 1, errors := List.replicate 16 0, worst := [some 15] } = true
    ∧ okPayload hdr [] = true ∧ okPayload { hdr with plen := 1 } [] = false ∧ okPayload { hdr with plen := 4097 } (List.replicate 4097 0) = false := by
  and_intros <;> decide +kernel

theorem test_wf_refuses_commands :
    (Instr.put 16384).wellFormed = false ∧ (Instr.tag 16384 .none).wellFormed = false ∧ (Instr.queueQuery 256 0).wellFormed = false
    ∧ (Instr.queueCreate 0 16384 true).wellFormed = false ∧ (Instr.dbPi 0 16384 0).wellFormed = false ∧ (Instr.staleEntry 16384).wellFormed = false
    ∧ (Instr.cntAdd 0 32768 .whole 0).wellFormed = false ∧ (Instr.flr 256).wellFormed = false ∧ (Instr.keyQuery 256).wellFormed = false
    ∧ (Instr.keyDrained 1048576).wellFormed = false ∧ (Instr.lockLost 36).wellFormed = false ∧ (Instr.codewordRx 0 { lanes := List.replicate 17 [] }).wellFormed = false
    ∧ (Instr.swatchPhase 0 { bits := 1, errors := [], worst := [some 16] }).wellFormed = false
    ∧ (Instr.credit 0 (List.replicate 11 { cls := 0, vc := 0, freed := 0 })).wellFormed = false ∧ (Instr.slotFinish 4096).wellFormed = false
    ∧ (Instr.telemetrySample (List.replicate 33 0)).wellFormed = false ∧ (Instr.translationAnswer 0 0 0 (.translation 0 11 true)).wellFormed = false
    ∧ (Instr.atsInvalidate 0 0 0 65 0).wellFormed = false ∧ (Instr.hostReadCompletion 0 (List.replicate 4097 0)).wellFormed = false
    ∧ (Instr.windowWrite 0 []).wellFormed = false ∧ (Instr.birsp 0 (some [])).wellFormed = false ∧ (Instr.monEnable 0 8 true).wellFormed = false
    ∧ (Instr.placeRsp 4 0 .ok).wellFormed = false ∧ (Instr.lrd 0 0 0 0 0).wellFormed = false ∧ (Instr.lwr 0 0 0 0 []).wellFormed = false
    ∧ (Instr.poolScrub 0xC000000000 .clean).wellFormed = false := by
  and_intros <;> decide +kernel

/-! ## Small tests: each expected value is the spec's own -/

/-- The check value of CRC32C: the nine ASCII digits give 0xE3069283. -/
theorem test_crc32c : crc32c (ascii "123456789") = 0xE3069283 := by decide +kernel

/-- SHA3-512 of "abc" begins B751850B (FIPS 202). -/
theorem test_sha3 : (sha3_512 (ascii "abc")).take 4 = [0xB7, 0x51, 0x85, 0x0B] := by decide +kernel

/-- The first eight bytes of a header, written out by hand from R230's bit places: DST 5, SRC 9, CLASS 4, VC 1, VDIM 7, VCOORD 3, VPHASE 1, HOPS 2. -/
theorem test_header_bits :
    (let h := parseHdr ([0x05, 0x00, 0x90, 0x00, 0x00, 0xEC, 0x13, 0x02] ++ List.replicate 56 0)
     (h.dst, h.src, h.cls, h.vc) = (5, 9, 4, 1) ∧ (h.vdim, h.vcoord, h.vphase, h.ce, h.ackpkt, h.hops) = (7, 3, true, false, false, 2)) := by
  decide +kernel

/-- A request's fields, written out by hand from R270 and R271: KIND 1 at byte 32, OPCODE 0x10 at byte 33, IQUEUE 0x1234 and PLACED at bytes 34 and 35, KEY 7 at byte 48, FETCH at byte 55. -/
theorem test_request_bytes :
    parseBody hdr (List.replicate 32 0 ++ [1, 0x10, 0x34, 0x52] ++ List.replicate 12 0 ++ [7] ++ List.replicate 6 0 ++ [2] ++ List.replicate 8 0)
      = some (.request { req with opcode := 0x10, iqueue := 0x1234, placed := true, key := 7, size := false, fetch := true }) := by
  decide +kernel

/-- The spec's own example after R415: with WIN = 4, alias 0x0080A014 is bit 5 of 0x00140140. -/
theorem test_alias_example : (base.setReg 0x110 4).aliasOf 0x80A014 = some (0x140140, 5) := by decide +kernel

/-- COUNT advances modulo 2^63 and ERR stays. -/
theorem test_row_counter_wraps : rowAdd 0xFFFFFFFFFFFFFFFF 1 = 0x8000000000000000 := by decide +kernel

/-- SUM on integers saturates (R197). -/
theorem test_sum_saturates : (opElem true 0 0x7FFFFFFFFFFFFFFF 1).1 = 0x7FFFFFFFFFFFFFFF := by decide +kernel

/-- A doorbell to a queue that does not exist is counted (R101). -/
theorem test_doorbell_to_no_queue : (match exec (.dbPi 0 9 1) base with | .next t => t.counter (page 0 0x2008) == 1 | _ => false) = true := by decide +kernel

/-- A write to a counter outside the grant is counted (R107): the grant is 8. -/
theorem test_counter_outside_grant : (match exec (.cntWrite 0 8 .whole 7) base with | .next t => t.counter (page 0 0x2010) == 1 && t.rowc 8 == 0 | _ => false) = true := by
  decide +kernel

/-- A management IDENT in STANDBY is not answered (R456). -/
theorem test_nothing_served_asleep : (match exec (.ident (mreq 1 [])) asleep with | .next t => t.mgt.tx.isEmpty | _ => false) = true := by decide +kernel

/-- R288 by hand: off 0x40_0000_9A40 has bits [12:8] = 0b11010 and bits [17:13] = 0b00100, so channel 30 of package 7, at local offset 0x2_0000_0440. -/
theorem test_pool_channel : (poolChannel 0x4000009A40, poolPackage 30, poolLocal 0x4000009A40) = (30, 7, 0x200000440)
    ∧ poolOffset 30 0x200000440 = 0x4000009A40 := by decide

/-- R253 by hand: a header whose slots 0 to 3 are IDLE, HEAD, BODY and CTRL begins with the bits 0b11100100. -/
theorem test_slot_types : messageOf [.idle, .head [], .body [], .ctrl []] = 0xE4 := by decide +kernel

/-- R251: a word with one symbol in error is put right. -/
theorem test_one_symbol : rsDecode (List.replicate 543 0 ++ [5]) = some (1, List.replicate 514 0) := by decide +kernel

end Sys2Proof.Tests
end

section
/-! PROOFS. The register accessors: what a read returns after a write of a whole register or of one of its fields, and what the write leaves. -/

namespace Sys2Proof.Machine

/-- A field write leaves the bits below and above the field. -/
theorem State.getLsbD_reg_setFld_outside (s : State) {a lo w v k : Nat} (hk : k < 32) (hout : k < lo ∨ lo + w ≤ k) :
    ((s.setFld a lo w v).reg a).getLsbD k = (s.reg a).getLsbD k := by
  have hnot : ¬(lo ≤ k ∧ k < lo + w) := by omega
  rw [State.reg_setFld, if_pos rfl, insertBits_getLsbD _ _ _ _ _ hk, if_neg hnot]

/-- Settles O8: a whole register by reading the sparse table after a write, a field by the bits of the word it was inserted into. (R5, R408) -/
theorem registerReadAfterWrite : Obligations.RegisterReadAfterWrite := by
  intro s a
  refine ⟨fun v => ⟨?same, fun b hb => ?other⟩, fun lo w v hw => ⟨?field, fun k hk hout => ?bits⟩⟩
  case same => rw [State.reg_setReg, if_pos rfl]
  case other => rw [State.reg_setReg, if_neg hb]
  case field => exact s.fld_setFld a lo w v hw
  case bits => exact s.getLsbD_reg_setFld_outside hk hout

end Sys2Proof.Machine
end

section
/-! PROOFS. The host link's commands: one write to every function's entry, and the link's status register (R346, R360, R371). -/

namespace Sys2Proof.Machine

/-- The entries of functions 0 to n - 1 rewritten in turn, each by g. -/
def State.setFuncs (s : State) (n : Nat) (g : Func → Func) : State := (List.range n).foldl (fun u f => u.setFunc f (g (u.func f))) s

theorem State.setFuncs_succ (s : State) (n : Nat) (g : Func → Func) :
    s.setFuncs (n + 1) g = (s.setFuncs n g).setFunc n (g ((s.setFuncs n g).func n)) := by
  simp [State.setFuncs, List.range_succ]

@[simp] theorem State.func_setFuncs (s : State) (n : Nat) (g : Func → Func) (k : Nat) :
    (s.setFuncs n g).func k = if k < n then g (s.func k) else s.func k := by
  induction n generalizing k with
  | zero => rfl
  | succ n ih =>
    rw [State.setFuncs_succ, State.func_setFunc]
    by_cases hk : k = n
    · simp [hk, ih]
    · have hlt : k < n + 1 ↔ k < n := by omega
      simp [hk, ih, hlt]

/-- Only the functions' entries change. -/
theorem State.setFuncs_frame (s : State) (n : Nat) (g : Func → Func) : ∃ fs, s.setFuncs n g = { s with funcs := fs } := by
  induction n with
  | zero => exact ⟨s.funcs, rfl⟩
  | succ n ih =>
    obtain ⟨fs, ih⟩ := ih
    exact ⟨_, by rw [State.setFuncs_succ, ih]; rfl⟩

@[simp] theorem State.fld_setFuncs (s : State) (n : Nat) (g : Func → Func) (a lo w : Nat) : (s.setFuncs n g).fld a lo w = s.fld a lo w := by
  obtain ⟨fs, h⟩ := s.setFuncs_frame n g
  rw [h]; rfl

/-- A field write to a state that differs from s in its registers leaves one that does. -/
theorem State.setFld_of_regs {s u : State} (h : ∃ rs, u = { s with regs := rs }) (a lo w v : Nat) :
    ∃ rs, u.setFld a lo w v = { s with regs := rs } := by
  obtain ⟨rs, rfl⟩ := h
  exact ⟨_, rfl⟩

/-- Writing the entries of functions in a state that differs from s in its registers changes nothing else of s. -/
theorem State.setFuncs_frame_of_regs {s u : State} (h : ∃ rs, u = { s with regs := rs }) (n : Nat) (g : Func → Func) :
    { u.setFuncs n g with funcs := s.funcs, regs := s.regs } = s := by
  obtain ⟨rs, rfl⟩ := h
  obtain ⟨fs, hfs⟩ := State.setFuncs_frame { s with regs := rs } n g
  rw [hfs]

/-- What a function keeps when the host link is lost: its configuration space is gone (log entry 18). -/
def Func.linkLost (x : Func) : Func := { x with vfEnabled := false, busMaster := false, ats := false, pri := false }

/-- A function as the host has enumerated it (log entry 6). -/
def Func.enumerated (cxl : Bool) (x : Func) : Func := { x with ats := cxl, pri := cxl, priStopped := false }

/-- The CXL protocols run at 32 and 64 GT/s (R346). -/
def cxlRate (rate : BitVec 3) : Bool := decide (rate.toNat = 5 ∨ rate.toNat = 6)

/-- RATE, WIDTH and CXL of the host link's status register (R371). -/
def State.showLink (s : State) (rate : BitVec 3) (width : BitVec 5) : State :=
  ((s.setFld 0x190000 8 3 rate.toNat).setFld 0x190000 11 5 width.toNat).setFld 0x190000 16 1 (if cxlRate rate then 1 else 0)

theorem State.showLink_frame (s : State) (rate : BitVec 3) (width : BitVec 5) : ∃ rs, s.showLink rate width = { s with regs := rs } :=
  State.setFld_of_regs (State.setFld_of_regs (State.setFld_of_regs ⟨s.regs, rfl⟩ _ _ _ _) _ _ _ _) _ _ _ _

/-- The register as a link of this rate and width leaves it: three fields that do not overlap. -/
theorem State.showLink_fields (s : State) (rate : BitVec 3) (width : BitVec 5) :
    (s.showLink rate width).fld 0x190000 8 3 = rate.toNat ∧ (s.showLink rate width).fld 0x190000 11 5 = width.toNat
    ∧ (s.showLink rate width).bit 0x190000 16 = cxlRate rate := by
  refine ⟨?rate, ?width, ?cxl⟩
  case rate =>
    rw [State.showLink, State.fld_setFld_other _ _ _ _ _ _ _ (by omega) (by omega), State.fld_setFld_other _ _ _ _ _ _ _ (by omega) (by omega),
      State.fld_setFld _ _ _ _ _ (by omega), Nat.mod_eq_of_lt rate.isLt]
  case width =>
    rw [State.showLink, State.fld_setFld_other _ _ _ _ _ _ _ (by omega) (by omega), State.fld_setFld _ _ _ _ _ (by omega),
      Nat.mod_eq_of_lt width.isLt]
  case cxl =>
    rw [State.bit, State.showLink, State.fld_setFld _ _ _ _ _ (by omega)]
    cases cxlRate rate <;> rfl

/-- The host link's status register with the link down: no rate, no width, no CXL, and the event told (R371). -/
def State.showDown (s : State) (ev : LinkDownEvent) : State :=
  ((((s.setFld 0x190000 8 3 0).setFld 0x190000 11 5 0).setFld 0x190000 16 1 0).setFld 0x190000 18 4 (linkEvent ev)).bumpSeq 0x190000

/-- The loss of the link resets the host domain, and then every function's configuration space goes (R360, R440). -/
theorem exec_hostLinkDown (s : State) (ev : LinkDownEvent) :
    exec (.hostLinkDown ev) s
      = .next (((((s.showDown ev).count 0x240008).hostDomainReset 6 stHostLost).setFuncs 256 Func.linkLost).settle.retryLatoms) := rfl

theorem exec_hostRetrain (s : State) (b : Bool) (rate : BitVec 3) (width : BitVec 5) :
    exec (.hostRetrain b rate width) s
      = .next (((((s.showLink rate width).setFld 0x190000 18 4 (if b then 6 else 1)).bumpSeq 0x190000).count 0x240000).settle) := by
  simp only [exec, execHostRetrain, State.showLink, cxlRate, decide_eq_true_eq]

/-- Where the strap HOST_DIS_N leaves the link enabled, it comes up and the host enumerates all 256 functions (R361, R469). -/
theorem exec_hostLinkUp (s : State) (rate : BitVec 3) (width : BitVec 5) (h : (s.showLink rate width).bit 0x610 9 = true) :
    exec (.hostLinkUp rate width) s
      = .next (((s.showLink rate width).setFld 0x208 4 1 1).setFuncs 256 (Func.enumerated (cxlRate rate))) := by
  have hstrap : ((s.showLink rate width).setFld 0x208 4 1 1).bit 0x610 9 = true := by
    rw [State.bit, State.fld_setFld_ne _ _ _ _ _ _ _ _ (by decide)]; exact h
  change Host.Outcome.next (if !((s.showLink rate width).setFld 0x208 4 1 1).bit 0x610 9 then s else _) = _
  rw [hstrap]
  rfl

/-- Bus Master Enable set: the function masters the bus, and a virtual one is enabled, which RECOVERY refuses (R360, R401). -/
theorem exec_busMasterEnableSet (s : State) (f : Nat) (h : f = 0 ∨ s.bit 0x8000 0 = false) :
    exec (.busMasterEnableSet f) s = .next (s.setFunc f { s.func f with busMaster := true, vfEnabled := f != 0 }).settle := by
  have hgate : (f != 0 && s.bit 0x8000 0) = false := by
    rcases h with h | h <;> simp [h]
  simp [exec, execBusMasterEnableSet, hgate]

/-- Settles O27: a link that comes up or goes down writes the entry of each of the 256 functions once, after its registers.
(R346, R355, R360, R361, R371, R440) -/
theorem hostLinkCommands : Obligations.HostLinkCommands := by
  intro s f ev rate width told cxl up
  refine ⟨?cxlReset, ?down, ?retrain, ?linkUp, ?clear, ?setPhysical, ?setVirtual⟩
  case cxlReset => rfl
  case down =>
    refine ⟨_, exec_hostLinkDown s ev, fun k hk => ?_⟩
    rw [State.func_setFuncs, if_pos hk]
    exact ⟨rfl, rfl, rfl, rfl⟩
  case retrain => exact fun b => exec_hostRetrain s b rate width
  case linkUp =>
    intro hstrap
    obtain ⟨hrate, hwidth, hcxl⟩ := s.showLink_fields rate width
    have hpll : ∀ lo w, ((s.showLink rate width).setFld 0x208 4 1 1).fld 0x190000 lo w = (s.showLink rate width).fld 0x190000 lo w :=
      fun lo w => State.fld_setFld_ne _ _ _ _ _ _ _ _ (by decide)
    refine ⟨_, exec_hostLinkUp s rate width hstrap, ?frame, ?rate, ?width, ?cxl, fun k hk => ?ats⟩
    case frame => exact State.setFuncs_frame_of_regs (State.setFld_of_regs (s.showLink_frame rate width) _ _ _ _) _ _
    case rate => rw [State.fld_setFuncs, hpll, hrate]
    case width => rw [State.fld_setFuncs, hpll, hwidth]
    case cxl => rw [State.bit, State.fld_setFuncs, hpll]; exact hcxl
    case ats => rw [State.func_setFuncs, if_pos hk]; exact ⟨rfl, rfl⟩
  case clear => rfl
  case setPhysical =>
    rintro rfl
    exact exec_busMasterEnableSet s 0 (.inl rfl)
  case setVirtual =>
    intro hf hrecovery
    have hvirtual : (f != 0) = true := bne_iff_ne.2 hf
    rw [exec_busMasterEnableSet s f (.inr hrecovery), hvirtual]

end Sys2Proof.Machine
end

section
/-! PROOFS. Binding off and losing nodes: the conditions under which a node is declared lost and a DEAD_NODE notice is passed on (R299 to R304). -/

namespace Sys2Proof.Machine

/-- A node whose every link in its confirming dimension is down is declared lost by a neighbour in that dimension alone (R301). -/
theorem exec_deadConfirm (s : State) (x : BitVec 20) (d : Nat) (hdim : s.confirmDim x.toNat = some d) (hdiff : s.diff s.self x.toNat = [d])
    (hdown : s.allDown x.toNat d = true) (hbound : s.boundOff = false) (hself : x.toNat ≠ s.self) :
    exec (.deadConfirm x) s = .next (s.declareLost x.toNat 1) := by
  simp [exec, execDeadConfirm, hdim, hdiff, hdown, hbound, hself]

/-- A DEAD_NODE notice that is taken, with a REASON that is not reserved, goes on and is acted on (R301, R302). -/
theorem exec_deadNode (s : State) (p : Nat) (h : Hdr) (n : NoticeF) (hreason : n.reason = 1 ∨ n.reason = 2) :
    let a := s.consume { hdr := h, body := .notice .deadNode n, payload := [] }
    a.boundOff = false → a.isLost h.src.toNat = false → h.src.toNat ≠ a.self → a.noticeFresh .deadNode h.src n = true →
      exec (.deadNode p h n) s = .next (((a.noteFseq .deadNode h.src n).forwardNotice p .deadNode h n).actLost n.subject.toNat).settle := by
  intro a hbound hlost hself hfresh
  have hgood : (n.reason != 1 && n.reason != 2) = false := by
    rcases hreason with h | h <;> simp [h]
  have htake := fun k => (s.takeNotice_spec .deadNode h n k).2.2 hbound hlost hself hfresh
  simp only [exec, execDeadNode, htake, hgood, Bool.false_eq_true, if_false, a]

/-- A node that learns of its own loss binds off with cause DECLARED_LOST (R304). -/
theorem State.actLost_self (s : State) (h : s.lost.contains s.self = false) : s.actLost s.self = s.bindOff 5 := by
  rw [State.actLost, h]
  simp

/-- Settles O41: each command in the one branch of its meaning that its hypotheses select. (R28, R299, R300, R301, R302, R304, R342, R432) -/
theorem losingNodes : Obligations.LosingNodes := by
  intro s
  refine ⟨?clean, ?corrected, ?disagree, ?retire, ?watchdog, ?clock, ?squelch, ?confirm, ?notice, ?own⟩
  case clean => rfl
  case corrected => exact fun st b => rfl
  case disagree => exact fun st => rfl
  case retire => exact congrArg Host.Outcome.next (if_pos ⟨rfl, rfl⟩)
  case watchdog => rfl
  case clock => rfl
  case squelch =>
    intro hbound
    simp only [exec, execBindOffSquelch, hbound, if_true]
  case confirm => exact fun x d => exec_deadConfirm s x d
  case notice => exact fun p h n hbound hlost hself hfresh hreason => exec_deadNode s p h n hreason hbound hlost hself hfresh
  case own => exact s.actLost_self

end Sys2Proof.Machine
end

section
/-! PROOFS. The starts of instructions: what the gates of a start do where nothing is amiss, and the run that a start leaves (R47, R130, R378). -/

namespace Sys2Proof.Machine

open Host (Outcome)

/-! ## The gates of a start -/

@[simp] theorem State.chargeStartIf_false (s : State) (g : Nat) : s.chargeStartIf false g = s := rfl

@[simp] theorem State.chargeStartIf_true (s : State) (g : Nat) : s.chargeStartIf true g = s.chargeStart g := rfl

/-- An entry with nothing malformed in it is not rejected (R47). -/
theorem State.orMalformed_sound (s : State) (r : Run) {ds : List Nat} (k : State → State) (h : lowestDetail ds = none) :
    s.orMalformed r ds k = k s := by
  simp [State.orMalformed, h]

theorem State.orRejected_sound (s : State) (r : Run) {ds : List Nat} (k : State → State) (h : lowestDetail ds = none) :
    s.orRejected r ds k = k s := by
  rw [State.orRejected, State.orMalformed_sound _ _ _ h, h]
  rfl

/-- Operands with valid local keys pass their check (R130). -/
theorem State.orLocalFail_valid (s : State) (r : Run) {os : List Opnd} (k : State → State) (h : s.localFail (s.ownerOf r.g) os = none) :
    s.orLocalFail r os k = k s := by
  simp [State.orLocalFail, h]

theorem State.orKeyFail_valid (s : State) (r : Run) {os : List Opnd} (k : State → State) (h : s.localFail (s.ownerOf r.g) os = none) :
    s.orKeyFail r os k = k s := by
  rw [State.orKeyFail, h]
  exact s.orLocalFail_valid r k h

theorem State.orMapFail_valid (s : State) (r : Run) {os : List Opnd} (k : State → State) (h : s.localFail (s.ownerOf r.g) os = none) :
    s.orMapFail r os k = k s := by
  rw [State.orMapFail, h]
  exact s.orLocalFail_valid r k h

/-- The instruction that is next on its queue starts, and the node settles (R42, R44, R106). -/
theorem State.startOp_settles {s : State} {g : Nat} {op : BitVec 8} {why : State → Run → List Nat} {extra : State → Fetched → Bool}
    {k : State → Run → State} {i : Fetched} {iter : Nat} {t : State} (h : s.startable g op i iter) (hx : extra s i = true)
    (hk : k (s.started g i iter) (s.newRun g i iter) = t) :
    (Outcome.next (s.startOp g op why extra k).settle : Outcome State Fault Refusal) = .next t.settle := by
  rw [s.startOp_spec g op why extra k i iter h hx, hk]

end Sys2Proof.Machine
end

section
/-! PROOFS. NOP, FENCE and the data-movement instructions: what each does at its start (R50 to R55, R63, R136). -/

namespace Sys2Proof.Machine

theorem State.startNop_sound (s : State) (r : Run) (h : lowestDetail (s.nopReasons r) = none) : s.startNop r = (s.chargeStart r.g).completeWith r stOk := by
  rw [State.startNop, State.orMalformed_sound _ _ _ h]

/-- A FENCE may start once no earlier instruction of its queue is incomplete (R63). -/
theorem fenceReady_of_earlier {s : State} {g : Nat} (i : Fetched) (h : (s.earlier g).isEmpty = true) : fenceReady s g i = true := by
  rw [fenceReady, h, Bool.or_true]

/-- FENCE with KIND 0 completes, with KIND 1 it asks the nodes whose placements are not known (R63). -/
theorem State.startFence_sound (s : State) (r : Run) (h : lowestDetail (s.fenceReasons r) = none) :
    (entOpx r.ins.w 0 1 = 0 → s.startFence r = (s.chargeStart r.g).completeWith r stOk)
    ∧ (entOpx r.ins.w 0 1 = 1 → s.startFence r = ((s.chargeStart r.g).unplacedNodes r.g).foldl (fun u n => u.askPlacement r.g (some r.rid) n)
      ((s.chargeStart r.g).setRun { r with
        phase := .requests, asks := (s.chargeStart r.g).unplacedNodes r.g, reached := (s.chargeStart r.g).unplacedNodes r.g })) := by
  constructor <;> intro hkind
  · rw [State.startFence, State.orMalformed_sound _ _ _ h, if_pos hkind]
  · rw [State.startFence, State.orMalformed_sound _ _ _ h, if_neg (by omega)]

/-- Settles O11: no gate stops a well-formed NOP or FENCE, so each acts as its start says. (R44, R50, R63) -/
theorem nopAndFenceComplete : Obligations.NopAndFenceComplete := by
  refine ⟨?nop, ?kind0, ?kind1⟩
  case nop => exact fun s g i iter hs hw => State.startOp_settles hs rfl (State.startNop_sound _ _ hw)
  case kind0 =>
    exact fun s g i iter hs hearlier hkind hw => State.startOp_settles hs (fenceReady_of_earlier i hearlier) ((State.startFence_sound _ _ hw).1 hkind)
  case kind1 =>
    exact fun s g i iter hs hearlier hkind hw => State.startOp_settles hs (fenceReady_of_earlier i hearlier) ((State.startFence_sound _ _ hw).2 hkind)

/-- PUT with LEN 0 completes at once; any other reads its source (R51, R52). -/
theorem State.startPut_sound (s : State) (r : Run) (h : lowestDetail (s.moveReasons r) = none) :
    let o := moveOpnd r.ins.w
    let d := s.readOpnd (s.ownerOf r.g) (qPasid (s.queue r.g).desc) o (.run r.rid 0)
    (o.len = 0 → s.startPut r = (s.chargeStart r.g).completeWith r stOk)
    ∧ (o.len ≠ 0 → s.localFail (s.ownerOf r.g) [o] = none → s.startPut r = d.2.2.setRun { r with phase := .reading, bufs := [(o, d.1, d.2.1)] }) := by
  intro o d
  rw [State.startPut, State.orRejected_sound _ _ _ h]
  exact ⟨fun hlen => if_pos hlen, fun hlen hkey => (if_neg hlen).trans (State.orKeyFail_valid _ _ _ hkey)⟩

/-- GET with LEN 0 completes at once; any other names its destination and has its requests to send (R51, R53, R136). -/
theorem State.startGet_sound (s : State) (r : Run) (h : lowestDetail (s.moveReasons r) = none) :
    let o := moveOpnd r.ins.w
    (o.len = 0 → s.startGet r = (s.chargeStart r.g).completeWith r stOk)
    ∧ (o.len ≠ 0 → s.localFail (s.ownerOf r.g) [o] = none → s.startGet r = s.setRun { r with
        bufs := [(o, List.replicate o.len 0, 0)], unsent := getPackets r (entQ1 r.ins.w) (entW1 r.ins.w) o.len }) := by
  intro o
  rw [State.startGet, State.orRejected_sound _ _ _ h]
  exact ⟨fun hlen => if_pos hlen, fun hlen hkey => (if_neg hlen).trans (State.orKeyFail_valid _ _ _ hkey)⟩

theorem State.startPuti_sound (s : State) (r : Run) (h : lowestDetail (s.putiReasons r) = none) :
    let n := entOpx r.ins.w 0 7
    s.startPuti r = s.setRun { r with unsent := [onePacket (r.req 0x11 (entQ1 r.ins.w) (entW1 r.ins.w) 0) ((putiBytes r.ins).take n) n] } :=
  State.orRejected_sound _ _ _ h

/-- COPY waits for the grants of its pieces before it reads (R55; log entry 76). -/
theorem State.startCopy_sound (s : State) (r : Run) (h : lowestDetail (s.copyReasons r) = none) (hlen : entBytes r.ins.w 28 4 ≠ 0)
    (hkey : s.localFail (s.ownerOf r.g) [copyDst r.ins.w, copySrc r.ins.w] = none) :
    s.startCopy r = s.setRun { r with phase := .granting, aux := 0, bufs := [(copySrc r.ins.w, [], 0), (copyDst r.ins.w, [], 0)] } := by
  rw [State.startCopy, State.orRejected_sound _ _ _ h]
  exact (if_neg hlen).trans (State.orKeyFail_valid _ _ _ hkey)

/-- The next piece of a COPY: granted where its buckets allow it, and held where they do not; after the last one the source is read (R378, R381). -/
theorem State.grantPiece_spec (s : State) (r : Run) :
    let len := entBytes r.ins.w 28 4
    let n := min 4096 (len - r.aux)
    let d := s.readOpnd (s.ownerOf r.g) (qPasid (s.queue r.g).desc) (copySrc r.ins.w) (.run r.rid 0)
    (r.aux < len → s.bucketsAllow r.g (64 + n) = true →
      s.grantPiece r = some ((s.chargeGrant r.g (64 + n)).setRun { r with aux := r.aux + n }))
    ∧ (r.aux < len → s.bucketsAllow r.g (64 + n) = false → s.grantPiece r = none)
    ∧ (len ≤ r.aux → s.grantPiece r = some
      (d.2.2.setRun { r with phase := .reading, bufs := [(copySrc r.ins.w, d.1, d.2.1), (copyDst r.ins.w, [], 0)] })) := by
  intro len n d
  refine ⟨fun hmore hroom => ?granted, fun hmore hroom => ?held, fun hall => ?read⟩
  case granted => exact (if_neg (Nat.not_le.2 hmore)).trans (if_pos hroom)
  case held => exact (if_neg (Nat.not_le.2 hmore)).trans (if_neg (Bool.not_eq_true _ ▸ hroom))
  case read => exact if_pos hall

/-- Settles O12: each start passes its gates, and a COPY that waits for grants takes its next piece.
(R48, R49, R51 to R55, R130, R136, R378, R381) -/
theorem movesStart : Obligations.MovesStart := by
  refine ⟨⟨?put, ?get, ?puti, ?copy, ?piece⟩, ?putEmpty, ?getEmpty⟩
  case put => exact fun s g i iter hs hw hlen hkey => State.startOp_settles hs rfl ((State.startPut_sound _ _ hw).2 hlen hkey)
  case get => exact fun s g i iter hs hw hlen hkey => State.startOp_settles hs rfl ((State.startGet_sound _ _ hw).2 hlen hkey)
  case puti => exact fun s g i iter hs hw => State.startOp_settles hs rfl (State.startPuti_sound _ _ hw)
  case copy => exact fun s g i iter hs hw hlen hkey => State.startOp_settles hs rfl (State.startCopy_sound _ _ hw hlen hkey)
  case piece =>
    intro s r hphase
    have hadvance : s.advanceMove r = s.grantPiece r := by simp only [State.advanceMove, hphase]
    rw [hadvance]
    exact s.grantPiece_spec r
  case putEmpty => exact fun s g i iter hs hw hlen => State.startOp_settles hs rfl ((State.startPut_sound _ _ hw).1 hlen)
  case getEmpty => exact fun s g i iter hs hw hlen => State.startOp_settles hs rfl ((State.startGet_sound _ _ hw).1 hlen)

end Sys2Proof.Machine
end

section
/-! PROOFS. Atomics, SIGNAL, MARK, WAIT, FLUSH and REPEAT: what each does at its start (R56 to R62, R64 to R66). -/

namespace Sys2Proof.Machine

/-- An atomic has one request with its operands of 8 B each (R57 to R59, R271). -/
theorem State.startAtomic_sound (s : State) (r : Run) (cas : Bool) (h : lowestDetail (State.atomicReasons cas s r) = none) :
    let size := entOpx r.ins.w 0 1 == 1
    s.startAtomic r cas = s.setRun { r with unsent := [onePacket
      { r.req (if cas then 0x19 else 0x18) (entQ1 r.ins.w) (entW1 r.ins.w) 0 with size := size, fetch := entOpx r.ins.w 1 1 == 1 }
      (leBytes 8 (ent64 r.ins.w 16).toNat ++ if cas then leBytes 8 (ent64 r.ins.w 24).toNat else []) (if size then 8 else 4)] } :=
  State.orRejected_sound _ _ _ h

/-- Settles O13: FADD carries one operand and CAS two. (R49, R57, R58, R59, R271) -/
theorem atomicsStart : Obligations.AtomicsStart := by
  refine ⟨fun s g i iter hs => ?fadd, fun s g i iter hs => ?cas⟩
  case fadd =>
    intro u r size hw
    have hstart := u.startAtomic_sound r false hw
    rw [if_neg (by decide), if_neg (by decide), List.append_nil] at hstart
    exact State.startOp_settles hs rfl hstart
  case cas => exact fun hw => State.startOp_settles hs rfl (State.startAtomic_sound _ _ true hw)

/-- A local SIGNAL names a counter of its function's grant (R61). -/
abbrev State.signalGranted (s : State) (r : Run) : Prop :=
  raForm (entQ1 r.ins.w) = 3 → (s.globalC (s.ownerOf r.g) (entOpx r.ins.w 0 15)).isSome = true

/-- SIGNAL, well formed and on a counter of the grant: with PLACED it waits for the writes that it covers, without it a local one is applied and a
remote one has its packet to send (R61). -/
theorem State.startSignal_sound (s : State) (r : Run) (h : lowestDetail (s.signalReasons r) = none) (hc : s.signalGranted r) :
    let loc := raForm (entQ1 r.ins.w) == 3
    (r.ins.w.getLsbD 192 = true → s.startSignal r = (s.chargeStartIf loc r.g).setRun { r with
      phase := .covered, covers := s.covered r.g r.rid r.comm (some (entQ1 r.ins.w)), reached := if loc then s.unconfirmed r.g (some s.self) else [] })
    ∧ (r.ins.w.getLsbD 192 = false → raForm (entQ1 r.ins.w) = 3 → s.startSignal r = (s.chargeStart r.g).signalLocal r)
    ∧ (r.ins.w.getLsbD 192 = false → raForm (entQ1 r.ins.w) ≠ 3 →
      s.startSignal r = s.setRun { r with unsent := [onePacket (signalReq r) (leBytes 8 (ent64 r.ins.w 16).toNat) 8] }) := by
  intro loc
  have hgate : (raForm (entQ1 r.ins.w) == 3 && (s.globalC (s.ownerOf r.g) (entOpx r.ins.w 0 15)).isNone) = false := by
    by_cases hloc : raForm (entQ1 r.ins.w) = 3
    · simp [Option.isNone_eq_false_iff.2 (hc hloc)]
    · simp [hloc]
  rw [State.startSignal, State.orRejected_sound _ _ _ h]
  simp only [hgate, Bool.false_eq_true, if_false]
  refine ⟨fun hplaced => if_pos hplaced, fun hplaced hloc => ?applied, fun hplaced hloc => ?sent⟩
  case applied => exact (if_neg (Bool.eq_false_iff.1 hplaced)).trans (if_pos (beq_iff_eq.2 hloc))
  case sent => exact (if_neg (Bool.eq_false_iff.1 hplaced)).trans (if_neg (mt beq_iff_eq.1 hloc))

/-- MARK with PLACED waits for the writes that it covers, without it its packet is to be sent (R62). -/
theorem State.startMark_sound (s : State) (r : Run) (h : lowestDetail (s.markReasons r) = none) :
    (entOpx r.ins.w 0 1 = 1 → s.startMark r = s.setRun { r with phase := .covered, covers := s.covered r.g r.rid r.comm (some (entQ1 r.ins.w)) })
    ∧ (entOpx r.ins.w 0 1 = 0 → s.startMark r = s.setRun { r with unsent := [markPacket r] }) := by
  rw [State.startMark, State.orRejected_sound _ _ _ h]
  exact ⟨fun hplaced => if_pos hplaced, fun hplaced => if_neg (by omega)⟩

/-- WAIT waits on a counter of its function's grant (R60). -/
theorem State.startWait_sound (s : State) (r : Run) (h : lowestDetail (s.waitReasons r) = none)
    (hc : ((s.chargeStart r.g).globalC ((s.chargeStart r.g).ownerOf r.g) (entOpx r.ins.w 0 15)).isSome = true) :
    s.startWait r = (s.chargeStart r.g).setRun { r with phase := .counter } := by
  obtain ⟨c, hc⟩ := Option.isSome_iff_exists.1 hc
  rw [State.startWait, State.orMalformed_sound _ _ _ h, hc]

/-- FLUSH waits for the writes that it covers (R56). -/
theorem State.startFlush_sound (s : State) (r : Run) (h : lowestDetail (s.flushReasons r) = none) :
    let v := s.chargeStart r.g
    let one := entOpx r.ins.w 0 1 == 0
    s.startFlush r = v.setRun { r with
      phase := .covered, covers := v.covered r.g r.rid r.comm (if one then some (entQ1 r.ins.w) else none)
      reached := if one && (v.flushNode r).isNone then [] else v.unconfirmed r.g (v.flushNode r) } := by
  rw [State.startFlush, State.orMalformed_sound _ _ _ h]

/-- The condition of a WAIT: COUNT has reached VALUE, and no ERR mark stands unless PASS_ERR lets it pass (R60, R109). -/
theorem waitMet_iff (e : Entry) (v : DWord) :
    (waitMet e v).1 = true ↔ entBits e 64 63 ≤ v.toNat % 2 ^ 63 ∧ (v.getLsbD 63 = false ∨ entBits e 32 1 = 1) := by
  simp only [waitMet, Bool.and_eq_true, Bool.or_eq_true, Bool.not_eq_true', decide_eq_true_eq, beq_iff_eq]
  rfl

/-- Settles O14: each start by its case of PLACED and of the form of its address. (R56, R60, R61, R62, R109) -/
theorem signalsMarksAndWaitsStart : Obligations.SignalsMarksAndWaitsStart := by
  refine ⟨⟨?sigLocal, ?sigRemote, ?mark, ?wait, ?flush, ?markPlaced, ?sigPlaced⟩, fun e v => ⟨waitMet_iff e v, rfl⟩⟩
  case sigLocal =>
    exact fun s g i iter hs hloc hplaced hw hc =>
      State.startOp_settles hs rfl ((State.startSignal_sound _ _ hw fun _ => hc).2.1 hplaced hloc)
  case sigRemote =>
    exact fun s g i iter hs hloc hplaced hw =>
      State.startOp_settles hs rfl ((State.startSignal_sound _ _ hw fun h => absurd h hloc).2.2 hplaced hloc)
  case mark => exact fun s g i iter hs hplaced hw => State.startOp_settles hs rfl ((State.startMark_sound _ _ hw).2 hplaced)
  case wait => exact fun s g i iter hs hw hc => State.startOp_settles hs rfl (State.startWait_sound _ _ hw hc)
  case flush => exact fun s g i iter hs hw => State.startOp_settles hs rfl (State.startFlush_sound _ _ hw)
  case markPlaced => exact fun s g i iter hs hplaced hw => State.startOp_settles hs rfl ((State.startMark_sound _ _ hw).1 hplaced)
  case sigPlaced =>
    exact fun s g i iter hs hplaced hw hc => State.startOp_settles hs rfl ((State.startSignal_sound _ _ hw hc).1 hplaced)

/-- A REPEAT with nothing malformed in it or in its body becomes the REPEAT in progress (R64 to R66). -/
theorem State.startRepeat_sound (s : State) (r : Run) (body : List Fetched) (h : lowestDetail (State.repeatReasons body (s.chargeStart r.g) r) = none) :
    s.startRepeat r body = ((s.chargeStart r.g).modQueue r.g (fun q =>
      { q with rep := some { rid := r.rid, ins := r.ins, body, pass := 0, next := 0 } })).setRun { r with phase := .passes } := by
  simp only [State.startRepeat, h]

/-- Settles O15: the body is the one that was accepted with the REPEAT. (R64, R65, R66, R110) -/
theorem repeatStarts : Obligations.RepeatStarts := by
  intro s g i iter hs u r body hw
  exact State.startOp_settles hs rfl (State.startRepeat_sound _ _ body hw)

end Sys2Proof.Machine
end

section
/-! PROOFS. The arithmetic of row counters: COUNT in bits 62 to 0, ERR in bit 63 (R45, R107). -/

namespace Sys2Proof.Machine

/-- The bit of ERR in a counter word. -/
theorem getLsbD_errBit (k : Nat) : (1#64 <<< 63).getLsbD k = decide (k = 63) := by
  have hbit : (1#64 <<< 63) = BitVec.twoPow 64 63 := by decide
  rw [hbit, BitVec.getLsbD_twoPow]
  by_cases h : k = 63
  · simp [h]
  · simp [h, Ne.symm h]

/-- Words that agree in bits 62 to 0 have one COUNT. -/
theorem rowCount_congr {v w : DWord} (h : ∀ k < 63, v.getLsbD k = w.getLsbD k) : v.toNat % 2 ^ 63 = w.toNat % 2 ^ 63 := by
  apply Nat.eq_of_testBit_eq
  intro k
  rw [Nat.testBit_mod_two_pow, Nat.testBit_mod_two_pow]
  by_cases hk : k < 63
  · exact congrArg _ (h k hk)
  · simp [hk]

/-- Bit by bit, an addition takes COUNT from the sum and ERR from the old word. -/
theorem getLsbD_rowAdd (v n : DWord) (k : Nat) (hk : k < 64) :
    (rowAdd v n).getLsbD k = if k = 63 then v.getLsbD k else (v + n).getLsbD k := by
  rw [rowAdd, BitVec.getLsbD_or, BitVec.getLsbD_and, BitVec.getLsbD_and, BitVec.getLsbD_not, getLsbD_errBit]
  by_cases h : k = 63 <;> simp [h, hk]

/-- Bit by bit, marking changes ERR alone. -/
theorem getLsbD_rowMark (v : DWord) (set clr : Bool) (k : Nat) (hk : k < 64) :
    (rowMark v set clr).getLsbD k = if k = 63 ∧ (set || clr) then set else v.getLsbD k := by
  cases set with
  | true =>
    rw [rowMark, if_pos rfl, BitVec.getLsbD_or, getLsbD_errBit]
    by_cases h : k = 63 <;> simp [h]
  | false => cases clr with
    | true =>
      rw [rowMark, if_neg (by decide), if_pos rfl, BitVec.getLsbD_and, BitVec.getLsbD_not, getLsbD_errBit]
      by_cases h : k = 63 <;> simp [h, hk]
    | false => simp [rowMark]

theorem rowMark_count (v : DWord) (set clr : Bool) : (rowMark v set clr).toNat % 2 ^ 63 = v.toNat % 2 ^ 63 := by
  refine rowCount_congr fun k hk => ?_
  have hne : ¬(k = 63 ∧ (set || clr)) := by omega
  rw [getLsbD_rowMark _ _ _ _ (by omega), if_neg hne]

/-- Settles O24: bit 63 and the bits below it, apart. (R45, R61, R107, R108) -/
theorem rowCounterArithmetic : Obligations.RowCounterArithmetic := by
  intro v n
  refine ⟨?added, ?kept, rowMark_count v true false, ?set, rowMark_count v false true, ?cleared, rfl⟩
  case added =>
    have hsum : (rowAdd v n).toNat % 2 ^ 63 = (v + n).toNat % 2 ^ 63 := by
      refine rowCount_congr fun k hk => ?_
      rw [getLsbD_rowAdd _ _ _ (by omega), if_neg (by omega)]
    rw [hsum, BitVec.toNat_add]
    omega
  case kept => rw [getLsbD_rowAdd _ _ _ (by omega), if_pos rfl]
  case set => rw [getLsbD_rowMark _ _ _ _ (by omega), if_pos ⟨rfl, rfl⟩]
  case cleared => rw [getLsbD_rowMark _ _ _ _ (by omega), if_pos ⟨rfl, rfl⟩]

end Sys2Proof.Machine
end

section
/-! PROOFS. The fetch rule: a read of a work ring by what stands in its way, and the entries that it brings, taken one by one (R42, R43, R98, R102 to R105). -/

namespace Sys2Proof.Machine

open Host (Outcome)

/-! ## A read of a work ring -/

/-- A read whose way is clear and that brings entries: the queue takes them, and the node settles (R102). -/
theorem State.ringRead_clear (s : State) (g n : Nat) (es : List Entry) (k : Queue → List Entry → Queue) :
    let q := s.queue g
    let m := min n (q.readMax q.readFrom.1)
    s.ringWay g q.readFrom.1 m = .clear → es.take m ≠ [] → s.ringRead g n (.entries es) k
      = ((s.touchRing g q.readFrom.1).setQueue g (k { q with half := none } (q.readFrom.2 ++ es.take m))).settle := by
  intro q m hway hsome
  have hgate : ¬(es.take m).isEmpty = true := fun h => hsome (List.isEmpty_iff.1 h)
  simp only [State.ringRead]
  rw [hway]
  exact congrArg State.settle (if_neg hgate)

/-- A read whose translation is still to come parks (R103, R354). -/
theorem State.ringRead_waits (s : State) (g n : Nat) (r : FetchResult) (k : Queue → List Entry → Queue) {a : DWord}
    (hway : s.ringWay g (s.queue g).readFrom.1 (min n ((s.queue g).readMax (s.queue g).readFrom.1)) = .waits a)
    (hreach : s.hostReach (s.ownerOf g) = true) : s.ringRead g n r k = s.parkRing g a := by
  simp only [State.ringRead, hway]
  exact if_pos hreach

/-- A read that fails begins an episode of the work ring, where none is open, with RING_FAULT (R103). -/
theorem State.ringRead_fails (s : State) (g n : Nat) (r : FetchResult) (k : Queue → List Entry → Queue) {why : Nat} {a : DWord}
    (hway : s.ringWay g (s.queue g).readFrom.1 (min n ((s.queue g).readMax (s.queue g).readFrom.1)) = .fails why a)
    (hopen : (s.queue g).workFault = false) :
    s.ringRead g n r k
      = (s.setQueue g { s.queue g with workFault := true }).raise (s.ownerOf g) ringFault (s.relQ g) 0 (2 * why) a.toNat 0 := by
  simp [State.ringRead, hway, State.ringFails, hopen]

/-- A queue on a failing ring does not fetch (R103). -/
theorem State.workFault_of_mayFetch {s : State} {g : Nat} (h : s.mayFetch g = true) : (s.queue g).workFault = false := by
  simp only [State.mayFetch, Bool.and_eq_true, Bool.not_eq_true'] at h
  obtain ⟨⟨⟨_, hfault⟩, _⟩, _⟩ := h
  exact hfault

theorem exec_entryFetch {s : State} {g : Nat} (r : FetchResult) (h : s.mayFetch g = true) :
    exec (.entryFetch g r) s = .next (s.ringRead g 16 r (fun q es => Queue.takeEntries es q)) :=
  congrArg Outcome.next (if_pos h)

/-- The re-read of a position that a queue waits on is one read of 64 B (R102). -/
theorem exec_ownReread {s : State} {g : Nat} (r : FetchResult) (hstale : (s.queue g).stale.isSome = true) (hfault : (s.queue g).workFault = false) :
    exec (.ownReread g r) s = .next (s.ringRead g 1 r Queue.reread) := by
  refine congrArg Outcome.next (if_pos ?_)
  rw [hstale, hfault]
  rfl

/-- What a re-read makes of the entry at the position waited on: taken where OWN is the lap value by now, else one attempt more (R102). -/
theorem Queue.reread_stale (q : Queue) {p : Word} {n : Nat} {raised : Bool} (e : Entry) (hq : q.stale = some (p, n, raised)) :
    (entOwn e = lap p (qRingSize q.desc) → q.reread [e] = Queue.takeEntries [e] { q with stale := none })
    ∧ (entOwn e ≠ lap p (qRingSize q.desc) → q.reread [e] = { q with stale := some (p, n + 1, raised) }) := by
  constructor <;> intro hown <;> simp [Queue.reread, hq, hown]

/-- A queue that waits on no position takes what a retry of its ring brings. -/
theorem Queue.reread_fresh (q : Queue) (es : List Entry) (hq : q.stale = none) : q.reread es = Queue.takeEntries es q := by
  simp only [Queue.reread, hq]

/-- A queue without an entry that waits for its extension reads from FETCH on. -/
theorem Queue.readFrom_whole (q : Queue) (hq : q.half = none) : q.readFrom = (q.fetch, []) ∧ { q with half := none } = q := by
  refine ⟨by rw [Queue.readFrom, hq], ?_⟩
  rw [← hq]

theorem exec_ownReread_clear {s : State} {g : Nat} {p : Word} {n : Nat} {raised : Bool} (e : Entry) (es : List Entry)
    (hstale : (s.queue g).stale = some (p, n, raised)) (hfault : (s.queue g).workFault = false) (hhalf : (s.queue g).half = none)
    (hmore : 0 < (s.queue g).readMax (s.queue g).fetch) (hway : s.ringWay g (s.queue g).fetch 1 = .clear) :
    exec (.ownReread g (.entries (e :: es))) s = .next ((s.touchRing g (s.queue g).fetch).setQueue g ((s.queue g).reread [e])).settle := by
  obtain ⟨hfrom, hsame⟩ := (s.queue g).readFrom_whole hhalf
  have hone : min 1 ((s.queue g).readMax (s.queue g).fetch) = 1 := by omega
  have hread := s.ringRead_clear g 1 (e :: es) Queue.reread
  simp only [hfrom, hone, hsame, List.take_succ_cons, List.take_zero, List.nil_append] at hread
  rw [exec_ownReread _ (by rw [hstale]; rfl) hfault, hread hway (List.cons_ne_nil _ _)]

/-- STALE_ENTRY is raised once, after 64 re-reads (R102). -/
theorem exec_staleEntry {s : State} {g : Nat} {p : Word} {n : Nat} (hstale : (s.queue g).stale = some (p, n, false)) (hn : 64 ≤ n) :
    exec (.staleEntry g) s = .next ((s.setQueue g { s.queue g with stale := some (p, n, true) }).raise (s.ownerOf g) staleEntry (s.relQ g) p n 0 0) := by
  simp only [exec, execStaleEntry, hstale]
  exact congrArg Outcome.next (if_pos hn)

/-- A retry of a work ring on which no position is waited for is a fetch that ends the episode (R103). -/
theorem exec_ringRetry_work {s : State} {g : Nat} (r : FetchResult) (hfault : (s.queue g).workFault = true) (hstale : (s.queue g).stale = none) :
    exec (.ringRetry g false r) s = .next (s.ringRead g 16 r (fun q es => { q with workFault := false }.reread es)) := by
  simp [exec, execRingRetry, hfault, hstale]

theorem exec_ringRetry_completion {s t : State} {g : Nat} (es : List Entry) (hfault : (s.queue g).compFault = true) (hrec : s.tryRecord g true = some t) :
    exec (.ringRetry g true (.entries es)) s = .next t.settle := by
  simp [exec, execRingRetry, hfault, hrec]

/-- CRING_STALL is raised once for a record that waits for room (R105). -/
theorem exec_cringStall {s : State} {g : Nat} (hrecs : (s.queue g).heldRecs ≠ []) (hroom : (s.queue g).cringRoom = false)
    (hraised : (s.queue g).stallRaised = false) :
    exec (.cringStall g) s = .next ((s.setQueue g { s.queue g with stallRaised := true }).raise (s.ownerOf g) cringStall (s.relQ g) 0
      (s.queue g).heldRecs.length 0 0) := by
  have hsome : (s.queue g).heldRecs.isEmpty = false := List.isEmpty_eq_false_iff.2 hrecs
  simp [exec, execCringStall, hsome, hroom, hraised]

/-! ## Taking entries -/

/-- An instruction that belongs to no REPEAT's body is held behind the others, and FETCH goes past its entries (R102). -/
theorem Queue.accept_alone (q : Queue) (i : Fetched) (hq : q.collect = none) :
    (q.accept i).held = q.held ++ [{ ins := i, body := [], doomed := false }] ∧ (q.accept i).fetch = i.pos + (if i.x.isSome then 2 else 1)
    ∧ (q.accept i).accepted = q.accepted + 1 := by
  simp [Queue.accept, hq]

/-- An entry is looked at where one is announced and there is room for it (R102). -/
theorem Queue.takes {q : Queue} (hmore : q.fetch ≠ q.dbpi) (hroom : q.heldCount < 64) : ¬(q.fetch = q.dbpi ∨ q.heldCount ≥ 64) :=
  not_or.2 ⟨hmore, Nat.not_le.2 hroom⟩

/-- An entry whose OWN is not the lap value of its position is not taken, and the queue waits on it (R42, R98). -/
theorem Queue.takeEntries_stale {q : Queue} {e : Entry} (es : List Entry) (hmore : q.fetch ≠ q.dbpi) (hroom : q.heldCount < 64)
    (hown : entOwn e ≠ lap q.fetch (qRingSize q.desc)) : Queue.takeEntries (e :: es) q = { q with stale := some (q.fetch, 1, false) } := by
  rw [Queue.takeEntries.eq_def]
  exact (if_neg (Queue.takes hmore hroom)).trans (if_pos (bne_iff_ne.2 hown))

/-- An entry without an extension is taken (R102). -/
theorem Queue.takeEntries_single {q : Queue} {e : Entry} (es : List Entry) (hmore : q.fetch ≠ q.dbpi) (hroom : q.heldCount < 64)
    (hown : entOwn e = lap q.fetch (qRingSize q.desc)) (hext : entExt e = false) :
    Queue.takeEntries (e :: es) q = Queue.takeEntries es (q.accept { pos := q.fetch, w := e, x := none }) := by
  rw [Queue.takeEntries.eq_def]
  exact (if_neg (Queue.takes hmore hroom)).trans ((if_neg (by simp [hown])).trans (if_neg (by simp [hext])))

/-- An entry whose extension is announced is taken with it, or, the last of a read at the ring's end, waits for it (R43, R102). -/
theorem Queue.takeEntries_extended {q : Queue} {e : Entry} (hmore : q.fetch ≠ q.dbpi) (hroom : q.heldCount < 64) (hext : entExt e = true)
    (hown : entOwn e = lap q.fetch (qRingSize q.desc)) (htwo : 2 ≤ (q.dbpi - q.fetch).toNat) :
    ((q.fetch.toNat + 1) % qRingSize q.desc = 0 → Queue.takeEntries [e] q = { q with half := some e })
    ∧ ∀ x es, Queue.takeEntries (e :: x :: es) q = Queue.takeEntries es (q.accept { pos := q.fetch, w := e, x := some x }) := by
  have hlap : ¬(entOwn e != lap q.fetch (qRingSize q.desc)) = true := by simp [hown]
  refine ⟨fun hend => ?_, fun x es => ?_⟩ <;> rw [Queue.takeEntries, if_neg (Queue.takes hmore hroom), if_neg hlap, if_pos hext, if_neg (Nat.not_lt.2 htwo)]
  exact if_pos hend

/-- Settles O22: a read of a ring by what stands in its way, and its entries by OWN and EXT. (R42, R43, R92, R98, R102, R103, R105) -/
theorem fetchRules : Obligations.FetchRules := by
  refine ⟨fun s g => ?_, fun q e hmore hroom hext hown htwo => ?extended, fun q e hmore hroom hcollect hext => ⟨fun hown => ?single, ?stale⟩⟩
  · intro q p0 m
    refine ⟨?fetch, ?parks, ?fails, ?reread, ?staleEntry, ?retry, ?retryRecord, ?stall⟩
    case fetch =>
      exact fun es hmay hway hsome => (exec_entryFetch _ hmay).trans (congrArg Outcome.next (s.ringRead_clear g 16 es _ hway hsome))
    case parks =>
      exact fun a hmay hway hreach r => (exec_entryFetch r hmay).trans (congrArg Outcome.next (s.ringRead_waits g 16 r _ hway hreach))
    case fails =>
      exact fun why a hmay hway r => (exec_entryFetch r hmay).trans
        (congrArg Outcome.next (s.ringRead_fails g 16 r _ hway (State.workFault_of_mayFetch hmay)))
    case reread =>
      intro p n raised e es hstale hfault hhalf hmore hway
      obtain ⟨htaken, hagain⟩ := q.reread_stale e hstale
      rw [exec_ownReread_clear e es hstale hfault hhalf hmore hway]
      exact ⟨fun hown => by rw [← htaken hown], fun hown => by rw [← hagain hown]⟩
    case staleEntry => exact fun p n => exec_staleEntry
    case retry =>
      intro es hfault hstale hway hsome
      refine (exec_ringRetry_work _ hfault hstale).trans (congrArg Outcome.next ((s.ringRead_clear g 16 es _ hway hsome).trans ?_))
      exact congrArg (fun x => ((s.touchRing g p0).setQueue g x).settle) (Queue.reread_fresh _ _ hstale)
    case retryRecord => exact fun es t => exec_ringRetry_completion es
    case stall => exact exec_cringStall
  case extended =>
    obtain ⟨hwait, htake⟩ := Queue.takeEntries_extended hmore hroom hext hown htwo
    refine ⟨hwait, fun x hcollect => ?_⟩
    obtain ⟨hheld, hfetch, -⟩ := q.accept_alone { pos := q.fetch, w := e, x := some x } hcollect
    rw [htake x []]
    exact ⟨hheld, hfetch⟩
  case single =>
    obtain ⟨hheld, hfetch, haccepted⟩ := q.accept_alone { pos := q.fetch, w := e, x := none } hcollect
    rw [Queue.takeEntries_single [] hmore hroom hown hext]
    exact ⟨hheld, hfetch, haccepted⟩
  case stale => exact Queue.takeEntries_stale [] hmore hroom

end Sys2Proof.Machine
end


section
/-! PROOFS. CHECK, DIGEST, TAG, UPROG and COMM: what each does at its start (R81 to R85, R130). -/

namespace Sys2Proof.Machine

open Host (Outcome)

/-! ## What a charge leaves -/

theorem State.chargeBuckets_regs (s : State) (g cost : Nat) : (s.chargeBuckets g cost).regs = s.regs := by
  unfold State.chargeBuckets
  simp only []
  split <;> split <;> simp

/-- A charge of the scheduler changes no register (R378, R381). -/
theorem State.chargeStart_regs (s : State) (g : Nat) : (s.chargeStart g).regs = s.regs := by
  rw [State.chargeStart, State.chargeGrant, State.chargeBuckets_regs]
  rfl

/-- The owner of a queue is told by the registers of the grants (R374). -/
theorem State.ownerOf_congr {s t : State} (h : t.regs = s.regs) (g : Nat) : t.ownerOf g = s.ownerOf g :=
  calc t.ownerOf g = ({ s with regs := t.regs } : State).ownerOf g := rfl
    _ = s.ownerOf g := by rw [h]

/-! ## Starts -/

theorem State.startDigest_sound (s : State) (r : Run) (h : lowestDetail (s.digestReasons r) = none)
    (hkey : (s.chargeStart r.g).localFail ((s.chargeStart r.g).ownerOf r.g) [digestSrc r.ins.w, digestOut r.ins.w] = none) :
    s.startDigest r = ((s.chargeStart r.g).setRun { r with phase := .reading }).readMore r.rid [digestSrc r.ins.w] [digestOut r.ins.w] := by
  rw [State.startDigest, State.orMalformed_sound _ _ _ h]
  exact State.orLocalFail_valid _ _ _ hkey

/-- TAG with a loaded key slot of its function reads its source, and with CMP the tag that it compares (R83, R394). -/
theorem State.startTag_sound (s : State) (r : Run) {upset n : Nat} (h : lowestDetail (s.tagReasons r) = none) (hupset : upset ≠ 4) :
    let v := s.chargeStart r.g
    v.kslotOf (v.ownerOf r.g) (entOpx r.ins.w 0 8) = some n → v.kslot n ≠ {} → v.slotEmptied true n r.rid = false →
    v.localFail (v.ownerOf r.g) [tagSrc r.ins.w, tagOut r.ins.w] = none →
    s.startTag upset r = (v.setRun { r with phase := .reading, aux := upset, slot := n }).readMore r.rid
      (tagSrc r.ins.w :: (if tagCmp r.ins.w then [tagOut r.ins.w] else [])) (if tagCmp r.ins.w then [] else [tagOut r.ins.w]) := by
  intro v hslot hloaded hheld hkey
  have hgate : ¬(v.kslot n = {} ∨ v.slotEmptied true n r.rid = true) := not_or.2 ⟨hloaded, Bool.eq_false_iff.1 hheld⟩
  rw [State.ownerOf_congr (s.chargeStart_regs r.g)] at hslot
  rw [State.startTag, State.orMalformed_sound _ _ _ h, hslot]
  exact (if_neg hgate).trans ((if_neg hupset).trans (State.orLocalFail_valid _ _ _ hkey))

theorem State.startUprog_sound (s : State) (r : Run) (h : lowestDetail (s.uprogReasons r) = none)
    (hkey : (s.chargeStart r.g).localFail ((s.chargeStart r.g).ownerOf r.g) [uprogSrc r.ins.w] = none) :
    let n := s.progSlot (s.ownerOf r.g) (entOpx r.ins.w 0 6)
    s.startUprog r = ((s.chargeStart r.g).setRun { r with
      phase := .reading, slot := n.getD 0, aux := if n.isSome then 0 else 1 }).readMore r.rid [uprogSrc r.ins.w] [] := by
  rw [State.startUprog, State.orMalformed_sound _ _ _ h]
  exact State.orLocalFail_valid _ _ _ hkey

/-- CHECK with LEN above 0 reads its source (R82). -/
theorem State.startCheck_sound (s : State) (r : Run) (h : lowestDetail (s.checkReasons r) = none) (hlen : entBytes r.ins.w 16 8 ≠ 0) :
    let v := s.chargeStart r.g
    let d := v.readOpnd (v.ownerOf r.g) (qPasid (v.queue r.g).desc) (checkSrc r.ins.w) (.run r.rid 0)
    v.localFail (v.ownerOf r.g) [checkSrc r.ins.w] = none →
    s.startCheck r = d.2.2.setRun { r with phase := .reading, bufs := [(checkSrc r.ins.w, d.1, d.2.1)] } := by
  intro v d hkey
  rw [State.startCheck, State.orMalformed_sound _ _ _ h]
  exact (if_neg hlen).trans (State.orLocalFail_valid _ _ _ hkey)

/-- The one upset that loses a key slot has code 4. -/
theorem upsetCode_ne_four {u : TagUpset} (h : u ≠ .keyLost) : upsetCode u ≠ 4 := by
  cases u
  case keyLost => exact absurd rfl h
  all_goals decide

/-- Settles O18: each start passes its gates and reads. (R81, R82, R83, R84, R130) -/
theorem integrityInstructionsStart : Obligations.IntegrityInstructionsStart := by
  refine ⟨?digest, ?tag, ?uprog, ?check⟩
  case digest => exact fun s g i iter hs hw hkey => State.startOp_settles hs rfl (State.startDigest_sound _ _ hw hkey)
  case tag =>
    exact fun s g i iter n hs hw hslot hloaded hheld hkey u hu =>
      State.startOp_settles hs rfl (State.startTag_sound _ _ hw (upsetCode_ne_four hu) hslot hloaded hheld hkey)
  case uprog => exact fun s g i iter hs hw hkey => State.startOp_settles hs rfl (State.startUprog_sound _ _ hw hkey)
  case check => exact fun s g i iter hs hw hlen hkey => State.startOp_settles hs rfl (State.startCheck_sound _ _ hw hlen hkey)

/-- COMM create and replace read the header of their map first; destroy waits for its collectives (R85). -/
theorem State.startComm_sound (s : State) (r : Run) (h : lowestDetail (s.commReasons r) = none) :
    let v := s.chargeStart r.g
    (commAction r.ins.w ≠ 2 → v.localFail (v.ownerOf r.g) [commMap r.ins.w 64] = none →
      s.startComm r = (v.setRun { r with phase := .reading, aux := 0 }).readMore r.rid [commMap r.ins.w 64] [])
    ∧ (commAction r.ins.w = 2 → s.startComm r = v.setRun { r with phase := .coll }) := by
  intro v
  rw [State.startComm, State.orMalformed_sound _ _ _ h]
  exact ⟨fun hact hkey => (if_neg hact).trans (State.orMapFail_valid _ _ _ hkey), fun hact => if_pos hact⟩

/-- The command of an ACTION starts a COMM that has it (R85). -/
theorem State.startCommAction_startable {s : State} {g act : Nat} {i : Fetched} {iter : Nat} (hs : s.startable g 0x58 i iter)
    (hact : commAction i.w = act) : s.startCommAction g act = (s.startOp g 0x58 State.commReasons always State.startComm).settle := by
  obtain ⟨hnext, -⟩ := hs
  simp only [State.startCommAction, hnext]
  exact if_pos hact

theorem State.startCommAction_settles {s t : State} {g act : Nat} {i : Fetched} {iter : Nat} (hs : s.startable g 0x58 i iter)
    (hact : commAction i.w = act) (ht : (s.started g i iter).startComm (s.newRun g i iter) = t) :
    (Outcome.next (s.startCommAction g act) : Outcome State Fault Refusal) = .next t.settle :=
  (congrArg Outcome.next (State.startCommAction_startable hs hact)).trans (State.startOp_settles hs rfl ht)

/-- Settles O19: the three ACTIONs share one start. (R85, R305) -/
theorem commActionsStart : Obligations.CommActionsStart := by
  refine ⟨?read, ?destroy⟩
  case read =>
    intro c hc s g i iter hs hact v r hw hkey
    simp only [List.mem_cons, List.not_mem_nil, or_false] at hc
    rcases hc with rfl | rfl
    all_goals exact State.startCommAction_settles hs hact ((State.startComm_sound _ r hw).1 (hact ▸ by decide) hkey)
  case destroy => exact fun s g i iter hs hact hw => State.startCommAction_settles hs hact ((State.startComm_sound _ _ hw).2 hact)

end Sys2Proof.Machine
end

section
/-! PROOFS. Collectives, SNAP and PERS: what each does at its start (R67 to R80, R154, R313 to R318, R335). -/

namespace Sys2Proof.Machine

open Host (Outcome)

/-! ## Admitting a collective -/

@[simp] theorem State.comm_setComm (s : State) (c : Nat) (x : Option Comm) (k : Nat) :
    (s.setComm c x).comm k = if k = c then x else s.comm k := by
  simp [State.comm, State.setComm]

/-- An admitted collective takes the CSEQ of its entry and stands behind those in progress; only its communicator changes with it (R72, R154). -/
theorem State.admitColl_spec (s : State) (r : Run) (h : Nat) (x : Comm) :
    ((s.admitColl r h x).comm h).map (fun c => (c.seq, c.anySeq, c.ranks)) = some (coSeq r.ins.w, false, x.ranks)
    ∧ (s.admitColl r h x).colls = s.colls ++ [s.newColl r h x]
    ∧ (∀ k, k ≠ h → (s.admitColl r h x).comm k = s.comm k)
    ∧ (s.admitColl r h x).pool = s.pool ∧ (s.admitColl r h x).regs = s.regs ∧ (s.admitColl r h x).queues = s.queues := by
  have hcomm : ∀ k, (s.admitColl r h x).comm k
      = if k = h then some { x with seq := coSeq r.ins.w, anySeq := false, fresh := x.fresh && (s.newColl r h x).op == 0x40 } else s.comm k := by
    intro k
    rw [← s.comm_setComm h]
    rfl
  refine ⟨?_, rfl, fun k hk => ?_, rfl, rfl, rfl⟩
  · rw [hcomm, if_pos rfl]
    rfl
  · rw [hcomm, if_neg hk]

/-! ## Starting a collective -/

/-- What an admitted collective reads first: DISP and COMB their arrays, A2AV its send counts; any other checks its operands (R75 to R77). -/
def State.collFirst (t : State) (r : Run) (c : Coll) : State :=
  let a := coArrays r.ins c.op c.p
  if isEd c.op then
    t.orLocalFail r a (fun u =>
      ((u.setRun { r with phase := .reading, aux := 0 }).readMore r.rid (a.take 2) (a.drop 2)).probeOpnd r.rid
        (coAux r.ins 2 ((coT r.ins.w * coK r.ins.w + 7) / 8)) true)
  else if c.op == 0x34 then t.orLocalFail r (a.take 1) (fun u => (u.setRun { r with phase := .reading, aux := 0 }).readMore r.rid (a.take 1) [])
  else t.collRead r c

/-- A collective that nothing stops is admitted (R69, R72, R311). -/
theorem State.startColl_admits (s : State) (r : Run) (x : Comm) (hw : s.coReasons (s.collRun r) = [])
    (hfmt : coUnsupported r.ins.w (entOpcode r.ins.w) = false) (hx : (s.chargeStart r.g).ownComm r.g (coComm r.ins.w) = some x)
    (hfrog : r.ins.frogged = false) (hjob : (s.chargeStart r.g).jobAbandoned x.job = false) :
    let v := s.chargeStart r.g
    s.startColl r = (v.admitColl (s.collRun r) (coComm r.ins.w) x).collFirst (s.collRun r) (v.newColl (s.collRun r) (coComm r.ins.w) x) := by
  intro v
  have hsound : lowestDetail (s.coReasons (s.collRun r)) = none := by rw [hw]; rfl
  have hstop : ¬(r.ins.frogged || v.jobAbandoned x.job) = true := by simp [v, hfrog, hjob]
  rw [State.startColl]
  refine (State.orMalformed_sound _ (s.collRun r) _ hsound).trans ((if_neg (Bool.eq_false_iff.1 hfmt)).trans ?_)
  simp only [hx]
  exact if_neg hstop

/-- The command of a collective that may start ends in the state that it leaves, settled. -/
theorem State.startCollective_opens {s : State} {g : Nat} {op : BitVec 8} {i : Fetched} {iter : Nat} {x : Comm} {t : State}
    (ho : s.collOpens g op i iter x) :
    let v := s.charged g i iter
    let r := (s.started g i iter).collRun (s.newRun g i iter)
    (v.admitColl r (coComm i.w) x).collFirst r (v.newColl r (coComm i.w) x) = t →
    (Outcome.next (s.startCollective g op) : Outcome State Fault Refusal) = .next t.settle := by
  intro v r ht
  obtain ⟨⟨hnext, hop, hmay, horder⟩, hready, hw, hfmt, hx, hfrog, hjob⟩ := ho
  exact State.startOp_settles ⟨hnext, hop, hmay, horder⟩ hready ((State.startColl_admits _ _ x hw (hop.symm ▸ hfmt) hx hfrog hjob).trans ht)

/-- A collective without arrays to read first checks its operands. -/
theorem State.collFirst_plain (t : State) (r : Run) (c : Coll) (hed : isEd c.op = false) (hv : c.op ≠ 0x34) : t.collFirst r c = t.collRead r c :=
  (if_neg (Bool.eq_false_iff.1 hed)).trans (if_neg (mt beq_iff_eq.1 hv))

/-- The collective of a run has the opcode of its entry, and the ranks of its communicator. -/
theorem State.newColl_fields (s : State) (r : Run) (h : Nat) (x : Comm) :
    (s.newColl r h x).op = entOpcode r.ins.w ∧ (s.newColl r h x).p = x.ranks.length :=
  ⟨rfl, List.length_map _⟩

theorem State.startCollective_plain {s : State} {g : Nat} {op : BitVec 8} {i : Fetched} {iter : Nat} {x : Comm} (ho : s.collOpens g op i iter x)
    (hed : isEd op = false) (hv : op ≠ 0x34) :
    let v := s.charged g i iter
    let r := (s.started g i iter).collRun (s.newRun g i iter)
    (Outcome.next (s.startCollective g op) : Outcome State Fault Refusal)
      = .next ((v.admitColl r (coComm i.w) x).collRead r (v.newColl r (coComm i.w) x)).settle := by
  intro v r
  have ⟨⟨_, hop, _⟩, _⟩ := ho
  have hc : (v.newColl r (coComm i.w) x).op = op := hop
  exact State.startCollective_opens ho (State.collFirst_plain _ _ _ (hc ▸ hed) (hc ▸ hv))

/-- A2AV reads its send counts once their key holds (R76). -/
theorem State.collFirst_a2av (t : State) (r : Run) (c : Coll) (hop : c.op = 0x34)
    (hkey : t.localFail (t.ownerOf r.g) ((coArrays r.ins 0x34 c.p).take 1) = none) :
    t.collFirst r c = (t.setRun { r with phase := .reading, aux := 0 }).readMore r.rid ((coArrays r.ins 0x34 c.p).take 1) [] := by
  rw [State.collFirst, hop]
  exact (if_neg (by decide)).trans ((if_pos rfl).trans (State.orLocalFail_valid _ _ _ hkey))

/-- DISP and COMB read the assignment array and the expert map, and translate the drop mask, once their key holds (R75). -/
theorem State.collFirst_expert (t : State) (r : Run) (c : Coll) (hed : isEd c.op = true)
    (hkey : t.localFail (t.ownerOf r.g) (coArrays r.ins c.op c.p) = none) :
    t.collFirst r c = ((t.setRun { r with phase := .reading, aux := 0 }).readMore r.rid ((coArrays r.ins c.op c.p).take 2)
      ((coArrays r.ins c.op c.p).drop 2)).probeOpnd r.rid (coAux r.ins 2 ((coT r.ins.w * coK r.ins.w + 7) / 8)) true :=
  (if_pos hed).trans (State.orLocalFail_valid _ _ _ hkey)

theorem State.startCollective_expert {s : State} {g : Nat} {op : BitVec 8} {i : Fetched} {iter : Nat} {x : Comm} (ho : s.collOpens g op i iter x)
    (hed : isEd op = true) :
    let v := s.charged g i iter
    let r := (s.started g i iter).collRun (s.newRun g i iter)
    let t := v.admitColl r (coComm i.w) x
    let a := coArrays i op x.ranks.length
    t.localFail (t.ownerOf g) a = none →
    (Outcome.next (s.startCollective g op) : Outcome State Fault Refusal)
      = .next (((t.setRun { r with phase := .reading, aux := 0 }).readMore r.rid (a.take 2) (a.drop 2)).probeOpnd r.rid
        (coAux i 2 ((coT i.w * coK i.w + 7) / 8)) true).settle := by
  intro v r t a hkey
  have ⟨⟨_, hop, _⟩, _⟩ := ho
  obtain ⟨hc, hp⟩ := v.newColl_fields r (coComm i.w) x
  have ha : coArrays i (v.newColl r (coComm i.w) x).op (v.newColl r (coComm i.w) x).p = a := by rw [hc, hp]; exact hop ▸ rfl
  have hfirst := State.collFirst_expert t r (v.newColl r (coComm i.w) x) (hc.trans hop ▸ hed) (ha.symm ▸ hkey)
  exact State.startCollective_opens ho (hfirst.trans (by rw [← ha]; rfl))

/-- Settles O16: the collectives by what they read first, and what their admission changes. (R67, R69, R70, R72, R75, R76, R78, R154) -/
theorem collectivesStart : Obligations.CollectivesStart := by
  refine ⟨⟨?plain, ?a2av, ?expert⟩, State.admitColl_spec⟩
  case plain =>
    intro c hc s g i iter x ho
    simp only [List.mem_cons, List.not_mem_nil, or_false] at hc
    rcases hc with rfl | rfl | rfl | rfl | rfl
    all_goals exact State.startCollective_plain ho (by decide) (by decide)
  case a2av =>
    intro s g i iter x ho v r a hkey
    have ⟨⟨_, hop, _⟩, _⟩ := ho
    obtain ⟨hc, hp⟩ := v.newColl_fields r (coComm i.w) x
    have hfirst := State.collFirst_a2av (v.admitColl r (coComm i.w) x) r (v.newColl r (coComm i.w) x) (hc.trans hop)
    rw [hp] at hfirst
    exact State.startCollective_opens ho (hfirst hkey)
  case expert =>
    intro c hc s g i iter x ho
    simp only [List.mem_cons, List.not_mem_nil, or_false] at hc
    rcases hc with rfl | rfl
    all_goals exact State.startCollective_expert ho (by decide)

/-! ## SNAP and PERS -/

theorem State.poolWrite_keys (s : State) (off : Nat) (bs : List Byte) (t : Ticket) : (s.poolWrite off bs t).2.keys = s.keys := by
  have hsnoop : ∀ (ls : List Nat) (u : State), (ls.foldl (fun (u : State) l => (u.emit (.biSnp l)).count 0x240048) u).keys = u.keys := by
    intro ls
    induction ls with
    | nil => exact fun u => rfl
    | cons l ls ih => exact fun u => ih _
  simp only [State.poolWrite]
  split
  · exact hsnoop _ s
  · split <;> rfl

theorem State.engineWrite_keys (s : State) (off : Nat) (bs : List Byte) : (s.engineWrite off bs).keys = s.keys := by
  rw [State.engineWrite]
  split
  · rfl
  · exact s.poolWrite_keys _ _ _

/-- Putting a journal changes no key. -/
theorem State.putJournal_keys (s : State) (j : Journal) : (s.putJournal j).keys = s.keys := by
  rw [State.putJournal]
  split
  · rfl
  · exact State.engineWrite_keys _ _ _

/-- The registrations bound to a rank are told by the keys (R315). -/
theorem State.rankedKeys_congr {s t : State} (h : t.keys = s.keys) (comm rank : Nat) : t.rankedKeys comm rank = s.rankedKeys comm rank := by
  rw [State.rankedKeys, h]
  rfl

/-- The collective of a SNAP: its digest, its parity group, and its place, k, n and n_p in it (R79, R313). -/
def State.snapColl (v : State) (r : Run) (x : Comm) : Coll :=
  let c := v.newColl r (coComm r.ins.w) x
  let k := x.groupK c.rank
  let grp := if k = 0 then [] else x.group c.rank
  { c with
    pdig := snapPdig r.ins.w, emap := grp
    sendCounts := [(grp.findIdx? (· == c.rank)).getD 0, k, (snapUnits r.ins.w k).1, (snapUnits r.ins.w k).2] }

/-- SNAP is admitted, and its communicator becomes its job's commit communicator (R72, R316). -/
def State.snapAdmit (v : State) (r : Run) (x : Comm) : State :=
  let t := (v.admitColl r (coComm r.ins.w) x).setColl (v.snapColl r x)
  t.setJob x.job { t.job x.job with commit := some (coComm r.ins.w) }

/-- The rank record of a SNAP is written behind its shard, and the SNAP goes on once the write is placed (R315, R316). -/
def State.snapRecord (b : State) (r : Run) (rank : Nat) (area : Opnd) : State :=
  let w := b.poolWrite (snapShard r.ins.w + snapLen r.ins.w) (b.rankRecord (coComm r.ins.w) rank (snapStep_ r.ins.w)) (.run r.rid wOther)
  w.2.setRun { r with phase := .coll, writes := if w.1 then 0 else 1, bufs := [(area, [], 0)] }

/-- A SNAP that nothing stops opens the journal of its area and writes its rank record behind the shard (R315 to R318). -/
theorem State.startSnap_admits (s : State) (r : Run) (x : Comm) (hw : lowestDetail (s.snapReasons r) = none)
    (hx : (s.chargeStart r.g).ownComm r.g (coComm r.ins.w) = some x) (hfrog : r.ins.frogged = false)
    (hjob : (s.chargeStart r.g).jobAbandoned x.job = false) :
    let v := s.chargeStart r.g
    let c := v.snapColl r x
    let k := x.groupK c.rank
    let a := v.snapAdmit r x
    let area := snapArea r.ins.w k x.jmode
    a.localFail (a.ownerOf r.g) [area] = none → (a.rankedKeys (coComm r.ins.w) c.rank).length ≤ 2046 →
    let j := a.snapJournal r.ins.w k x.jmode
    let b := a.putJournal { j with st := if j.st = .idle then .active else j.st }
    s.startSnap r = b.snapRecord r c.rank area := by
  intro v c k a area hkey hroom j b
  have hstop : ¬(r.ins.frogged || v.jobAbandoned x.job) = true := by simp [v, hfrog, hjob]
  have hfits : ¬(b.rankedKeys (coComm r.ins.w) c.rank).length > 2046 := by
    rw [State.rankedKeys_congr (a.putJournal_keys _)]
    exact Nat.not_lt.2 hroom
  rw [State.startSnap, State.orMalformed_sound _ _ _ hw]
  simp only [hx]
  refine (if_neg hstop).trans ((State.orLocalFail_valid a r _ hkey).trans ?_)
  exact congrArg (fun u => State.snapRecord u r c.rank area) (if_neg hfits)

/-- The read of pooled memory brings as many bytes as are asked for. -/
@[simp] theorem State.pread_length (s : State) (o n : Nat) : (s.pread o n).length = n := by
  rw [State.pread]
  induction n generalizing o with
  | zero => rfl
  | succ n ih => rw [Tab.getAll, List.length_cons, ih]

/-- PERS within its quota starts a new version of its object at once where no line of its source is lost (R80, R335). -/
theorem State.startPers_sound (s : State) (r : Run) (hw : lowestDetail (s.persReasons r) = none) :
    let v := s.chargeStart r.g
    let len := entBytes r.ins.w 16 8
    let obj := entBytes r.ins.w 24 8
    let f := v.ownerOf r.g
    let o := (v.tobj? f obj).getD { obj, owner := f, cur := none, prev := none, writing := [] }
    v.localFail f [persOpnd r.ins.w] = none → v.lineLost (entQ1 r.ins.w).toNat len = false →
    v.tierOf f + len ≤ v.grant f 0x28 0 14 * 2 ^ 30 → v.tierAll + len ≤ v.fld 0x18000C 0 16 * 2 ^ 30 →
    s.startPers r = ((v.setTobj { o with writing := o.writing ++ [(r.rid, { step := 0, data := v.pread (entQ1 r.ins.w).toNat len })] }).count
      0x230038 len).setRun { r with phase := .tier, bufs := [(persOpnd r.ins.w, [], 0)] } := by
  intro v len obj f o hkey hline hquota hroom
  have hgate : ¬(v.tierOf f + len > v.grant f 0x28 0 14 * 2 ^ 30 ∨ v.tierAll + len > v.fld 0x18000C 0 16 * 2 ^ 30) :=
    not_or.2 ⟨Nat.not_lt.2 hquota, Nat.not_lt.2 hroom⟩
  have hread : v.readOpnd f (v.runPasid r) (persOpnd r.ins.w) (.run r.rid 0) = (v.pread (entQ1 r.ins.w).toNat len, 0, v) :=
    (State.readOpnd_pool v f (v.runPasid r) (persOpnd r.ins.w) (.run r.rid 0) rfl).1 hline
  rw [State.startPers, State.orMalformed_sound _ _ _ hw, ← State.ownerOf_congr (s.chargeStart_regs r.g)]
  refine (State.orLocalFail_valid v r _ hkey).trans ((if_neg hgate).trans ?_)
  rw [hread]
  refine (if_pos rfl).trans ?_
  have hbuf : ∀ bs n, ({ r with phase := .reading, bufs := [(persOpnd r.ins.w, bs, n)] } : Run).buf 0 = bs := fun bs n => rfl
  rw [State.persVersion, hbuf, State.pread_length]

/-- Settles O17: SNAP passes its gates and is admitted, PERS passes its own and starts a version.
(R79, R80, R313, R315 to R318, R335, R341) -/
theorem snapAndPersStart : Obligations.SnapAndPersStart := by
  refine ⟨?snap, ?pers⟩
  case snap =>
    exact fun s g i iter x hs hready hw hx hfrog hjob hkey hroom =>
      State.startOp_settles hs hready (State.startSnap_admits _ _ x hw hx hfrog hjob hkey hroom)
  case pers =>
    exact fun s g i iter hs hnv hw hkey hline hquota hroom =>
      State.startOp_settles hs hnv (State.startPers_sound _ _ hw hkey hline hquota hroom)

end Sys2Proof.Machine
end

section
/-! PROOFS. What raising a fault leaves of the checkpoint tier's counters (R341, R425 to R427). -/

namespace Sys2Proof.Machine

/-- From s to t no counter of the checkpoint tier's block changes (R341). -/
def State.TierCounts (s t : State) : Prop := ∀ a, 0x230000 ≤ a → a < 0x240000 → t.counter a = s.counter a

theorem State.TierCounts.of_ev {s t : State} (h : t.ev = s.ev) : State.TierCounts s t := fun a _ _ => by rw [State.counter, State.counter, h]

theorem State.TierCounts.refl (s : State) : State.TierCounts s s := .of_ev rfl

theorem State.TierCounts.trans {s t u : State} (h : State.TierCounts s t) (k : State.TierCounts t u) : State.TierCounts s u :=
  fun a hlo hhi => (k a hlo hhi).trans (h a hlo hhi)

/-- What is done after an update that counts nothing. -/
theorem State.TierCounts.after {s t u : State} (k : State.TierCounts t u) (h : t.ev = s.ev) : State.TierCounts s u := (State.TierCounts.of_ev h).trans k

variable (s : State)

/-- A count outside the block leaves it. -/
theorem State.count_tierCounts {a : Nat} (n : Nat) (h : a < 0x230000 ∨ 0x240000 ≤ a) : State.TierCounts s (s.count a n) := by
  intro b hlo hhi
  rw [State.counter_count, if_neg (by omega)]

theorem State.touchXlate_tierCounts (x : Xlate) : State.TierCounts s (s.touchXlate x) :=
  (State.count_tierCounts _ 1 (.inr (by omega))).after rfl

theorem State.dlog_tierCounts (f : Nat) (pa : DWord) : State.TierCounts s (s.dlog f pa).2 := by
  simp only [State.dlog]
  split
  · exact .refl s
  · split
    · exact .of_ev rfl
    · exact ((State.count_tierCounts _ (a := 0x240058) 1 (.inr (by omega))).after rfl).trans (.of_ev rfl)

theorem State.postWrite_tierCounts (f : Nat) (pasid : BitVec 20) (va : DWord) (bs : List Byte) : State.TierCounts s (s.postWrite f pasid va bs).2 := by
  simp only [State.postWrite]
  split
  · split
    · exact ((s.touchXlate_tierCounts _).trans (State.dlog_tierCounts _ _ _)).trans (.of_ev rfl)
    · exact .refl s
  · exact (s.dlog_tierCounts f va).trans (.of_ev rfl)

theorem State.park_tierCounts (p : Park) : State.TierCounts s (s.park p) := by
  have hmiss : State.TierCounts s (if s.usesAts p.f then s.count 0x240018 else s) := by
    split
    · exact s.count_tierCounts 1 (.inr (by omega))
    · exact .refl s
  have hadmit : ∀ t : State, State.TierCounts t (t.admitPark p).2 := by
    intro t
    simp only [State.admitPark]
    split <;> exact .of_ev rfl
  exact (hmiss.trans (hadmit _)).trans (.of_ev rfl)

theorem State.attachXmit_tierCounts (a : Nat) (psn : Word) (m : AMsg) : State.TierCounts s (s.attachXmit a psn m) := by
  refine .of_ev ?_
  simp only [State.attachXmit, State.attachWire]
  (repeat' split) <;> rfl

theorem State.awr_tierCounts (a off : Nat) (bs : List Byte) (t : Ticket) : State.TierCounts s (s.awr a off bs t) := by
  simp only [State.awr, State.attachSend]
  split
  · exact (State.attachXmit_tierCounts _ a _ _).after rfl
  · exact .of_ev rfl

theorem State.faultLost_tierCounts (f cls : Nat) : State.TierCounts s (s.faultLost f cls) := by
  have hpage : 0x240000 ≤ page f (0x2080 + 8 * cls) := by
    rw [page]
    omega
  exact ((s.count_tierCounts 1 (.inr hpage)).trans (State.count_tierCounts _ (a := 0x200038) 1 (.inl (by omega)))).trans (.of_ev rfl)

theorem State.faultIrq_tierCounts (f : Nat) : State.TierCounts s (s.faultIrq f) := by
  rw [State.faultIrq]
  split <;> exact .of_ev rfl

theorem State.recWritten_tierCounts (k : RecRing) (f : Nat) : State.TierCounts s (s.recWritten k f) := by
  simp only [State.recWritten]
  split
  · exact .refl s
  · cases k
    · exact (State.faultIrq_tierCounts _ f).after (by simp [State.setRecs])
    · exact .of_ev (by simp [State.setRecs])

theorem State.recFailed_tierCounts (k : RecRing) (f : Nat) : State.TierCounts s (s.recFailed k f) := by
  simp only [State.recFailed]
  split
  · exact .refl s
  · cases k
    · exact (State.faultLost_tierCounts _ f _).after (by simp [State.setRecs])
    · exact .of_ev (by simp [State.setRecs])

theorem State.recTry_tierCounts (k : RecRing) (f : Nat) (bs : List Byte) : State.TierCounts s (s.recTry k f bs).2 := by
  simp only [State.recTry]
  split
  · split
    · exact s.postWrite_tierCounts _ _ _ _
    · split
      · exact s.park_tierCounts _
      · exact .refl s
  · split
    · exact s.awr_tierCounts _ _ _ _
    · exact .refl s
  · split <;> exact .of_ev rfl

/-- One write of a record that waits, and its outcome. -/
theorem State.recPump_one_tierCounts (k : RecRing) (f : Nat) : State.TierCounts s (State.recPump k f 1 s) := by
  simp only [State.recPump]
  split
  · exact .refl s
  · rename_i bs _ _
    have h := s.recTry_tierCounts k f bs
    split <;> rename_i heq <;> rw [heq] at h
    · exact h.trans (State.recWritten_tierCounts _ k f)
    · exact h.trans (State.recFailed_tierCounts _ k f)
    · exact h

theorem State.recPush_tierCounts (k : RecRing) (f cls : Nat) (bs : List Byte) : State.TierCounts s (s.recPush k f cls bs) := by
  simp only [State.recPush]
  split
  · exact (State.recPump_one_tierCounts _ k f).after rfl
  · exact .of_ev rfl

/-- A fault leaves the tier's counters: it is counted, and logged, elsewhere. -/
theorem State.raise_tierCounts (f : Nat) (c : FCode) (q : Nat) (eseq : Word) (a b x d : Nat) : State.TierCounts s (s.raise f c q eseq a b x d) := by
  have hcount : ∀ n w, State.TierCounts s ((s.count 0x200030).setFunc n { (s.count 0x200030).func n with fseq := w }) :=
    fun n w => (s.count_tierCounts (a := 0x200030) 1 (.inl (by omega))).trans (.of_ev rfl)
  unfold State.raise
  generalize (if s.enabled f then f else 0) = f'
  generalize (if s.enabled f then 0 else f + 256) = e
  simp only []
  split
  · exact (hcount f' _).trans (State.recPush_tierCounts _ _ _ _ _)
  · exact (hcount f' _).trans (State.faultLost_tierCounts _ _ _)

end Sys2Proof.Machine
end

section
/-! PROOFS. The checkpoint tier: its versions, the governor, retired blocks, and the NV commands (R80, R333 to R343, R443, R459). -/

namespace Sys2Proof.Machine

open Host (Outcome)

/-! ## Versions and media -/

/-- The oldest version being written becomes current (R80, R334). -/
theorem exec_persDurable {s : State} {obj : DWord} {o : TObj} {rid : Nat} {v : TVer} {rest : List (Nat × TVer)} {r : Run}
    (hfind : s.tier.find? (fun o => o.obj == obj.toNat && !o.writing.isEmpty) = some o) (hw : o.writing = (rid, v) :: rest)
    (hcool : s.pwr.nandPaused = false) :
    let t := s.setTobj { o with cur := some v, prev := o.cur, writing := rest }
    let u := (({ t with govCredit := t.govCredit - v.data.length } : State).media (mediaBytes v.data.length)).showGov
    u.run? rid = some r → exec (.persDurable obj) s = .next (u.complete { r with info := BitVec.ofNat 64 v.data.length }).settle := by
  intro t u hrun
  have hpause : ¬s.pwr.nandPaused = true := Bool.eq_false_iff.1 hcool
  refine congrArg Outcome.next ((if_neg hpause).trans ?_)
  simp only [hfind, hw]
  rw [show State.run? _ rid = some r from hrun]

/-- Hot NAND pauses the tier's writes (R459). -/
theorem exec_persDurable_paused {s : State} (obj : DWord) (hhot : s.pwr.nandPaused = true) : exec (.persDurable obj) s = .next s :=
  congrArg Outcome.next (if_pos hhot)

/-- A scan rewrites a block that needs it where writes do not pause (R333, R338, R459). -/
theorem exec_retentionScan (s : State) (b : Nat) :
    (s.pwr.nandPaused = false → exec (.retentionScan b true) s = .next ((s.count 0x230048 (2 ^ 23)).media (2 ^ 23)))
    ∧ (s.pwr.nandPaused = true → exec (.retentionScan b true) s = .next s) ∧ exec (.retentionScan b false) s = .next s := by
  refine ⟨fun hcool => ?_, fun hhot => ?_, rfl⟩
  · simp [exec, execRetentionScan, hcool]
  · simp [exec, execRetentionScan, hhot]

/-! ## The governor (R337, R340) -/

theorem State.showGov_frame (s : State) : ∃ rs, s.showGov = { s with regs := rs } := ⟨_, rfl⟩

/-- NV_GOV_STATUS shows CREDIT in units of a GiB (R340). -/
theorem State.showGov_credit (s : State) : s.showGov.fld 0x180004 0 16 = s.govCredit / 2 ^ 30 % 2 ^ 16 := by
  rw [State.showGov, State.fld_setFld_other _ _ _ _ _ _ _ (by omega) (by omega), State.fld_setFld _ _ _ _ _ (by omega)]

/-- The second before a tick is counted as paced where PACED is set (R341; log entry 41). -/
def State.countPaced (s : State) : State := if s.bit 0x180004 16 then s.count 0x230060 (10 ^ 6) else s

theorem State.countPaced_frame (s : State) : ∃ e, s.countPaced = { s with ev := e } := by
  rw [State.countPaced]
  split
  · exact ⟨_, rfl⟩
  · exact ⟨s.ev, rfl⟩

theorem State.countPaced_counter (s : State) :
    s.countPaced.counter 0x230060 = s.counter 0x230060 + (if s.bit 0x180004 16 then 10 ^ 6 else 0) := by
  rw [State.countPaced]
  split
  · exact s.counter_count 0x230060 (10 ^ 6) 0x230060
  · exact (BitVec.add_zero _).symm

/-- A tick sets RATE, grants it up to the depth, and shows the credit (R337, R340). -/
theorem exec_governorTick (s : State) (a b : Nat) : ∃ rate, exec (.governorTick a b) s
    = .next ({ s.countPaced with govRate := rate, govCredit := min (s.govCredit + rate) (s.fld 0x180000 8 8 * 2 ^ 36) } : State).showGov := by
  obtain ⟨hcredit, hdepth⟩ : s.countPaced.govCredit = s.govCredit ∧ s.countPaced.fld 0x180000 8 8 = s.fld 0x180000 8 8 := by
    obtain ⟨e, he⟩ := s.countPaced_frame
    rw [he]
    exact ⟨rfl, rfl⟩
  rw [← hcredit, ← hdepth]
  exact ⟨_, rfl⟩

/-! ## Objects -/

/-- The first of a list that passes a test, once all that pass it are replaced by one that does. -/
theorem find?_map_replaced {α : Type} {p : α → Bool} {l : List α} {x y : α} (h : l.find? p = some x) (hy : p y = true) :
    (l.map (fun z => if p z then y else z)).find? p = some y := by
  have htest : (p ∘ fun z => if p z then y else z) = p := by
    funext z
    by_cases hz : p z <;> simp [hz, hy]
  rw [List.find?_map, htest, h, Option.map_some, if_pos (List.find?_some h)]

/-- An object put in place of one of its function is found as it was put (R334). -/
theorem State.tobj?_setTobj {s : State} {f obj : Nat} {o o' : TObj} (h : s.tobj? f obj = some o) (hobj : o'.obj = o.obj) (hown : o'.owner = o.owner) :
    (s.setTobj o').tobj? f obj = some o' := by
  have hkey := List.find?_some h
  simp only [Bool.and_eq_true, beq_iff_eq] at hkey
  obtain ⟨rfl, rfl⟩ := hkey
  rw [← hobj, ← hown] at h ⊢
  have hin : (s.tobj? o'.owner o'.obj).isSome = true := by rw [h]; rfl
  rw [State.setTobj, if_pos hin]
  exact find?_map_replaced h (by simp)

/-! ## Retired blocks (R335, R338) -/

/-- A block is counted as retired, and RETIRED_PERMIL shows it (R338). -/
def State.retireBlock (s : State) : State :=
  (s.count 0x230050).setFld 0x18000C 16 16 (((s.count 0x230050).counter 0x230050).toNat * 2 ^ 23 * 1000 / rawBytes)

/-- What becomes of the page that was being read when the block failed (R338). -/
def State.pageFound (s : State) : PageFinding → State
  | .staged => s
  | .rebuilt => s.count 0x230058
  | .lost f obj => s.loseVersion f obj.toNat

/-- From s to t neither pooled memory nor the tier's objects and counters change. -/
def State.TierCalm (s t : State) : Prop := t.pool = s.pool ∧ t.tier = s.tier ∧ State.TierCounts s t

theorem State.raise_tierCalm (s : State) (f : Nat) (c : FCode) (q : Nat) (eseq : Word) (a b x d : Nat) :
    State.TierCalm s (s.raise f c q eseq a b x d) := by
  obtain ⟨hpool, -, -, -, -, -, htier⟩ := s.raise_calm f c q eseq a b x d
  exact ⟨hpool, htier, s.raise_tierCounts f c q eseq a b x d⟩

/-- A capacity that falls is told, and raises a fault (R335). -/
def State.capTo (s : State) (avail : Nat) : State :=
  if avail < s.fld 0x18000C 0 16 then (s.setFld 0x18000C 0 16 avail).raise 0 nvCapacityReduced noQueue 0 avail 0 0 else s

theorem State.capTo_tierCalm (s : State) (avail : Nat) : State.TierCalm s (s.capTo avail) := by
  rw [State.capTo]
  split
  · obtain ⟨hpool, htier, hcount⟩ := (s.setFld 0x18000C 0 16 avail).raise_tierCalm 0 nvCapacityReduced noQueue 0 avail 0 0 0
    exact ⟨hpool, htier, hcount.after rfl⟩
  · exact ⟨rfl, rfl, .refl s⟩

theorem exec_nandBlockFail (s : State) (b : Nat) (pg : PageFinding) (avail : Nat) :
    exec (.nandBlockFail b pg avail) s = .next ((s.retireBlock.pageFound pg).capTo avail) := by
  cases pg <;> rfl

/-- A version that is lost is counted, and the one before it becomes current (R338). -/
theorem State.loseVersion_spec (s : State) (f obj : Nat) :
    (s.loseVersion f obj).pool = s.pool ∧ (s.loseVersion f obj).counter 0x230050 = s.counter 0x230050
    ∧ ∀ o v, s.tobj? f obj = some o → o.cur = some v →
      (s.loseVersion f obj).tobj? f obj = some { o with cur := o.prev, prev := none }
      ∧ (s.loseVersion f obj).counter 0x230068 = s.counter 0x230068 + 1 := by
  rw [State.loseVersion]
  cases ho : s.tobj? f obj with
  | none => exact ⟨rfl, rfl, fun o v h => nomatch h⟩
  | some o => cases hv : o.cur with
    | none =>
      refine ⟨by simp [hv], by simp [hv], fun o' v h hv' => ?_⟩
      cases h
      exact absurd (hv.symm.trans hv') nofun
    | some v =>
      simp only [hv]
      obtain ⟨hpool, htier, hcount⟩ := ((s.setTobj { o with cur := o.prev, prev := none }).count 0x230068).raise_tierCalm
        f nvVersionLost noQueue 0 obj v.step.toNat 0 0
      refine ⟨hpool, (hcount _ (by omega) (by omega)).trans ?_, fun o' v' h hv' => ⟨?_, (hcount _ (by omega) (by omega)).trans ?_⟩⟩
      · rw [State.counter_count, if_neg (by decide)]
        rfl
      · cases h
        rw [State.tobj?, htier]
        exact State.tobj?_setTobj ho rfl rfl
      · rw [State.counter_count, if_pos rfl]
        rfl

/-- The counters and the objects of the tier after a block has been retired (R338). -/
theorem State.retireBlock_frame (s : State) :
    s.retireBlock.pool = s.pool ∧ s.retireBlock.tier = s.tier ∧ ∀ a, s.retireBlock.counter a = if a = 0x230050 then s.counter a + 1 else s.counter a := by
  refine ⟨rfl, rfl, fun a => ?_⟩
  have hcount : s.retireBlock.counter a = (s.count 0x230050).counter a := rfl
  rw [hcount, State.counter_count]
  split
  next ha => rw [ha]; rfl
  next => rfl

/-- What a retired block leaves of the tier, by what became of its page (R338). -/
theorem State.retireBlock_pageFound (s : State) (pg : PageFinding) :
    let t := s.retireBlock.pageFound pg
    t.counter 0x230050 = s.counter 0x230050 + 1 ∧ t.pool = s.pool
    ∧ (pg = .staged → t.tier = s.tier ∧ t.counter 0x230058 = s.counter 0x230058)
    ∧ (pg = .rebuilt → t.tier = s.tier ∧ t.counter 0x230058 = s.counter 0x230058 + 1)
    ∧ ∀ f obj o v, pg = .lost f obj → s.tobj? f obj.toNat = some o → o.cur = some v →
      t.tobj? f obj.toNat = some { o with cur := o.prev, prev := none } ∧ t.counter 0x230068 = s.counter 0x230068 + 1 := by
  intro t
  obtain ⟨hpool, htier, hcount⟩ := s.retireBlock_frame
  have hretired : s.retireBlock.counter 0x230050 = s.counter 0x230050 + 1 := by rw [hcount, if_pos rfl]
  have hkept : ∀ a, a ≠ 0x230050 → s.retireBlock.counter a = s.counter a := fun a ha => by rw [hcount, if_neg ha]
  cases pg with
  | staged => exact ⟨hretired, hpool, fun _ => ⟨htier, hkept _ (by decide)⟩, nofun, nofun⟩
  | rebuilt =>
    refine ⟨?_, hpool, nofun, fun _ => ⟨htier, ?_⟩, nofun⟩
    · exact (State.counter_count _ _ _ _).trans ((if_neg (by decide)).trans hretired)
    · exact (State.counter_count _ _ _ _).trans ((if_pos rfl).trans (congrArg (· + 1) (hkept _ (by decide))))
  | lost f obj =>
    obtain ⟨hpool', hretired', hlost⟩ := s.retireBlock.loseVersion_spec f obj.toNat
    refine ⟨hretired'.trans hretired, hpool'.trans hpool, nofun, nofun, fun f' obj' o v hpg ho hv => ?_⟩
    cases hpg
    obtain ⟨hfound, hone⟩ := hlost o v (by rw [State.tobj?, htier]; exact ho) hv
    exact ⟨hfound, hone.trans (congrArg (· + 1) (hkept _ (by decide)))⟩

/-! ## NV commands (R343, R443) -/

/-- NV_CMD is acted on while no command runs and the tier is ready. -/
theorem State.nvCmd_ready {s : State} {f : Nat} (op : Nat) (k : State → State) (hgo : s.bit (page f 0x1214) 31 = false) (hready : s.nvReady = true) :
    s.nvCmd f op k = k (s.setFld (page f 0x1214) 0 2 op) :=
  (s.nvCmd_spec f op k).2.1 hgo hready

theorem State.nvQueryAct_found {s : State} {f : Nat} {v : TVer} (hv : s.nvVersion f = some v) :
    s.nvQueryAct f = ((s.setReg64 (page f 0x1220) (BitVec.ofNat 64 v.data.length)).setReg64 (page f 0x1228) v.step).nvDone f 1 := by
  rw [State.nvQueryAct, hv]

/-- RESTORE goes to pooled memory of a node, by its number or its form 3 (R343). -/
theorem State.nvRestoreAct_found {s : State} {f : Nat} {v : TVer} (hv : s.nvVersion f = some v) :
    let d := s.reg64 (page f 0x1208)
    (raForm d = 0 ∨ raForm d = 3) → raSpace d = 0 → (raForm d = 3 → raNode d = 0) → s.nvRestoreAct f = (s.nvRestore f v).settle := by
  intro d hform hspace hnode
  have hgood : ¬((raForm d != 0 && raForm d != 3) || raSpace d != 0 || (raForm d == 3 && raNode d != 0)) = true := by
    rcases hform with h | h
    · simp [h, hspace]
    · simp [h, hspace, hnode h]
  rw [State.nvRestoreAct, hv]
  exact if_neg hgood

/-- DELETE of a current version, which no restore reads, makes the previous one current (R343). -/
theorem State.nvDeleteAct_current {s : State} {f : Nat} {o : TObj} (ho : s.nvObj f = some o) (hidle : s.restores = []) (hprev : s.nvPrev f = false)
    (hcur : o.cur ≠ none) : s.nvDeleteAct f = (s.setTobj { o with cur := o.prev, prev := none }).nvDone f 1 := by
  have hsome : o.cur.isNone = false := Option.isNone_eq_false_iff.2 (Option.isSome_iff_ne_none.2 hcur)
  simp [State.nvDeleteAct, ho, hidle, hprev, hsome]

/-- A fold whose every step leaves the state. -/
theorem foldl_fixed_of_mem {α β : Type} {step : α → β → α} {a : α} {l : List β} (h : ∀ b ∈ l, step a b = a) : l.foldl step a = a := by
  induction l with
  | nil => rfl
  | cons b l ih => rw [List.foldl_cons, h b List.mem_cons_self, ih fun c hc => h c (List.mem_cons_of_mem b hc)]

/-- NV_READY is told; where no NV_CMD waits for it, nothing else changes (R333, R443). -/
theorem exec_nvReady {s : State} (hready : s.nvReady = false) (hidle : ∀ f, f < 256 → s.bit (page f 0x1214) 31 = false) :
    exec .nvReady s = .next ((s.setFld 0x200 17 1 1).bumpSeq 0x200).settle := by
  have hpage : ∀ f, page f 0x1214 ≠ 0x200 := fun f => by rw [page]; omega
  have hgo : ∀ f ∈ List.range 256, ((s.setFld 0x200 17 1 1).bumpSeq 0x200).bit (page f 0x1214) 31 = false := by
    intro f hf
    rw [State.bit, State.bumpSeq, State.fld_setFld_ne _ _ _ _ _ _ _ _ (hpage f), State.fld_setFld_ne _ _ _ _ _ _ _ _ (hpage f)]
    exact hidle f (List.mem_range.1 hf)
  refine congrArg Outcome.next ((if_neg (Bool.eq_false_iff.1 hready)).trans (congrArg State.settle (foldl_fixed_of_mem fun f hf => ?_)))
  simp [hgo f hf]

/-- Settles O45: the tier's commands, each in the branch of its meaning that the hypotheses select.
(R80, R333, R334, R335, R337, R338, R340, R341, R343, R443, R459) -/
theorem tierCommands : Obligations.TierCommands := by
  intro s
  refine ⟨?durable, ?tick, ?scan, ?paused, ?block, ?query, ?restore, ?delete, ?ready⟩
  case durable => exact fun obj o rid v rest r hfind hw hcool => exec_persDurable hfind hw hcool
  case tick =>
    intro a b
    obtain ⟨rate, hexec⟩ := exec_governorTick s a b
    refine ⟨_, hexec, ?frame, ?counter, rfl, State.showGov_credit _⟩
    case frame =>
      obtain ⟨e, he⟩ := s.countPaced_frame
      rw [he]
      rfl
    case counter => exact s.countPaced_counter
  case scan =>
    intro b
    obtain ⟨hcool, -, hclean⟩ := exec_retentionScan s b
    exact ⟨hcool, hclean⟩
  case paused =>
    intro hhot
    refine ⟨fun obj => exec_persDurable_paused obj hhot, fun b => ?_⟩
    obtain ⟨-, hpaused, -⟩ := exec_retentionScan s b
    exact hpaused hhot
  case block =>
    intro b pg avail
    obtain ⟨hpool, htier, hcount⟩ := (s.retireBlock.pageFound pg).capTo_tierCalm avail
    obtain ⟨hretired, hpool', hstaged, hrebuilt, hlost⟩ := s.retireBlock_pageFound pg
    refine ⟨_, exec_nandBlockFail s b pg avail, (hcount _ (by omega) (by omega)).trans hretired, hpool.trans hpool', fun h => ?_, fun h => ?_,
      fun f obj o v h ho hv => ?_⟩
    · obtain ⟨ht, hc⟩ := hstaged h
      exact ⟨htier.trans ht, (hcount _ (by omega) (by omega)).trans hc⟩
    · obtain ⟨ht, hc⟩ := hrebuilt h
      exact ⟨htier.trans ht, (hcount _ (by omega) (by omega)).trans hc⟩
    · obtain ⟨ht, hc⟩ := hlost f obj o v h ho hv
      refine ⟨?_, (hcount _ (by omega) (by omega)).trans hc⟩
      rw [State.tobj?, htier]
      exact ht
  case query =>
    exact fun f v hgo hready hv => congrArg Outcome.next ((State.nvCmd_ready 0 _ hgo hready).trans (State.nvQueryAct_found hv))
  case restore =>
    exact fun f v hgo hready hv hform hspace hnode =>
      congrArg Outcome.next ((State.nvCmd_ready 1 _ hgo hready).trans (State.nvRestoreAct_found hv hform hspace hnode))
  case delete =>
    exact fun f o hgo hready ho hidle hprev hcur =>
      congrArg Outcome.next ((State.nvCmd_ready 2 _ hgo hready).trans (State.nvDeleteAct_current ho hidle hprev hcur))
  case ready => exact exec_nvReady

end Sys2Proof.Machine
end

section
/-! PROOFS. Doorbells and counter slots: which queue or counter they reach, and what an index or a value does there (R100, R101, R107 to R109). -/

namespace Sys2Proof.Machine

open Host (Outcome)

/-! ## Doorbells (R101) -/

/-- A doorbell of a function that is reset, or of a node that has bound off, is counted (R115, R300). -/
theorem State.bell_stopped {s : State} {f q g : Nat} (k : State → Nat → State) (hg : s.globalQ f q = some g) (hqueue : (s.queue g).created = true)
    (hstop : s.resetting f = true ∨ s.boundOff = true) : s.bell f q k = s.count (page f 0x2008) := by
  have hgate : (s.resetting f || s.boundOff) = true := by simpa using hstop
  simp [State.bell, hg, hqueue, hgate]

theorem exec_dbPi {s t : State} {f q : Nat} {v : Word} (h : s.bell f q (fun u g => u.bellPi f g v) = t) : exec (.dbPi f q v) s = .next t :=
  congrArg Outcome.next h

theorem exec_dbCci {s t : State} {f q : Nat} {v : Word} (h : s.bell f q (fun u g => u.bellCci f g v) = t) : exec (.dbCci f q v) s = .next t.settle :=
  congrArg (fun u => Outcome.next (State.settle u)) h

/-- What becomes of an index v where x stands: it does not advance, it claims too much, or it is taken (R101). -/
theorem index_spec {α : Type} (v x : Word) (excess : Prop) [Decidable excess] (stays beyond taken : α) :
    let r := if v - x = 0 ∨ (v - x).toNat ≥ 2 ^ 31 then stays else if excess then beyond else taken
    ((v = x ∨ 2 ^ 31 ≤ (v - x).toNat) → r = stays) ∧ (v ≠ x → (v - x).toNat < 2 ^ 31 → excess → r = beyond)
    ∧ (v ≠ x → (v - x).toNat < 2 ^ 31 → ¬excess → r = taken) := by
  have hadvances : v ≠ x → (v - x).toNat < 2 ^ 31 → ¬(v - x = 0 ∨ (v - x).toNat ≥ 2 ^ 31) :=
    fun hne hadv => not_or.2 ⟨sub_ne_zero.2 hne, Nat.not_le.2 hadv⟩
  exact ⟨fun hstay => if_pos (hstay.imp_left sub_eq_zero.2), fun hne hadv hover => (if_neg (hadvances hne hadv)).trans (if_pos hover),
    fun hne hadv hfits => (if_neg (hadvances hne hadv)).trans (if_neg hfits)⟩

/-- A producer index: one that does not advance is counted, one beyond the ring's size is counted and told, any other is taken. -/
theorem State.bellPi_spec (s : State) (f g : Nat) (v : Word) :
    let x := s.queue g
    ((v = x.dbpi ∨ 2 ^ 31 ≤ (v - x.dbpi).toNat) → s.bellPi f g v = s.count (page f 0x2000))
    ∧ (v ≠ x.dbpi → (v - x.dbpi).toNat < 2 ^ 31 → qRingSize x.desc < (v - x.fetch).toNat → s.bellPi f g v
      = (s.count (page f 0x2008)).raise f doorbellInvalid (s.relQ g) 0 (v.toNat + x.fetch.toNat * 2 ^ 32) 0 0)
    ∧ (v ≠ x.dbpi → (v - x.dbpi).toNat < 2 ^ 31 → (v - x.fetch).toNat ≤ qRingSize x.desc →
      s.bellPi f g v = s.setQueue g { x with dbpi := v, bells := x.bells ++ [(v, s.time)] }) := by
  intro x
  obtain ⟨hstays, hbeyond, htaken⟩ := index_spec v x.dbpi ((v - x.fetch).toNat > qRingSize x.desc) (s.count (page f 0x2000)) _ _
  exact ⟨hstays, hbeyond, fun hne hadv hfits => htaken hne hadv (Nat.not_lt.2 hfits)⟩

/-- A completion consumer index likewise, against the completion ring. -/
theorem State.bellCci_spec (s : State) (f g : Nat) (v : Word) :
    let x := s.queue g
    ((v = x.cci ∨ 2 ^ 31 ≤ (v - x.cci).toNat) → s.bellCci f g v = s.count (page f 0x2000))
    ∧ (v ≠ x.cci → (v - x.cci).toNat < 2 ^ 31 → qCringSize x.desc < (x.cpi - v).toNat → s.bellCci f g v
      = (s.count (page f 0x2008)).raise f doorbellInvalid (s.relQ g) 0 (v.toNat + x.cpi.toNat * 2 ^ 32) 1 0)
    ∧ (v ≠ x.cci → (v - x.cci).toNat < 2 ^ 31 → (x.cpi - v).toNat ≤ qCringSize x.desc → s.bellCci f g v = s.setQueue g { x with cci := v }) := by
  intro x
  obtain ⟨hstays, hbeyond, htaken⟩ := index_spec v x.cci ((x.cpi - v).toNat > qCringSize x.desc) (s.count (page f 0x2000)) _ _
  exact ⟨hstays, hbeyond, fun hne hadv hfits => htaken hne hadv (Nat.not_lt.2 hfits)⟩

/-- Settles O21: the queue that a doorbell reaches, and then its index. (R101, R115, R300, R424) -/
theorem doorbellRules : Obligations.DoorbellRules := by
  intro s f q v
  refine ⟨fun hnone => ⟨exec_dbPi ((s.bell_spec f q _).1 hnone), exec_dbCci ((s.bell_spec f q _).1 hnone)⟩, fun g hg => ?_⟩
  intro x
  refine ⟨fun hx => ?noQueue, fun hx hstop => ?stopped, fun hx hreset hbound => ?reached⟩
  case noQueue => exact ⟨exec_dbPi (((s.bell_spec f q _).2 g hg).1 hx), exec_dbCci (((s.bell_spec f q _).2 g hg).1 hx)⟩
  case stopped => exact ⟨exec_dbPi (State.bell_stopped _ hg hx hstop), exec_dbCci (State.bell_stopped _ hg hx hstop)⟩
  case reached =>
    have hpi := ((s.bell_spec f q (fun u g => u.bellPi f g v)).2 g hg).2 hx hreset hbound
    have hcci := ((s.bell_spec f q (fun u g => u.bellCci f g v)).2 g hg).2 hx hreset hbound
    obtain ⟨hpiStays, hpiBeyond, hpiTaken⟩ := s.bellPi_spec f g v
    obtain ⟨hcciStays, hcciBeyond, hcciTaken⟩ := s.bellCci_spec f g v
    exact ⟨fun h => exec_dbPi (hpi.trans (hpiStays h)), fun h h' h'' => exec_dbPi (hpi.trans (hpiBeyond h h' h'')),
      fun h h' h'' => exec_dbPi (hpi.trans (hpiTaken h h' h'')), fun h => exec_dbCci (hcci.trans (hcciStays h)),
      fun h h' h'' => exec_dbCci (hcci.trans (hcciBeyond h h' h'')), fun h h' h'' => exec_dbCci (hcci.trans (hcciTaken h h' h''))⟩

/-! ## Counter slots (R107, R109) -/

/-- A written word without a reserved bit is not counted (R409). -/
theorem State.slotReserved_clear (s : State) {v rsv : DWord} (h : v &&& rsv = 0) : s.slotReserved v rsv = s := if_pos h

/-- A word whose bit 63 is clear has none of the bits that an addition reserves. -/
theorem and_errBit_of_clear {v : DWord} (h : v.getLsbD 63 = false) : v &&& (1#64 <<< 63) = 0 := by
  refine BitVec.eq_of_getLsbD_eq fun k _ => ?_
  rw [BitVec.getLsbD_and, getLsbD_errBit]
  by_cases hk : k = 63
  · rw [hk, h]; rfl
  · simp [hk]

theorem exec_cntAdd (s : State) (f c : Nat) (part : SlotPart) {v : DWord} (h : (slotReplace part 0 v).getLsbD 63 = false) :
    exec (.cntAdd f c part v) s = .next (s.slotWrite f c (fun x => rowAdd x (slotReplace part 0 v))) :=
  congrArg (fun u => Outcome.next (State.slotWrite u f c _)) (s.slotReserved_clear (and_errBit_of_clear h))

/-- The words that set ERR, clear it, and ask for both (R107, R109). -/
theorem State.slotMark_spec (s : State) (f c : Nat) :
    s.slotMark f c 1 = s.slotWrite f c (fun x => rowMark x true false) ∧ s.slotMark f c 2 = s.slotWrite f c (fun x => rowMark x false true)
    ∧ s.slotMark f c 3 = s.count (page f 0x2010) := ⟨rfl, rfl, rfl⟩

/-- Settles O23: a slot within the grant, one outside it, and the word that marks and clears at once. (R107, R108, R109) -/
theorem counterSlots : Obligations.CounterSlots := by
  intro s f c
  obtain ⟨hset, hclear, hboth⟩ := s.slotMark_spec f c
  have hwrite := s.slotWrite_spec f c
  refine ⟨fun n hn => ?within, fun hnone => ?outside, congrArg Outcome.next hboth, congrArg Outcome.next hboth⟩
  case within =>
    exact ⟨fun part v => congrArg Outcome.next ((hwrite _).2 n hn),
      fun part v hv => (exec_cntAdd s f c part hv).trans (congrArg Outcome.next ((hwrite _).2 n hn)),
      congrArg Outcome.next (hset.trans ((hwrite _).2 n hn)), congrArg Outcome.next (hclear.trans ((hwrite _).2 n hn))⟩
  case outside =>
    exact ⟨fun part v => congrArg Outcome.next ((hwrite _).1 hnone), congrArg Outcome.next (hset.trans ((hwrite _).1 hnone)),
      congrArg Outcome.next (hclear.trans ((hwrite _).1 hnone))⟩

end Sys2Proof.Machine
end

section
/-! PROOFS. Registers of a function's page: reading one of them after writes of others, and a list of registers written in turn (R94, R408). -/

namespace Sys2Proof.Machine

/-- Registers of one page are told apart by their offsets. -/
@[simp] theorem page_inj (f a b : Nat) : page f a = page f b ↔ a = b := by
  rw [page, page]
  omega

theorem page_ne {f a b : Nat} (h : a ≠ b) : page f a ≠ page f b := mt (page_inj f a b).1 h

/-- The registers of a function's grant lie below its page (R374, R408). -/
theorem grant_ne_page (f off a : Nat) (hoff : off < 0x40) : 0x1B0000 + 0x40 * f + off ≠ page f a := by
  rw [page]
  omega

theorem State.reg_setReg_ne (s : State) {a b : Nat} (v : Word) (h : b ≠ a) : (s.setReg a v).reg b = s.reg b := by
  rw [State.reg_setReg, if_neg h]

theorem State.reg_setFld_ne (s : State) {a b : Nat} (lo w v : Nat) (h : b ≠ a) : (s.setFld a lo w v).reg b = s.reg b := s.reg_setReg_ne _ h

/-- A register write to a state that differs from s in its registers leaves one that does. -/
theorem State.setReg_of_regs {s u : State} (h : ∃ rs, u = { s with regs := rs }) (a : Nat) (v : Word) : ∃ rs, u.setReg a v = { s with regs := rs } := by
  obtain ⟨rs, rfl⟩ := h
  exact ⟨_, rfl⟩

/-- A state that differs from s in its registers is s with other registers. -/
theorem State.frame_of_regs {s u : State} (h : ∃ rs, u = { s with regs := rs }) : { u with regs := s.regs } = s := by
  obtain ⟨rs, rfl⟩ := h
  rfl

/-- Two changes of the registers are one. -/
theorem State.regs_trans {s u t : State} (h : ∃ rs, u = { s with regs := rs }) (k : ∃ rs, t = { u with regs := rs }) :
    ∃ rs, t = { s with regs := rs } := by
  obtain ⟨rs, rfl⟩ := h
  obtain ⟨rs', rfl⟩ := k
  exact ⟨rs', rfl⟩

/-- The registers a i, for each i of a list, written in turn with the values v i. -/
def State.setRegs {ι : Type} (s : State) (l : List ι) (a : ι → Nat) (v : ι → Word) : State := l.foldl (fun u i => u.setReg (a i) (v i)) s

theorem State.setRegs_frame {ι : Type} (s : State) (l : List ι) (a : ι → Nat) (v : ι → Word) : ∃ rs, s.setRegs l a v = { s with regs := rs } := by
  induction l generalizing s with
  | nil => exact ⟨s.regs, rfl⟩
  | cons i l ih =>
    obtain ⟨rs, hrs⟩ := ih (s.setReg (a i) (v i))
    exact ⟨rs, hrs⟩

theorem State.reg_setRegs_ne {ι : Type} (s : State) {l : List ι} {a : ι → Nat} (v : ι → Word) {b : Nat} (h : ∀ i ∈ l, b ≠ a i) :
    (s.setRegs l a v).reg b = s.reg b := by
  induction l generalizing s with
  | nil => rfl
  | cons i l ih =>
    exact (ih (s.setReg (a i) (v i)) fun j hj => h j (List.mem_cons_of_mem i hj)).trans (s.reg_setReg_ne _ (h i List.mem_cons_self))

/-- Registers at different addresses read as they were written. -/
theorem State.reg_setRegs {ι : Type} (s : State) {l : List ι} {a : ι → Nat} (v : ι → Word) (hdiff : l.Pairwise (fun i j => a i ≠ a j)) {i : ι}
    (hi : i ∈ l) : (s.setRegs l a v).reg (a i) = v i := by
  induction l generalizing s with
  | nil => exact absurd hi List.not_mem_nil
  | cons j l ih =>
    obtain ⟨hj, hdiff⟩ := List.pairwise_cons.1 hdiff
    rcases List.mem_cons.1 hi with rfl | hi
    · refine (State.reg_setRegs_ne _ v hj).trans ?_
      rw [State.reg_setReg, if_pos rfl]
    · exact ih (s.setReg (a j) (v j)) hdiff hi

end Sys2Proof.Machine
end

section
/-! PROOFS. Queue commands: QUEUE_CMD and its status, the descriptor's words, and what each of the four does (R94 to R97, R386). -/

namespace Sys2Proof.Machine

open Host (Outcome)

/-! ## The descriptor in QUEUE_DESC (R94) -/

/-- An entry put together of words, bit by bit. -/
theorem getLsbD_entryOfWords (w : Nat → Word) (n k : Nat) (hk : k < 512) :
    ((List.range n).foldl (fun (e : Entry) i => e ||| ((w i).setWidth 512 <<< (32 * i))) 0).getLsbD k
      = (decide (k < 32 * n) && (w (k / 32)).getLsbD (k % 32)) := by
  induction n with
  | zero => simp
  | succ n ih =>
    rw [List.range_succ, List.foldl_concat, BitVec.getLsbD_or, ih, BitVec.getLsbD_shiftLeft, BitVec.getLsbD_setWidth]
    rcases Nat.lt_trichotomy (k / 32) n with h | h | h
    · have hin : k < 32 * n := by omega
      have hin' : k < 32 * (n + 1) := by omega
      simp [hin, hin']
    · have hout : ¬k < 32 * n := by omega
      have hin : k < 32 * (n + 1) := by omega
      have hbit : k - 32 * n = k % 32 := by omega
      have hlt : k % 32 < 512 := by omega
      simp [hout, hin, hk, hbit, hlt, h]
    · have hout : ¬k < 32 * n := by omega
      have hout' : ¬k < 32 * (n + 1) := by omega
      have hbeyond : (w n).getLsbD (k - 32 * n) = false := BitVec.getLsbD_of_ge _ _ (by omega)
      simp [hout, hout', hbeyond]

/-- A descriptor whose words stand in QUEUE_DESC is what it holds. -/
theorem State.queueDesc_of_words {s : State} {f : Nat} {d : Entry} (h : ∀ i < 16, s.reg (page f (0x1000 + 4 * i)) = d.extractLsb' (32 * i) 32) :
    s.queueDesc f = d := by
  refine BitVec.eq_of_getLsbD_eq fun k hk => ?_
  rw [State.queueDesc, getLsbD_entryOfWords (fun i => s.reg (page f (0x1000 + 4 * i))) 16 k hk, h (k / 32) (by omega), BitVec.getLsbD_extractLsb',
    Nat.div_add_mod]
  have hbit : k % 32 < 32 := by omega
  simp [hk, hbit]

theorem State.queueDesc_congr {s t : State} {f : Nat} (h : ∀ i < 16, t.reg (page f (0x1000 + 4 * i)) = s.reg (page f (0x1000 + 4 * i))) :
    t.queueDesc f = s.queueDesc f := by
  refine List.foldl_ext _ _ _ fun e i hi => ?_
  rw [h i (List.mem_range.1 hi)]

/-- Words of a descriptor are written to QUEUE_DESC alone. -/
theorem State.setQueueDesc_spec (s : State) (f : Nat) (d : Entry) :
    (∃ rs, s.setQueueDesc f d = { s with regs := rs }) ∧ (∀ i < 16, (s.setQueueDesc f d).reg (page f (0x1000 + 4 * i)) = d.extractLsb' (32 * i) 32)
    ∧ ∀ a, 0x1040 ≤ a → (s.setQueueDesc f d).reg (page f a) = s.reg (page f a) := by
  refine ⟨s.setRegs_frame _ _ _, fun i hi => ?words, fun a ha => ?others⟩
  case words =>
    refine s.reg_setRegs (a := fun i => page f (0x1000 + 4 * i)) _ ?_ (List.mem_range.2 hi)
    exact List.nodup_range.imp fun hne => page_ne (by omega)
  case others =>
    refine s.reg_setRegs_ne _ fun i hi => page_ne ?_
    have := List.mem_range.1 hi
    omega

/-- The registers of R97 in one write each: the words of the descriptor, the four indices, and nothing of QUEUE_CMD_STATUS. -/
theorem State.fillQuery_spec (s : State) (f g : Nat) :
    let t := s.fillQuery f g
    (∃ rs, t = { s with regs := rs }) ∧ t.queueDesc f = (s.queue g).desc ∧ t.reg (page f 0x1048) = (s.queue g).fetch
    ∧ t.reg (page f 0x104C) = (s.queue g).dbpi ∧ t.reg (page f 0x1050) = (s.queue g).cpi ∧ t.reg (page f 0x1054) = (s.queue g).cci
    ∧ t.reg (page f 0x1044) = s.reg (page f 0x1044) := by
  intro t
  obtain ⟨⟨rs, hrs⟩, hwords, hothers⟩ := s.setQueueDesc_spec f (s.queue g).desc
  have hbelow : ∀ a, a < 0x1048 → t.reg (page f a) = (s.setQueueDesc f (s.queue g).desc).reg (page f a) := by
    intro a ha
    have hne : a ≠ 0x1048 ∧ a ≠ 0x104C ∧ a ≠ 0x1050 ∧ a ≠ 0x1054 ∧ a ≠ 0x1058 ∧ a ≠ 0x105C := by omega
    simp only [t, State.fillQuery, State.reg_setReg, page_inj, hne, if_false]
  refine ⟨?frame, State.queueDesc_of_words fun i hi => ?words, ?fetch, ?dbpi, ?cpi, ?cci, ?status⟩
  case frame =>
    exact State.setReg_of_regs (State.setReg_of_regs (State.setReg_of_regs (State.setReg_of_regs (State.setReg_of_regs (State.setReg_of_regs
      ⟨rs, hrs⟩ _ _) _ _) _ _) _ _) _ _) _ _
  case words => rw [hbelow _ (by omega), hwords i hi]
  case status => rw [hbelow _ (by omega), hothers _ (by omega)]
  all_goals simp [t, State.fillQuery]

/-! ## QUEUE_CMD and its status (R94, R95) -/

/-- QUEUE_CMD is the one register that a queue command's own write changes. -/
theorem State.reg_queueCmd_ne (s : State) (f q op : Nat) {b : Nat} (h : b ≠ page f 0x1040) : (s.queueCmd f q op).reg b = s.reg b := by
  rw [State.queueCmd, State.reg_setFld_ne _ _ _ _ h, State.reg_setFld_ne _ _ _ _ h, State.reg_setFld_ne _ _ _ _ h]

theorem State.qbase_queueCmd (s : State) (f q op : Nat) : (s.queueCmd f q op).qbase f = s.qbase f := by
  rw [State.qbase, State.grant, State.fld, s.reg_queueCmd_ne f q op (grant_ne_page f 0 _ (by decide))]
  rfl

theorem State.queueDesc_queueCmd (s : State) (f q op : Nat) : (s.queueCmd f q op).queueDesc f = s.queueDesc f :=
  State.queueDesc_congr fun _ _ => s.reg_queueCmd_ne f q op (page_ne (by omega))

/-- RESULT has four bits. -/
theorem State.queueResult_lt (s : State) (f q op : Nat) (reach : Bool) : s.queueResult f q op reach < 16 := by
  simp only [State.queueResult]
  repeat' split
  all_goals decide

theorem State.queueCmd_frame (s : State) (f q op : Nat) : ∃ rs, s.queueCmd f q op = { s with regs := rs } :=
  State.setFld_of_regs (State.setFld_of_regs (State.setFld_of_regs ⟨s.regs, rfl⟩ _ _ _ _) _ _ _ _) _ _ _ _

theorem State.queue_queueCmd (s : State) (f q op g : Nat) : (s.queueCmd f q op).queue g = s.queue g := by
  obtain ⟨rs, hcmd⟩ := s.queueCmd_frame f q op
  rw [hcmd]
  rfl

/-- A queue command's end tells its RESULT, and writes no other register (R94). -/
theorem State.queueDone_spec {s u : State} {f v : Nat} (hstatus : u.reg (page f 0x1044) = s.reg (page f 0x1044)) (hv : v < 16) :
    State.told s (u.queueDone f v) (page f 0x1044) v ∧ (∀ b, b ≠ page f 0x1044 → (u.queueDone f v).reg b = u.reg b)
    ∧ ∃ rs, u.queueDone f v = { u with regs := rs } := by
  obtain ⟨⟨hresult, hseq⟩, hothers⟩ := u.setResult_told (page f 0x1044) v hv
  have hcount : u.fld (page f 0x1044) 0 8 = s.fld (page f 0x1044) 0 8 := congrArg (extractBits · 0 8) hstatus
  exact ⟨⟨hresult, hseq.trans (by rw [hcount])⟩, hothers, State.setFld_of_regs (State.setFld_of_regs ⟨u.regs, rfl⟩ _ _ _ _) _ _ _ _⟩

/-! ## The four commands (R95, R96) -/

/-- A command that R95 does not answer DONE tells why, and does nothing else. -/
theorem State.queueCmd_refused (s : State) (f q op v : Nat) (hv : v < 16) :
    let t := (s.queueCmd f q op).queueDone f v
    { t with regs := s.regs } = s ∧ State.told s t (page f 0x1044) v := by
  intro t
  obtain ⟨htold, -, hdone⟩ := State.queueDone_spec (s.reg_queueCmd_ne f q op (page_ne (by decide))) hv
  exact ⟨State.frame_of_regs (State.regs_trans (s.queueCmd_frame f q op) hdone), htold⟩

/-- A queue put in place, and registers written besides. -/
theorem State.setQueue_of_regs {s t : State} {g : Nat} {x : Queue} (h : ∃ rs, t = { s.setQueue g x with regs := rs }) :
    (∀ k, t.queue k = if k = g then x else s.queue k) ∧ { t with regs := s.regs, queues := s.queues } = s := by
  obtain ⟨rs, rfl⟩ := h
  exact ⟨s.queue_setQueue g x, rfl⟩

/-- The end of a command that is DONE and has left x as queue g, in a state u that differs from that in its registers. -/
theorem State.queueDone_puts {s u : State} {f g : Nat} {x : Queue} (hu : ∃ rs, u = { s.setQueue g x with regs := rs })
    (hstatus : u.reg (page f 0x1044) = s.reg (page f 0x1044)) :
    let t := u.queueDone f 1
    State.told s t (page f 0x1044) 1 ∧ t.queue g = x ∧ (∀ k, k ≠ g → t.queue k = s.queue k) ∧ { t with regs := s.regs, queues := s.queues } = s
    ∧ ∀ b, b ≠ page f 0x1044 → t.reg b = u.reg b := by
  intro t
  obtain ⟨htold, hothers, hdone⟩ := State.queueDone_spec (v := 1) hstatus (by decide)
  obtain ⟨hqueue, hrest⟩ := State.setQueue_of_regs (State.regs_trans hu hdone)
  refine ⟨htold, ?_, fun k hk => ?_, hrest, hothers⟩
  · rw [hqueue, if_pos rfl]
  · rw [hqueue, if_neg hk]

/-- A command of function f has written QUEUE_CMD, and then x as queue g. -/
theorem State.setQueue_queueCmd (s : State) (f q op g : Nat) (x : Queue) :
    (∃ rs, (s.queueCmd f q op).setQueue g x = { s.setQueue g x with regs := rs })
    ∧ ∀ b, b ≠ page f 0x1040 → ((s.queueCmd f q op).setQueue g x).reg b = s.reg b := by
  obtain ⟨rs, hcmd⟩ := s.queueCmd_frame f q op
  exact ⟨⟨rs, by rw [hcmd]; rfl⟩, fun b hb => (((s.queueCmd f q op).setQueue_reads g x).1 b).trans (s.reg_queueCmd_ne f q op hb)⟩

/-- CREATE and MODIFY leave x as the queue that they name. -/
theorem State.queueCmd_puts (s : State) (f q op g : Nat) (x : Queue) :
    let t := ((s.queueCmd f q op).setQueue g x).queueDone f 1
    State.told s t (page f 0x1044) 1 ∧ t.queue g = x ∧ (∀ k, k ≠ g → t.queue k = s.queue k) ∧ { t with regs := s.regs, queues := s.queues } = s
    ∧ ∀ b, b ≠ page f 0x1040 → b ≠ page f 0x1044 → t.reg b = s.reg b := by
  obtain ⟨hframe, hreg⟩ := s.setQueue_queueCmd f q op g x
  obtain ⟨htold, hself, hother, hrest, hregs⟩ := State.queueDone_puts hframe (hreg _ (page_ne (by decide)))
  exact ⟨htold, hself, hother, hrest, fun b hcmd hstatus => (hregs b hstatus).trans (hreg b hcmd)⟩

/-- The monitors of a queue that goes are disabled in registers of their own (R386). -/
theorem State.monUnbind_spec (s : State) (f q : Nat) :
    (∃ rs, s.monUnbind f q = { s with regs := rs }) ∧ (s.monUnbind f q).reg (page f 0x1044) = s.reg (page f 0x1044) := by
  refine List.foldlRecOn (motive := fun u : State => (∃ rs, u = { s with regs := rs }) ∧ u.reg (page f 0x1044) = s.reg (page f 0x1044)) _ _
    ⟨⟨s.regs, rfl⟩, rfl⟩ fun u ⟨hframe, hreg⟩ m _ => ?_
  have hctl : page f 0x1044 ≠ monReg f m 0 := page_ne (by omega)
  have hstatus : page f 0x1044 ≠ monReg f m 0x28 := page_ne (by omega)
  have hdisabled := State.setFld_of_regs (State.setFld_of_regs hframe (monReg f m 0) 0 1 0) (monReg f m 0x28) 8 2 2
  rw [State.monDisable]
  split
  · split
    · exact ⟨hdisabled, by rw [State.reg_setFld_ne _ _ _ _ hstatus, State.reg_setFld_ne _ _ _ _ hctl, hreg]⟩
    · exact ⟨hframe, hreg⟩
  · exact ⟨hframe, hreg⟩

/-- DESTROY leaves no queue, and the queue's monitors disabled. -/
theorem State.queueCmd_removes (s : State) (f q op g : Nat) :
    let t := (((s.queueCmd f q op).setQueue g {}).monUnbind f q).queueDone f 1
    State.told s t (page f 0x1044) 1 ∧ t.queue g = {} ∧ ∀ k, k ≠ g → t.queue k = s.queue k := by
  obtain ⟨hframe, hreg⟩ := s.setQueue_queueCmd f q op g {}
  obtain ⟨hmon, hkept⟩ := ((s.queueCmd f q op).setQueue g {}).monUnbind_spec f q
  obtain ⟨htold, hself, hother, -⟩ := State.queueDone_puts (State.regs_trans hframe hmon) (hkept.trans (hreg _ (page_ne (by decide))))
  exact ⟨htold, hself, hother⟩

/-- QUERY fills the registers of R97 and changes nothing else. -/
theorem State.queueCmd_queries (s : State) (f q op g : Nat) :
    let t := ((s.queueCmd f q op).fillQuery f g).queueDone f 1
    State.told s t (page f 0x1044) 1 ∧ t.queueDesc f = (s.queue g).desc ∧ t.reg (page f 0x1048) = (s.queue g).fetch
    ∧ t.reg (page f 0x104C) = (s.queue g).dbpi ∧ t.reg (page f 0x1050) = (s.queue g).cpi ∧ t.reg (page f 0x1054) = (s.queue g).cci
    ∧ { t with regs := s.regs } = s := by
  intro t
  obtain ⟨hfill, hdesc, hfetch, hdbpi, hcpi, hcci, hkept⟩ := (s.queueCmd f q op).fillQuery_spec f g
  obtain ⟨htold, hothers, hdone⟩ := State.queueDone_spec (v := 1) (hkept.trans (s.reg_queueCmd_ne f q op (page_ne (by decide)))) (by decide)
  have hqueue := s.queue_queueCmd f q op g
  have hread : ∀ a, a ≠ 0x1044 → t.reg (page f a) = ((s.queueCmd f q op).fillQuery f g).reg (page f a) := fun a ha => hothers _ (page_ne ha)
  rw [hqueue] at hdesc hfetch hdbpi hcpi hcci
  refine ⟨htold, (State.queueDesc_congr fun i hi => hread _ (by omega)).trans hdesc, (hread _ (by decide)).trans hfetch,
    (hread _ (by decide)).trans hdbpi, (hread _ (by decide)).trans hcpi, (hread _ (by decide)).trans hcci, ?_⟩
  exact State.frame_of_regs (State.regs_trans (State.regs_trans (s.queueCmd_frame f q op) hfill) hdone)

section Done

variable {s : State} {f q : Nat}

theorem exec_queueQuery (h : (s.queueCmd f q 0).queueResult f q 0 true = 1) :
    exec (.queueQuery f q) s = .next (((s.queueCmd f q 0).fillQuery f (s.qbase f + q)).queueDone f 1) := by
  simp only [exec, execQueueQuery, h, if_true, State.qbase_queueCmd]

theorem exec_queueCreate {reach : Bool} (h : (s.queueCmd f q 1).queueResult f q 1 reach = 1) :
    exec (.queueCreate f q reach) s
      = .next (((s.queueCmd f q 1).setQueue (s.qbase f + q) { created := true, desc := s.queueDesc f }).queueDone f 1) := by
  simp only [exec, execQueueCreate, h, if_true, State.qbase_queueCmd, State.queueDesc_queueCmd]

theorem exec_queueModify (h : (s.queueCmd f q 2).queueResult f q 2 true = 1) :
    exec (.queueModify f q) s
      = .next (((s.queueCmd f q 2).setQueue (s.qbase f + q) { s.queue (s.qbase f + q) with desc := s.queueDesc f }).queueDone f 1) := by
  simp only [exec, execQueueModify, h, if_true, State.qbase_queueCmd, State.queueDesc_queueCmd, State.modQueue,
    State.queue_queueCmd]

theorem exec_queueDestroy (h : (s.queueCmd f q 3).queueResult f q 3 true = 1) :
    exec (.queueDestroy f q) s = .next ((((s.queueCmd f q 3).setQueue (s.qbase f + q) {}).monUnbind f q).queueDone f 1) := by
  simp only [exec, execQueueDestroy, h, if_true, State.qbase_queueCmd]

/-- A queue command that is not DONE: QUEUE_CMD is written, and its status. -/
theorem exec_queueCmd_refused :
    ∀ c ∈ [(Instr.queueQuery f q, 0), (Instr.queueCreate f q true, 1), (Instr.queueModify f q, 2), (Instr.queueDestroy f q, 3)],
      (s.queueCmd f q c.2).queueResult f q c.2 true ≠ 1 →
        exec c.1 s = .next ((s.queueCmd f q c.2).queueDone f ((s.queueCmd f q c.2).queueResult f q c.2 true)) := by
  simp only [List.forall_mem_cons]
  refine ⟨fun h => ?query, fun h => ?create, fun h => ?modify, fun h => ?destroy, fun _ hmem => absurd hmem List.not_mem_nil⟩
  case query => simp only [exec, execQueueQuery, if_neg h]
  case create => simp only [exec, execQueueCreate, if_neg h]
  case modify => simp only [exec, execQueueModify, if_neg h]
  case destroy => simp only [exec, execQueueDestroy, if_neg h]

end Done

/-- Settles O20: the registers that each command writes, and the one queue that it names. (R94, R95, R96, R97, R386) -/
theorem queueCommands : Obligations.QueueCommands := by
  refine ⟨fun s f q => ?done, fun s f q c hc hresult => ?refused⟩
  case done =>
    intro g
    exact ⟨fun h => ⟨_, exec_queueQuery h, s.queueCmd_queries f q 0 g⟩, fun reach h => ⟨_, exec_queueCreate h, s.queueCmd_puts f q 1 g _⟩,
      fun h => ⟨_, exec_queueModify h, s.queueCmd_puts f q 2 g _⟩, fun h => ⟨_, exec_queueDestroy h, s.queueCmd_removes f q 3 g⟩⟩
  case refused =>
    exact ⟨_, exec_queueCmd_refused c hc hresult, s.queueCmd_refused f q c.2 _ (State.queueResult_lt _ _ _ _ _)⟩

end Sys2Proof.Machine
end

section
/-! PROOFS. What holds right after reset, and the commands that reset functions (R107, R115, R360, R408, R416, R439, R441, R443). -/

namespace Sys2Proof.Machine

open Host (Outcome)

/-- Nothing runs, waits or is held right after reset, so that no internal action is enabled. -/
theorem State.internal_reset : State.reset.internal = none := by decide

/-- Settles O3: every table of the state is empty, and an empty table reads as its default. (R107, R408, R416, R439, R443) -/
theorem resetValues : Obligations.ResetValues :=
  ⟨Tab.get_nil regReset, Tab.get_nil _, Tab.get_nil _, Tab.get_nil _, fun g => congrArg Queue.created (Tab.get_nil _ g),
    fun i => congrArg KeyEnt.state (Tab.get_nil _ i), rfl, rfl, rfl, State.internal_reset⟩

/-! ## The commands -/

/-- FLR of a function is that function's reset; the physical function's comes after those of the virtual ones (R360). -/
theorem exec_flr {s t : State} {f : Nat}
    (h : (if f = 0 then ((List.range 255).foldl (fun u i => u.functionReset (i + 1) 1 false) s).functionReset 0 1 false
      else s.functionReset f 1 false) = t) : exec (.flr f) s = .next t.settle :=
  congrArg (fun u => Outcome.next (State.settle u)) h

theorem exec_funcResetCmd (s : State) (f : Nat) :
    (s.enabled f = true → exec (.funcResetCmd f) s = .next
      (((s.setFld 0x1B4010 0 8 f).setFld 0x1B4010 31 1 1).functionReset f 2 (s.hostReach f)).settle)
    ∧ (s.enabled f = false → exec (.funcResetCmd f) s = .next (s.count 0x200010)) :=
  ⟨fun h => congrArg Outcome.next (if_pos h), fun h => congrArg Outcome.next (if_neg (Bool.eq_false_iff.1 h))⟩

/-! ## The end of a reset (R441) -/

/-- FUNC_RESET of a function whose reset has ended: the mark is cleared, and SEQ advances. -/
def State.resetOver (s : State) (f : Nat) : State := (s.setFld (page f 0x1A00) 8 1 0).bumpSeq (page f 0x1A00)

theorem State.resetOver_told (s : State) (f : Nat) :
    (s.resetOver f).bit (page f 0x1A00) 8 = false ∧ (s.resetOver f).fld (page f 0x1A00) 0 8 = (s.fld (page f 0x1A00) 0 8 + 1) % 256 := by
  constructor
  · rw [State.bit, State.resetOver, State.bumpSeq, State.fld_setFld_other _ _ _ _ _ _ _ (by omega) (by omega), State.fld_setFld _ _ _ _ _ (by omega)]
    rfl
  · rw [State.resetOver, State.bumpSeq, State.fld_setFld _ _ _ _ _ (by omega), State.fld_setFld_other _ _ _ _ _ _ _ (by omega) (by omega)]
    rfl

/-- FUNC_RESET_CMD is no register of a function's page. -/
theorem State.fld_resetOver_cmd (s : State) (f lo w : Nat) : (s.resetOver f).fld 0x1B4010 lo w = s.fld 0x1B4010 lo w := by
  have hpage : 0x1B4010 ≠ page f 0x1A00 := by rw [page]; omega
  rw [State.resetOver, State.bumpSeq, State.fld_setFld_ne _ _ _ _ _ _ _ _ hpage, State.fld_setFld_ne _ _ _ _ _ _ _ _ hpage]

/-- The end of a reset clears GO where FUNC_RESET_CMD was for its function; where no reset runs it is no event. -/
theorem exec_funcResetEnd (s : State) (f : Nat) :
    (s.resetting f = true → s.bit 0x1B4010 31 = true → s.fld 0x1B4010 0 8 = f →
      exec (.funcResetEnd f) s = .next ((s.resetOver f).setFld 0x1B4010 31 1 0).settle)
    ∧ (s.resetting f = true → (s.bit 0x1B4010 31 = false ∨ s.fld 0x1B4010 0 8 ≠ f) → exec (.funcResetEnd f) s = .next (s.resetOver f).settle)
    ∧ (s.resetting f = false → exec (.funcResetEnd f) s = .next s) := by
  have hmine : ((s.resetOver f).bit 0x1B4010 31 && (s.resetOver f).fld 0x1B4010 0 8 == f) = (s.bit 0x1B4010 31 && s.fld 0x1B4010 0 8 == f) := by
    rw [State.bit, s.fld_resetOver_cmd, s.fld_resetOver_cmd]
    rfl
  refine ⟨fun hrun hgo hf => ?mine, fun hrun hother => ?other, fun hidle => congrArg Outcome.next (if_neg (Bool.eq_false_iff.1 hidle))⟩
  case mine =>
    refine congrArg Outcome.next ((if_pos hrun).trans (congrArg State.settle (if_pos (hmine.trans ?_))))
    rw [hgo, hf, beq_self_eq_true, Bool.and_self]
  case other =>
    refine congrArg Outcome.next ((if_pos hrun).trans (congrArg State.settle (if_neg (Bool.eq_false_iff.1 (hmine.trans ?_)))))
    rcases hother with hgo | hf
    · rw [hgo, Bool.false_and]
    · rw [beq_false_of_ne hf, Bool.and_false]

/-- Settles O26: each command as its function's reset, and the end of a reset. (R115, R360, R441) -/
theorem functionResetCommands : Obligations.FunctionResetCommands := by
  intro s f
  obtain ⟨henabled, hdisabled⟩ := exec_funcResetCmd s f
  obtain ⟨hmine, hother, hidle⟩ := exec_funcResetEnd s f
  obtain ⟨hmark, hseq⟩ := s.resetOver_told f
  exact ⟨fun hf => exec_flr (if_neg hf), exec_flr (if_pos rfl), rfl, rfl, henabled, hdisabled,
    hmine, hother, hidle, hmark, hseq⟩

end Sys2Proof.Machine
end

section
/-! PROOFS. What writing records does, said once: the updates that a fault, a completion record or a posted host write is made of (R348, R353, R358,
R364 to R366, R383 to R385, R425 to R427). -/

namespace Sys2Proof.Machine

/-- A register that writing records writes: PI or STATUS of a dirty log (R357) or of a record ring (R383, R425). -/
def recordReg (a : Nat) : Prop :=
  (∃ f, a = dlogBase f + 0xC ∨ a = dlogBase f + 0x14) ∨ ∃ (k : RecRing) (f : Nat), a = k.reg f 0x14 ∨ a = k.reg f 0x1C

/-- From s to t records have been written: outputs, counts, entries of functions, accelerators and ports, waiting messages and streams, uses of cached
translations, and the registers of the rings. -/
inductive State.Wrote (s : State) : State → Prop where
  | refl : Wrote s s
  | emit {t : State} (h : Wrote s t) (o : Out) : Wrote s (t.emit o)
  | count {t : State} (h : Wrote s t) (a n : Nat) : Wrote s (t.count a n)
  | setFunc {t : State} (h : Wrote s t) (f : Nat) (x : Func) : Wrote s (t.setFunc f x)
  | setAccel {t : State} (h : Wrote s t) (a : Nat) (x : Accel) : Wrote s (t.setAccel a x)
  | setPort {t : State} (h : Wrote s t) (p : Nat) (x : Port) : Wrote s (t.setPort p x)
  | setAttWait {t : State} (h : Wrote s t) (l : List (Nat × Nat × Word × AMsg)) : Wrote s { t with attWait := l }
  | setParks {t : State} (h : Wrote s t) (l : List Park) : Wrote s { t with parks := l }
  | touch {t : State} (h : Wrote s t) {x : Xlate} (hx : x ∈ t.xlates) : Wrote s (t.touchXlate x)
  | setReg {t : State} (h : Wrote s t) {a : Nat} (ha : recordReg a) (v : Word) : Wrote s (t.setReg a v)

theorem State.Wrote.trans {s t u : State} (h : s.Wrote t) (k : t.Wrote u) : s.Wrote u := by
  induction k with
  | refl => exact h
  | emit _ o ih => exact ih.emit o
  | count _ a n ih => exact ih.count a n
  | setFunc _ f x ih => exact ih.setFunc f x
  | setAccel _ a x ih => exact ih.setAccel a x
  | setPort _ p x ih => exact ih.setPort p x
  | setAttWait _ l ih => exact ih.setAttWait l
  | setParks _ l ih => exact ih.setParks l
  | touch _ hx ih => exact ih.touch hx
  | setReg _ ha v ih => exact ih.setReg ha v

/-- The status register of a log or a ring takes a bit, and its SEQ advances (R411). -/
theorem State.Wrote.setFld {s t : State} (h : s.Wrote t) {a : Nat} (ha : recordReg a) (lo w v : Nat) : s.Wrote (t.setFld a lo w v) := h.setReg ha _

theorem State.Wrote.bumpSeq {s t : State} (h : s.Wrote t) {a : Nat} (ha : recordReg a) : s.Wrote (t.bumpSeq a) := h.setReg ha _

theorem recordReg_ring (k : RecRing) (f : Nat) : recordReg (k.reg f 0x14) ∧ recordReg (k.reg f 0x1C) :=
  ⟨.inr ⟨k, f, .inl rfl⟩, .inr ⟨k, f, .inr rfl⟩⟩

variable (s : State)

/-! ## Messages to accelerators (R364 to R366) -/

theorem State.attachXmit_wrote (a : Nat) (psn : Word) (m : AMsg) : s.Wrote (s.attachXmit a psn m) := by
  have hwait : ∀ l, s.Wrote { s with attWait := l } := fun l => State.Wrote.refl.setAttWait l
  simp only [State.attachXmit]
  split
  · exact .refl
  · split
    · exact hwait _
    · simp only [State.attachWire]
      split
      · exact (State.Wrote.refl.setPort _ _).emit _
      · exact hwait _

theorem State.attachSend_wrote (a : Nat) (m : AMsg) : s.Wrote (s.attachSend a m) := by
  simp only [State.attachSend]
  split
  · exact (State.Wrote.refl.setAccel _ _).trans (State.attachXmit_wrote _ _ _ _)
  · exact State.Wrote.refl.setAccel _ _

theorem State.awr_wrote (a off : Nat) (bs : List Byte) (t : Ticket) : s.Wrote (s.awr a off bs t) :=
  (State.Wrote.refl.setAccel _ _).trans (State.attachSend_wrote _ _ _)

/-! ## Posted writes to host memory (R353, R354, R358) -/

theorem State.dlog_wrote (f : Nat) (pa : DWord) : s.Wrote (s.dlog f pa).2 := by
  have hpi : recordReg (0x191000 + 0x20 * f + 0xC) := .inl ⟨f, .inl rfl⟩
  have hstatus : recordReg (0x191000 + 0x20 * f + 0x14) := .inl ⟨f, .inr rfl⟩
  simp only [State.dlog]
  split
  · exact .refl
  · split
    · exact (State.Wrote.refl.setFld hstatus _ _ _).bumpSeq hstatus
    · exact (((State.Wrote.refl.emit _).setReg hpi _).count _ _).setFunc _ _

theorem State.postWrite_wrote (f : Nat) (pasid : BitVec 20) (va : DWord) (bs : List Byte) : s.Wrote (s.postWrite f pasid va bs).2 := by
  simp only [State.postWrite]
  split
  · split
    next x hx => exact ((State.Wrote.refl.touch (List.mem_of_find?_eq_some hx)).trans (State.dlog_wrote _ _ _)).emit _
    next => exact .refl
  · exact (s.dlog_wrote f va).emit _

theorem State.park_wrote (p : Park) : s.Wrote (s.park p) := by
  have hmiss : s.Wrote (if s.usesAts p.f then s.count 0x240018 else s) := by
    split
    · exact State.Wrote.refl.count _ _
    · exact .refl
  have hadmit : ∀ t : State, t.Wrote (t.admitPark p).2 := by
    intro t
    simp only [State.admitPark]
    split
    · exact State.Wrote.refl.emit _
    · exact .refl
  exact (hmiss.trans (hadmit _)).setParks _

/-! ## Record rings and faults (R385, R425 to R427) -/

theorem State.faultLost_wrote (f cls : Nat) : s.Wrote (s.faultLost f cls) := by
  have hstatus := (recordReg_ring .fault f).2
  exact ((((State.Wrote.refl.count _ _).count _ _).setFld hstatus _ _ _).setFld hstatus _ _ _).bumpSeq hstatus

theorem State.faultIrq_wrote (f : Nat) : s.Wrote (s.faultIrq f) := by
  rw [State.faultIrq]
  split
  · exact (State.Wrote.refl.setFunc _ _).emit _
  · exact .refl

theorem State.setRecs_wrote (k : RecRing) (f : Nat) (l : List (Nat × List Byte)) : s.Wrote (s.setRecs k f l) := State.Wrote.refl.setFunc _ _

theorem State.recWritten_wrote (k : RecRing) (f : Nat) : s.Wrote (s.recWritten k f) := by
  simp only [State.recWritten]
  split
  · exact .refl
  · have hpi := (s.setRecs_wrote k f ((s.recs k f).drop 1)).setReg (recordReg_ring k f).1 (s.reg (k.reg f 0x14) + 1)
    cases k with
    | fault => exact hpi.trans (State.faultIrq_wrote _ f)
    | sample => exact hpi

theorem State.recFailed_wrote (k : RecRing) (f : Nat) : s.Wrote (s.recFailed k f) := by
  simp only [State.recFailed]
  split
  · exact .refl
  next t _ =>
    have hstatus := (s.setRecs_wrote k f t).setFld (recordReg_ring k f).2 9 1 1
    cases k with
    | fault => exact hstatus.trans (State.faultLost_wrote _ f _)
    | sample => exact hstatus.bumpSeq (recordReg_ring .sample f).2

theorem State.recTry_wrote (k : RecRing) (f : Nat) (bs : List Byte) : s.Wrote (s.recTry k f bs).2 := by
  simp only [State.recTry]
  split
  · split
    · exact s.postWrite_wrote _ _ _ _
    · split
      · exact s.park_wrote _
      · exact .refl
  · split
    · exact s.awr_wrote _ _ _ _
    · exact .refl
  · split
    · exact State.Wrote.refl.emit _
    · exact .refl

theorem State.recPump_wrote (k : RecRing) (f n : Nat) (s : State) : s.Wrote (State.recPump k f n s) := by
  induction n generalizing s with
  | zero => exact .refl
  | succ n ih =>
    rw [State.recPump]
    split
    next => exact .refl
    next bs _ _ =>
      have htry := s.recTry_wrote k f bs
      split <;> rename_i heq <;> rw [heq] at htry
      · exact (htry.trans (State.recWritten_wrote _ k f)).trans (ih _)
      · exact (htry.trans (State.recFailed_wrote _ k f)).trans (ih _)
      · exact htry

theorem State.recPush_wrote (k : RecRing) (f cls : Nat) (bs : List Byte) : s.Wrote (s.recPush k f cls bs) := by
  simp only [State.recPush]
  split
  · exact (s.setRecs_wrote k f _).trans (State.recPump_wrote k f 1 _)
  · exact s.setRecs_wrote k f _

theorem State.raise_wrote (f : Nat) (c : FCode) (q : Nat) (eseq : Word) (a b x d : Nat) : s.Wrote (s.raise f c q eseq a b x d) := by
  have htold : ∀ n w, s.Wrote ((s.count 0x200030).setFunc n { (s.count 0x200030).func n with fseq := w }) :=
    fun n w => (State.Wrote.refl.count _ _).setFunc _ _
  unfold State.raise
  generalize (if s.enabled f then f else 0) = f'
  generalize (if s.enabled f then 0 else f + 256) = e
  simp only []
  split
  · exact (htold f' _).trans (State.recPush_wrote _ _ _ _ _)
  · exact (htold f' _).trans (State.faultLost_wrote _ _ _)

theorem State.hostPost_wrote (f : Nat) (pasid : BitVec 20) (va : DWord) (bs : List Byte) : s.Wrote (s.hostPost f pasid va bs) := by
  simp only [State.hostPost]
  split
  · exact (s.postWrite_wrote f pasid va bs).trans (State.raise_wrote _ _ _ _ _ _ _ _ _)
  · exact s.postWrite_wrote f pasid va bs

theorem State.hostWriteAll_wrote (n : Nat) (s : State) (f : Nat) (pasid : BitVec 20) (va : DWord) (bs : List Byte) (t : Ticket) :
    s.Wrote (State.hostWriteAll n s f pasid va bs t).2 := by
  induction n generalizing s va bs with
  | zero => exact .refl
  | succ n ih =>
    rw [State.hostWriteAll]
    split
    · exact .refl
    · split
      · exact (s.hostPost_wrote _ _ _ _).trans (ih _ _ _)
      · exact s.park_wrote _

/-- Records that are not written any more are forgotten, and faults among them counted (R33). -/
theorem State.dropRecs_wrote (k : RecRing) (f : Nat) : s.Wrote (s.dropRecs k f) := by
  have hforgot := (s.setRecs_wrote k f []).setParks (s.parks.filter (fun p => p.ticket != .ringRec k f))
  cases k with
  | fault => exact List.foldlRecOn (motive := s.Wrote) _ _ hforgot fun u hu x _ => hu.trans (State.faultLost_wrote _ _ _)
  | sample => exact hforgot

end Sys2Proof.Machine
end

section
/-! PROOFS. A function-wide reset: its mark, the ends of the function's queues, and what it clears after them (R115, R133, R355, R360, R441). -/

namespace Sys2Proof.Machine

/-! ## What no step of a reset brings back -/

/-- From s to t no cached translation comes in, and no function's FUNC_RESET changes. -/
def State.KeepsReset (s t : State) : Prop :=
  (∀ x ∈ t.xlates, x ∈ s.xlates) ∧ ∀ k, t.reg (page k 0x1A00) = s.reg (page k 0x1A00)

theorem State.KeepsReset.of_fields {s t : State} (hx : t.xlates = s.xlates) (hr : t.regs = s.regs) : s.KeepsReset t :=
  ⟨fun _ h => hx ▸ h, fun _ => State.reg_congr hr _⟩

theorem State.KeepsReset.refl (s : State) : s.KeepsReset s := .of_fields rfl rfl

theorem State.KeepsReset.trans {s t u : State} (h : s.KeepsReset t) (k : t.KeepsReset u) : s.KeepsReset u := by
  obtain ⟨hx, hr⟩ := h
  obtain ⟨kx, kr⟩ := k
  exact ⟨fun x h => hx x (kx x h), fun n => (kr n).trans (hr n)⟩

/-- A write of another register. -/
theorem State.KeepsReset.setReg {s t : State} (h : s.KeepsReset t) {a : Nat} (ha : ∀ k, page k 0x1A00 ≠ a) (v : Word) : s.KeepsReset (t.setReg a v) :=
  h.trans ⟨fun _ h => h, fun k => t.reg_setReg_ne v (ha k)⟩

/-- Registers of a page are told apart from any page's FUNC_RESET by their offsets. -/
theorem page_ne_funcReset {f o : Nat} (hpage : o < 0x4000) (hother : o ≠ 0x1A00) (k : Nat) : page k 0x1A00 ≠ page f o := by
  rw [page, page]
  omega

/-- FUNC_RESET is not a register of a ring or a dirty log. -/
theorem recordReg_ne_funcReset {a : Nat} (h : recordReg a) (k : Nat) : page k 0x1A00 ≠ a := by
  rcases h with ⟨f, rfl | rfl⟩ | ⟨ring, f, rfl | rfl⟩
  · rw [page, dlogBase]
    omega
  · rw [page, dlogBase]
    omega
  all_goals cases ring <;> exact page_ne_funcReset (by decide) (by decide) k

/-- Writing records uses translations that are cached, and fills none in. -/
theorem State.Wrote.keepsReset {s t : State} (h : s.Wrote t) : s.KeepsReset t := by
  induction h with
  | refl => exact .refl s
  | @touch t _ x hx ih =>
    refine ih.trans ⟨fun y hy => ?_, fun k => rfl⟩
    rcases List.mem_cons.1 hy with rfl | hy
    · exact hx
    · exact List.mem_of_mem_filter hy
  | setReg _ ha v ih => exact ih.setReg (recordReg_ne_funcReset ha) v
  | emit _ _ ih | count _ _ _ ih | setFunc _ _ _ ih | setAccel _ _ _ ih | setPort _ _ _ ih | setAttWait _ _ ih | setParks _ _ ih =>
    exact ih.trans (.of_fields rfl rfl)

/-- No record changes a queue. -/
theorem State.Wrote.queues {s t : State} (h : s.Wrote t) : t.queues = s.queues := by
  induction h with
  | refl => rfl
  | emit _ _ ih | count _ _ _ ih | setFunc _ _ _ ih | setAccel _ _ _ ih | setPort _ _ _ ih | setAttWait _ _ ih | setParks _ _ ih | touch _ _ ih
  | setReg _ _ _ ih => exact ih

/-! ## The end of a queue (R115 steps 2 and 3) -/

theorem State.setQueue_keepsReset (s : State) (g : Nat) (q : Queue) : s.KeepsReset (s.setQueue g q) := .of_fields rfl rfl

theorem State.endWrite_keepsReset (s : State) (g : Nat) (r : CRec) : s.KeepsReset (s.endWrite g r) := by
  simp only [State.endWrite]
  split
  · exact (s.setQueue_keepsReset g _).trans (State.awr_wrote _ _ _ _ _).keepsReset
  · exact (s.setQueue_keepsReset g _).trans (State.hostWriteAll_wrote _ _ _ _ _ _ _).keepsReset

theorem State.endQueue_keepsReset (s : State) (g : Nat) (st : BitVec 8) (host : Bool) : s.KeepsReset (s.endQueue g st host) := by
  have hrecords : ∀ (rs : List CRec) (u : State), s.KeepsReset u → s.KeepsReset (rs.foldl (fun s r => s.endWrite g r) u) := fun rs u hu =>
    List.foldlRecOn (motive := s.KeepsReset) _ _ hu fun v hv r _ => hv.trans (v.endWrite_keepsReset g r)
  unfold State.endQueue
  refine State.KeepsReset.trans ?_ (State.Wrote.refl.count _ _).keepsReset
  exact hrecords _ _ (.of_fields rfl rfl)

/-! ## The parts of a reset -/

/-- FUNC_RESET tells that a reset runs, and its cause (R441). -/
def State.markReset (s : State) (f cause : Nat) : State :=
  let a := page f 0x1A00
  if s.bit a 8 then s.setFld a 9 3 cause else ((s.setFld a 8 1 1).setFld a 9 3 cause).bumpSeq a

/-- Queues complete what they have accepted, one after the other (R115 step 2). -/
def State.endQueues (s : State) (qs : List Nat) (st : BitVec 8) (host : Bool) : State := qs.foldl (fun s g => s.endQueue g st host) s

/-- Queues that are no more. -/
def State.clearQueues (s : State) (qs : List Nat) : State := qs.foldl (fun s g => s.setQueue g {}) s

/-- The row counters of a function read 0 again (R115). -/
def State.clearRowc (s : State) (f : Nat) : State := (List.range (s.ccount f)).foldl (fun s c => s.setRowc (s.cbase f + c) 0) s

/-- Registers of a function's page that a reset returns to their reset values, and the rings that it disables. -/
def State.clearPage (s : State) (f : Nat) : State :=
  let s := s.setRegs resetOffsets (page f) (fun o => regReset (page f o))
  ((s.setReg (page f 0x191C) (s.reg (page f 0x191C) &&& bitMask 8 1)).setFld (page f 0x108C) 0 1 0).setFld (page f 0x1700) 0 1 0

/-- What a reset clears once the function's queues are gone. -/
def State.clearFunction (s : State) (f : Nat) (revoke : KeyEnt → Bool) : State :=
  let s := ((((s.clearRowc f).revokeWhere revoke).clearPage f).dropRecs .fault f).dropRecs .sample f
  s.setFunc f { s.func f with fseq := 0, irqSent := false, snum := 0, keyReg := none }

/-- A function-wide reset in its parts: the mark, the streams and records dropped, the queues ended and removed, the rest cleared. -/
theorem State.resetFunction_eq (s : State) (f cause : Nat) (st : BitVec 8) (host : Bool) (revoke : KeyEnt → Bool) :
    let u := s.markReset f cause
    s.resetFunction f cause st host revoke
      = ((((((u.dropHost f).dropRecs .fault f).dropRecs .sample f).endQueues (u.queuesOf f) st host).clearQueues (u.queuesOf f)).clearFunction f
        revoke) := rfl

theorem State.endQueues_keepsReset (s : State) (qs : List Nat) (st : BitVec 8) (host : Bool) : s.KeepsReset (s.endQueues qs st host) :=
  List.foldlRecOn (motive := s.KeepsReset) _ _ (.refl s) fun u hu g _ => hu.trans (u.endQueue_keepsReset g st host)

theorem State.clearQueues_keepsReset (s : State) (qs : List Nat) : s.KeepsReset (s.clearQueues qs) :=
  List.foldlRecOn (motive := s.KeepsReset) _ _ (.refl s) fun u hu g _ => hu.trans (u.setQueue_keepsReset g {})

theorem State.queue_clearQueues (s : State) (qs : List Nat) (g : Nat) : (s.clearQueues qs).queue g = if g ∈ qs then {} else s.queue g := by
  induction qs generalizing s with
  | nil => rfl
  | cons h qs ih =>
    rw [State.clearQueues, List.foldl_cons, ← State.clearQueues, ih, State.queue_setQueue]
    by_cases hg : g ∈ qs
    · rw [if_pos hg, if_pos (List.mem_cons_of_mem h hg)]
    · rw [if_neg hg]
      exact if_congr (by rw [List.mem_cons, or_iff_left hg]) rfl rfl

theorem State.queue_congr {s t : State} (h : t.queues = s.queues) (g : Nat) : t.queue g = s.queue g := by rw [State.queue, h, State.queue]

/-- From s to t no register, no cached translation and no queue changes. -/
def State.KeepsTables (s t : State) : Prop := t.regs = s.regs ∧ t.xlates = s.xlates ∧ t.queues = s.queues

theorem State.clearRowc_keepsTables (s : State) (f : Nat) : s.KeepsTables (s.clearRowc f) :=
  List.foldlRecOn (motive := s.KeepsTables) _ _ ⟨rfl, rfl, rfl⟩ fun _ hu _ _ => hu

theorem State.KeepsTables.setKey {s t : State} (h : s.KeepsTables t) (i : Nat) (k : KeyEnt) : s.KeepsTables (t.setKey i k) := h

theorem State.KeepsTables.freeKey {s t : State} (h : s.KeepsTables t) (i : Nat) : s.KeepsTables (t.freeKey i) := h

/-- Revoking registrations changes the tables of keys alone (R133). -/
theorem State.revokeWhere_keepsTables (s : State) (p : KeyEnt → Bool) : s.KeepsTables (s.revokeWhere p) := by
  refine List.foldlRecOn (motive := s.KeepsTables) _ _ ⟨rfl, rfl, rfl⟩ fun u hu k _ => ?_
  dsimp only
  split
  · exact hu.setKey _ _
  · exact (hu.setKey _ _).freeKey _

/-- No offset that a reset returns to its reset value is FUNC_RESET's. -/
theorem resetOffsets_other {o : Nat} (ho : o ∈ resetOffsets) : o < 0x4000 ∧ o ≠ 0x1A00 := by
  simp only [resetOffsets, List.mem_append, List.mem_map, List.mem_range] at ho
  rcases ho with ⟨i, hi, rfl⟩ | ho
  · omega
  · exact (show ∀ o ∈ [0x1900, 0x1904, 0x1908, 0x190C, 0x1910, 0x1914, 0x1918], o < 0x4000 ∧ o ≠ 0x1A00 by decide) o ho

/-- Clearing a function's page leaves its FUNC_RESET, and all else than registers. -/
theorem State.clearPage_spec (s : State) (f : Nat) : s.KeepsReset (s.clearPage f) ∧ (s.clearPage f).queues = s.queues := by
  have hframe := s.setRegs_frame resetOffsets (page f) (fun o => regReset (page f o))
  have hdefaults : s.KeepsReset (s.setRegs resetOffsets (page f) (fun o => regReset (page f o))) := by
    refine ⟨?_, fun k => s.reg_setRegs_ne _ fun o ho => page_ne_funcReset (resetOffsets_other ho).1 (resetOffsets_other ho).2 k⟩
    obtain ⟨rs, hrs⟩ := hframe
    rw [hrs]
    exact fun _ h => h
  refine ⟨((hdefaults.setReg (page_ne_funcReset ?_ ?_) _).setReg (page_ne_funcReset ?_ ?_) _).setReg (page_ne_funcReset ?_ ?_) _, ?_⟩
  case refine_7 =>
    obtain ⟨rs, hrs⟩ := State.setFld_of_regs (State.setFld_of_regs (State.setReg_of_regs hframe _ _) _ _ _ _) _ _ _ _
    exact (congrArg State.queues hrs).trans rfl
  all_goals decide

theorem State.clearFunction_spec (s : State) (f : Nat) (revoke : KeyEnt → Bool) :
    s.KeepsReset (s.clearFunction f revoke) ∧ (s.clearFunction f revoke).queues = s.queues := by
  obtain ⟨hregs, hxlates, hqueues⟩ := s.clearRowc_keepsTables f
  obtain ⟨hregs', hxlates', hqueues'⟩ := (s.clearRowc f).revokeWhere_keepsTables revoke
  obtain ⟨hpage, hpageQueues⟩ := ((s.clearRowc f).revokeWhere revoke).clearPage_spec f
  have hrevoked : s.KeepsReset ((s.clearRowc f).revokeWhere revoke) := .of_fields (hxlates'.trans hxlates) (hregs'.trans hregs)
  have hrecs : (((s.clearRowc f).revokeWhere revoke).clearPage f).Wrote (s.clearFunction f revoke) :=
    ((State.dropRecs_wrote _ .fault f).trans (State.dropRecs_wrote _ .sample f)).setFunc f _
  exact ⟨(hrevoked.trans hpage).trans hrecs.keepsReset,
    hrecs.queues.trans (hpageQueues.trans (hqueues'.trans hqueues))⟩

/-! ## The mark (R441) -/

theorem State.markReset_frame (s : State) (f cause : Nat) : ∃ rs, s.markReset f cause = { s with regs := rs } := by
  simp only [State.markReset]
  split
  · exact ⟨_, rfl⟩
  · exact State.setFld_of_regs (State.setFld_of_regs (State.setFld_of_regs ⟨s.regs, rfl⟩ _ _ _ _) _ _ _ _) _ _ _ _

theorem State.reg_markReset_ne (s : State) (f cause : Nat) {b : Nat} (h : b ≠ page f 0x1A00) : (s.markReset f cause).reg b = s.reg b := by
  simp only [State.markReset]
  split
  · exact s.reg_setFld_ne _ _ _ h
  · rw [State.bumpSeq, State.reg_setFld_ne _ _ _ _ h, State.reg_setFld_ne _ _ _ _ h, State.reg_setFld_ne _ _ _ _ h]

theorem State.bit_markReset (s : State) (f cause : Nat) : (s.markReset f cause).bit (page f 0x1A00) 8 = true := by
  simp only [State.markReset]
  split
  next hrun =>
    rw [State.bit, State.fld_setFld_other _ _ _ _ _ _ _ (by omega) (by omega)]
    exact hrun
  next =>
    rw [State.bit, State.bumpSeq, State.fld_setFld_other _ _ _ _ _ _ _ (by omega) (by omega),
      State.fld_setFld_other _ _ _ _ _ _ _ (by omega) (by omega), State.fld_setFld _ _ _ _ _ (by omega)]
    rfl

/-- The owner of a queue is told by the grants of the 256 functions, below the pages of functions (R374). -/
theorem State.ownerOf_of_grants {s t : State} (h : ∀ a < 0x400000, t.reg a = s.reg a) (g : Nat) : t.ownerOf g = s.ownerOf g := by
  have hgrant : ∀ f ∈ List.range 256, t.qbase f = s.qbase f ∧ t.qcount f = s.qcount f := by
    intro f hf
    have hf := List.mem_range.1 hf
    have hreg : t.reg (0x1B0000 + 0x40 * f + 0) = s.reg (0x1B0000 + 0x40 * f + 0) := h _ (by omega)
    exact ⟨congrArg (extractBits · 0 14) hreg, congrArg (extractBits · 16 15) hreg⟩
  refine congrArg (Option.getD · 0) (List.find?_congr fun f hf => ?_)
  obtain ⟨hbase, hcount⟩ := hgrant f hf
  rw [hbase, hcount]

/-- The mark moves no queue to another function. -/
theorem State.queuesOf_markReset (s : State) (f cause : Nat) : (s.markReset f cause).queuesOf f = s.queuesOf f := by
  have howner : ∀ g, (s.markReset f cause).ownerOf g = s.ownerOf g :=
    State.ownerOf_of_grants fun a ha => s.reg_markReset_ne f cause (by rw [page]; omega)
  obtain ⟨rs, hrs⟩ := s.markReset_frame f cause
  have hqueues : (s.markReset f cause).queues = s.queues := by rw [hrs]
  simp only [State.queuesOf, howner, hqueues]

/-- Settles O25: the queues go as queues, the translations with the function's streams, and nothing later in the reset brings either back or touches
the mark. (R115, R355, R441) -/
theorem resetEndsAFunction : Obligations.ResetEndsAFunction := by
  intro s f cause st host revoke
  have hqs := s.queuesOf_markReset f cause
  have hmark := s.bit_markReset f cause
  obtain ⟨rs, hmarkFrame⟩ := s.markReset_frame f cause
  rw [s.resetFunction_eq, hqs]
  generalize s.markReset f cause = u at *
  have hrecs := (State.dropRecs_wrote (u.dropHost f) .fault f).trans (State.dropRecs_wrote _ .sample f)
  generalize ((u.dropHost f).dropRecs .fault f).dropRecs .sample f = v at *
  obtain ⟨hcleared, hqueues⟩ := ((v.endQueues (s.queuesOf f) st host).clearQueues (s.queuesOf f)).clearFunction_spec f revoke
  obtain ⟨hxlates, hreg⟩ := ((hrecs.keepsReset.trans (v.endQueues_keepsReset (s.queuesOf f) st host)).trans
    (State.clearQueues_keepsReset _ (s.queuesOf f))).trans hcleared
  refine ⟨fun g hg => ?queues, fun x _ hxf hmem => ?translations, ?mark⟩
  case queues =>
    refine (State.queue_congr hqueues g).trans ?_
    exact (State.queue_clearQueues _ _ g).trans (if_pos hg)
  case translations =>
    have hkept := (List.mem_filter.1 (hxlates x hmem)).2
    rw [hxf, bne_self_eq_false] at hkept
    exact Bool.false_ne_true hkept
  case mark => exact (congrArg (fun r => extractBits r 8 1 == 1) (hreg f)).trans hmark

end Sys2Proof.Machine
end

section
/-! PROOFS. Messages of attached accelerators: answers, requests, and accelerators that are lost (R100, R291, R363 to R370). -/

namespace Sys2Proof.Machine

open Host (Outcome)

/-! ## Answers (R364, R365, R369) -/

theorem exec_placeRsp {s : State} {a : Nat} {tag : BitVec 16} {o : AOp} (ho : (s.accel a).ops.find? (fun o => o.tag == tag && o.kind == .awr) = some o) :
    exec (.placeRsp a tag .ok) s = .next ((s.aopDone a o).ticketPlaced o.ticket).settle
    ∧ exec (.placeRsp a tag .addrError) s = .next (s.aopFails a o false).settle ∧ exec (.placeRsp a tag .poison) s = .next (s.aopFails a o true).settle := by
  simp only [exec, execPlaceRsp, ho, and_self]

/-- The answer that brings the last of an ARD's bytes ends it. -/
theorem exec_ardData_last {s : State} {a : Nat} {tag : BitVec 16} {o : AOp} {roff : Nat} {bytes : List Byte}
    (ho : (s.accel a).ops.find? (fun o => o.tag == tag && o.kind == .ard) = some o) (hlast : o.len ≤ o.got + bytes.length) :
    exec (.ardData a tag roff bytes .ok) s = .next ((s.aopDone a o).ticketData o.ticket o.off ((patchBytes o.data roff bytes).take o.len)).settle := by
  simp only [exec, execArdData, ho, if_neg (Nat.not_lt.2 hlast)]

theorem exec_aatomRsp_ok {s : State} {a : Nat} {tag : BitVec 16} {o : AOp} {old : DWord}
    (ho : (s.accel a).ops.find? (fun o => o.tag == tag && o.kind == .aatom) = some o) :
    exec (.aatomRsp a tag old .ok) s = .next ((s.aopDone a o).atomicAnswered o.ticket old).settle := by
  simp only [exec, execAatomRsp, ho]

/-! ## Doorbells and counters (R100, R367) -/

/-- A DOORBELL within the owner's grant, by the offset in the slot: both halves, PI, CCI, or none of these. -/
theorem exec_doorbell {s : State} {a g : Nat} {q : BitVec 14} (v : DWord) (hg : s.globalQ (s.accOwner a) q.toNat = some g) :
    let f := s.accOwner a
    let lo : Word := v.extractLsb' 0 32
    exec (.doorbell a q 0x00 v) s = .next
      ((s.bell f q.toNat (fun u g => u.bellPi f g lo)).bell f q.toNat (fun u g => u.bellCci f g (v.extractLsb' 32 32))).settle
    ∧ exec (.doorbell a q 0x08 v) s = exec (.dbPi f q.toNat lo) s ∧ exec (.doorbell a q 0x0C v) s = exec (.dbCci f q.toNat lo) s
    ∧ ∀ off, off ≠ 0x00 → off ≠ 0x08 → off ≠ 0x0C → exec (.doorbell a q off v) s = .next (s.count (attCtr a 0x10)) := by
  intro f lo
  have hin : ¬(s.globalQ (s.accOwner a) q.toNat).isNone = true := by rw [hg]; exact Bool.false_ne_true
  refine ⟨congrArg Outcome.next (if_neg hin), congrArg Outcome.next (if_neg hin), congrArg Outcome.next (if_neg hin), fun off h0 h8 hC => ?_⟩
  simp only [exec, execDoorbell, if_neg hin, beq_iff_eq, if_neg h0, if_neg h8, if_neg hC]

theorem exec_doorbell_outside {s : State} {a : Nat} {q : BitVec 14} (off : BitVec 8) (v : DWord) (hout : s.globalQ (s.accOwner a) q.toNat = none) :
    exec (.doorbell a q off v) s = .next (s.count (attCtr a 0x10)) := by
  simp only [exec, execDoorbell, hout, Option.isNone_none, if_true]

/-- A COUNTER message within the owner's grant is a write of the counter's slot. -/
theorem exec_counter {s : State} {a n : Nat} {c : BitVec 15} (v : DWord) (hn : s.globalC (s.accOwner a) c.toNat = some n) :
    let f := s.accOwner a
    exec (.counter a c .add v) s = .next (s.setRowc n (rowAdd (s.rowc n) v)).settle
    ∧ exec (.counter a c .write v) s = .next (s.setRowc n v).settle
    ∧ exec (.counter a c .setErr v) s = exec (.cntSeterr f c.toNat 1) s ∧ exec (.counter a c .clrErr v) s = exec (.cntClrerr f c.toNat 2) s := by
  intro f
  have hin : ¬(s.globalC f c.toNat).isNone = true := by rw [hn]; exact Bool.false_ne_true
  have hwrite : ∀ h, s.slotWrite f c.toNat h = (s.setRowc n (h (s.rowc n))).settle := fun h => (s.slotWrite_spec f c.toNat h).2 n hn
  exact ⟨congrArg Outcome.next ((if_neg hin).trans (hwrite _)), congrArg Outcome.next ((if_neg hin).trans (hwrite _)),
    congrArg Outcome.next (if_neg hin), congrArg Outcome.next (if_neg hin)⟩

theorem exec_cntRd {s : State} {a n : Nat} {tag : BitVec 16} {c : BitVec 15} (hn : s.globalC (s.accOwner a) c.toNat = some n) :
    exec (.cntRd a tag c) s = .next (s.attachSend a { amsg 0x08 with tag := tag, arg0 := s.rowc n }) := by
  simp only [exec, execCntRd, hn]

/-! ## Reads, writes and atomics (R291, R367) -/

theorem exec_lrd {s : State} {a len : Nat} {tag : BitVec 16} {addr : DWord} {key : Word} (hkey : s.accelCheck a key 0x12 addr len = none)
    (hline : s.lineLost addr.toNat len = false) :
    exec (.lrd a tag addr len key) s = .next (s.attachSend a { amsg 0x05 with tag := tag, payload := s.pread addr.toNat len }) := by
  simp only [exec, execLrd, hkey]
  exact congrArg Outcome.next (if_neg (Bool.eq_false_iff.1 hline))

theorem exec_lwr {s : State} {a : Nat} {tag : BitVec 16} {addr : DWord} {key : Word} {payload : List Byte}
    (hkey : s.accelCheck a key 0x10 addr payload.length = none) (hmarked : s.markedLines addr.toNat payload.length = [])
    (hwaits : s.writeWaits addr.toNat payload.length = false) :
    exec (.lwr a tag addr key payload) s = .next ((s.pwrite addr.toNat payload).ticketPlaced (.accelMsg a tag (keyIndex key))) := by
  have hplaced := (s.poolWrite_spec addr.toNat payload (.accelMsg a tag (keyIndex key)) hmarked).1 hwaits
  simp only [exec, execLwr, hkey, hplaced, if_true]

theorem exec_latom {s : State} {a : Nat} {tag : BitVec 16} {addr : DWord} {key : Word} {cas size : Bool} {operand swap : DWord}
    (hkey : s.accelCheck a key 0x18 addr (if size then 8 else 4) = none) (halign : addr.toNat % (if size then 8 else 4) = 0)
    (hfree : s.poolBusy addr.toNat (if size then 8 else 4) = false) :
    let x := s.poolAtomic addr.toNat cas size operand swap
    exec (.latom a tag addr key cas size operand swap) s = .next
      (x.2.2.attachSend a { amsg 0x07 with tag := tag, arg0 := x.1, arg2 := if cas && x.2.1 then 1 else 0 }) := by
  have haligned : ¬(addr.toNat % (if size then 8 else 4) != 0) = true := by rw [halign]; decide
  simp only [exec, execLatom, hkey]
  exact congrArg Outcome.next ((if_neg haligned).trans (if_neg (Bool.eq_false_iff.1 hfree)))

/-! ## Retransmission and loss (R366, R370) -/

/-- A packet that is not acknowledged goes again within its tries; after them its accelerator is lost. -/
theorem exec_attachRetransmit {s : State} {a : Nat} {psn p : Word} {n : Nat} {m : AMsg}
    (hx : (s.accel a).retained.find? (fun r => r.1 == psn) = some (p, n, m)) :
    (n < s.fld 0x1A0040 16 5 → exec (.attachRetransmit a psn) s = .next (((s.setAccel a { s.accel a with
      retained := (s.accel a).retained.map (fun r => if r.1 == psn then (p, n + 1, m) else r) }).count (attCtr a 0)).attachXmit a p m))
    ∧ (s.fld 0x1A0040 16 5 ≤ n →
      exec (.attachRetransmit a psn) s = .next (((s.accel a).links.foldl (fun u l => u.attachPortDown l.1) s).loseAccel a).settle) := by
  simp only [exec, execAttachRetransmit, hx]
  exact ⟨fun hn => congrArg Outcome.next (if_pos hn), fun hn => congrArg Outcome.next (if_neg (Nat.not_lt.2 hn))⟩

theorem exec_accelLost {s : State} {a : Nat} (hpresent : s.accPresent a = true) (hdown : ∀ l ∈ (s.accel a).links, s.portUp l.1 = false) :
    exec (.accelLost a) s = .next (s.loseAccel a).settle := by
  have hnone : (s.accel a).links.any (fun l => s.portUp l.1) = false := List.any_eq_false.2 fun l hl => by simp [hdown l hl]
  simp [exec, execAccelLost, hpresent, hnone]

/-- Settles O49: each message in the branch of its meaning that its hypotheses select; a doorbell and a counter message are the owner's own writes.
(R100, R291, R363 to R367, R369, R370) -/
theorem acceleratorMessages : Obligations.AcceleratorMessages := by
  intro s a tag
  refine ⟨fun o => exec_placeRsp, fun o roff bytes => exec_ardData_last, fun o old => exec_aatomRsp_ok, fun q v g => ?doorbell,
    fun q off v => exec_doorbell_outside off v, fun c v n hn => ?counter, fun addr len key => exec_lrd, fun addr key payload => exec_lwr,
    fun addr key cas size operand swap => exec_latom, fun psn p n m hx => (exec_attachRetransmit hx).1,
    fun psn x hx => (exec_attachRetransmit hx).2, exec_accelLost⟩
  case doorbell =>
    intro f lo hi hg
    obtain ⟨hboth, hpi, hcci, hother⟩ := exec_doorbell v hg
    refine ⟨fun hx hreset hbound => ⟨hpi.trans ?_, hcci.trans ?_⟩, hboth, hother, hpi, hcci⟩
    · exact exec_dbPi (((s.bell_spec f q.toNat _).2 g hg).2 hx hreset hbound)
    · exact exec_dbCci (((s.bell_spec f q.toNat _).2 g hg).2 hx hreset hbound)
  case counter =>
    obtain ⟨hadd, hwrite, hset, hclear⟩ := exec_counter v hn
    exact ⟨hadd, hwrite, hset, hclear, exec_cntRd hn⟩

end Sys2Proof.Machine
end

section
/-! PROOFS. Pooled memory: the bytes that a write leaves within its range and outside it, and the channels of offsets (R138, R287, R288). -/

namespace Sys2Proof

variable {β : Type} [DecidableEq β]

theorem Tab.get_putAll_outside (d : Nat → β) (vs : List β) (t : Tab β) (k : Nat) {j : Nat} (h : j < k ∨ k + vs.length ≤ j) :
    Tab.get d (Tab.putAll d t k vs) j = Tab.get d t j := by
  induction vs generalizing t k with
  | nil => rfl
  | cons v vs ih =>
    rw [List.length_cons] at h
    rw [Tab.putAll, ih _ _ (by omega), Tab.get_put, if_neg (by omega)]

/-- Values written at consecutive keys read back. -/
theorem Tab.getAll_putAll (d : Nat → β) (vs : List β) (t : Tab β) (k : Nat) : Tab.getAll d (Tab.putAll d t k vs) k vs.length = vs := by
  induction vs generalizing t k with
  | nil => rfl
  | cons v vs ih =>
    have hfirst : Tab.get d (Tab.putAll d (Tab.put d t k v) (k + 1) vs) k = v := by
      rw [Tab.get_putAll_outside d vs _ _ (by omega), Tab.get_put, if_pos rfl]
    rw [Tab.putAll, List.length_cons, Tab.getAll, hfirst, ih]

end Sys2Proof

namespace Sys2Proof.Machine

/-- What is XORed to a part of an offset to give its channel is XORed away again (R288). -/
theorem xor_xor_cancel_three (a b c d : Nat) : a ^^^ b ^^^ c ^^^ d ^^^ b ^^^ c ^^^ d = a := by
  simpa only [Nat.xor_assoc] using Nat.xor_xor_cancel_right a (b ^^^ c ^^^ d)

/-- The address in a channel holds the offset's bits above the channel's, and the byte within the 256 (R288). -/
theorem poolLocal_parts (o : Nat) : poolLocal o / 2 ^ 8 = o / 2 ^ 13 ∧ poolLocal o % 2 ^ 8 = o % 2 ^ 8 := by
  rw [poolLocal]
  omega

theorem poolOffset_poolChannel (o : Nat) : poolOffset (poolChannel o) (poolLocal o) = o := by
  obtain ⟨hup, hlow⟩ := poolLocal_parts o
  simp only [poolOffset, poolChannel, hup, hlow, Nat.div_div_eq_div_mul, ← Nat.pow_add, Nat.reduceAdd, xor_xor_cancel_three]
  omega

/-- There are 32 channels, four in each of the eight packages (R287, R288). -/
theorem poolChannel_lt (o : Nat) : poolChannel o < 32 := by
  have hpart : ∀ n, n % 32 < 2 ^ 5 := fun n => Nat.mod_lt _ (by decide)
  exact Nat.xor_lt_two_pow (Nat.xor_lt_two_pow (Nat.xor_lt_two_pow (hpart _) (hpart _)) (hpart _)) (hpart _)

/-- Settles O7: a write puts its bytes one by one, and an offset's channel is undone by the bits of its address. (R138, R287, R288) -/
theorem poolReadAfterWrite : Obligations.PoolReadAfterWrite := by
  intro s o bs
  refine ⟨Tab.getAll_putAll _ bs s.pool o, fun a ha => Tab.get_putAll_outside _ bs s.pool o ha, poolOffset_poolChannel o,
    poolChannel_lt o, ?package⟩
  case package => exact Nat.div_lt_of_lt_mul (poolChannel_lt o)

end Sys2Proof.Machine
end

section
/-! PROOFS. Arriving packets: the verdict on a PSN, and the requests and responses that are taken (R128, R137, R143, R146, R241, R281). -/

namespace Sys2Proof.Machine

open Host (Outcome)

/-! ## The verdict on a PSN (R241) -/

/-- No PSN lies before itself (R238). -/
@[simp] theorem psnBefore_self (a : Word) : psnBefore a a = false := by simp [psnBefore]

/-- The verdict writes the sender's path context, and may count. -/
theorem State.rxCheck_frame (s : State) (src : Nat) (psn lup : Word) : ∃ p es, (s.rxCheck src psn lup).2 = { s.setPath src p with ev := es } := by
  simp only [State.rxCheck]
  generalize (if psnBefore (s.path src).rbase lup = true then _ else _) = p
  split
  · exact ⟨_, _, rfl⟩
  · split <;> exact ⟨_, _, rfl⟩

theorem State.path_rxCheck_ne (s : State) {src k : Nat} (psn lup : Word) (h : k ≠ src) : (s.rxCheck src psn lup).2.path k = s.path k := by
  obtain ⟨p, es, hrx⟩ := s.rxCheck_frame src psn lup
  rw [hrx]
  exact (s.path_setPath src p k).trans (if_neg h)

theorem State.self_rxCheck (s : State) (src : Nat) (psn lup : Word) : (s.rxCheck src psn lup).2.self = s.self := by
  obtain ⟨p, es, hrx⟩ := s.rxCheck_frame src psn lup
  rw [hrx]
  rfl

/-- The verdicts of a packet whose LUP does not move the window: by RBASE, and then by the state of its PSN. -/
theorem State.rxCheck_spec (s : State) (src : Nat) (psn lup : Word) (hlup : psnBefore (s.path src).rbase lup = false) :
    let p := s.path src
    (psnBefore psn p.rbase = true → s.rxCheck src psn lup = (.stale, (s.setPath src p).count 0x260010))
    ∧ (psnBefore psn p.rbase = false → p.rxOf psn = none →
      s.rxCheck src psn lup = (.fresh, s.setPath src { p with rx := p.rx ++ [(psn, .pending)] }))
    ∧ (psnBefore psn p.rbase = false → p.rxOf psn = some .pending → s.rxCheck src psn lup = (.pendingDup, (s.setPath src p).count 0x260018))
    ∧ ∀ a b, psnBefore psn p.rbase = false → p.rxOf psn = some (.done a b) →
      s.rxCheck src psn lup = (.doneDup a b, (s.setPath src p).count 0x260018) := by
  intro p
  refine ⟨fun hstale => ?stale, fun hin hrx => ?fresh, fun hin hrx => ?pending, fun a b hin hrx => ?done⟩
  case stale => simp only [State.rxCheck, hlup, hstale, Bool.false_eq_true, if_false, if_true, p]
  all_goals simp only [State.rxCheck, hlup, hin, hrx, Bool.false_eq_true, if_false, p]

/-- Settles O30: a LUP that is RBASE itself leaves the window where it is. (R137, R238, R241) -/
theorem psnVerdicts : Obligations.PsnVerdicts := by
  intro s src psn p v
  obtain ⟨hstale, hfresh, hpending, hdone⟩ := s.rxCheck_spec src psn p.rbase (psnBefore_self _)
  refine ⟨fun hbefore => ?stale, fun hin hrx => ?fresh, fun hin hrx => ?pending, fun a b hin hrx => ?done, fun k hk => s.path_rxCheck_ne _ _ hk⟩
  case stale => simp [v, hstale hbefore]
  case fresh => simp [v, hfresh hin hrx, p]
  case pending => simp [v, hpending hin hrx]
  case done => simp [v, hdone a b hin hrx]

/-! ## Requests (R128, R281) -/

theorem exec_request_taken {s : State} {h : Hdr} {r : ReqF} {payload : List Byte} (hroom : s.retrFull h r = false) :
    let a := s.consume { hdr := h, body := .request r, payload }
    a.boundOff = false → h.src.toNat ≠ a.self → a.lost.contains h.src.toNat = false → (a.rxCheck h.src.toNat h.psn h.lup).1 = .fresh →
      exec (.request h r payload) s = .next ((a.rxCheck h.src.toNat h.psn h.lup).2.takeReq h r payload).settle := by
  intro a hbound hself hlost hfresh
  obtain ⟨-, -, -, htake⟩ := a.arrive_spec h true fun u => u.takeReq h r payload
  exact congrArg Outcome.next ((if_neg (Bool.eq_false_iff.1 hroom)).trans (congrArg State.settle (htake hbound hself hlost hfresh)))

/-- A request that RETR has no room for stays where it is (R281). -/
theorem exec_request_waits {s : State} {h : Hdr} {r : ReqF} (payload : List Byte) (hfull : s.retrFull h r = true) :
    exec (.request h r payload) s = .next (s.noteBorrow 7 (respCells r)) :=
  congrArg Outcome.next (if_pos hfull)

/-! ## Responses (R137, R240) -/

theorem exec_response_taken {s : State} {h : Hdr} {r : RespF} {payload : List Byte} :
    let a := s.consume { hdr := h, body := .response r, payload }
    a.boundOff = false → h.src.toNat ≠ a.self → a.lost.contains h.src.toNat = false → (a.rxCheck h.src.toNat h.psn h.lup).1 = .fresh →
      exec (.response h r payload) s = .next
        (((a.rxCheck h.src.toNat h.psn h.lup).2.takeResponse h r payload).delivered h.src.toNat h.psn h.ce stOk 0).settle := by
  intro a hbound hself hlost hfresh
  have hpeer : h.src.toNat ≠ (a.rxCheck h.src.toNat h.psn h.lup).2.self := by rwa [State.self_rxCheck]
  exact congrArg (fun u => Outcome.next (State.settle u)) (((a.arrive_spec h false _).2.2.2 hbound hself hlost hfresh).trans (if_neg hpeer))

/-! ## Requests that waited here (R143, R146) -/

theorem exec_placementAnswer {s : State} {src : BitVec 20} {psn : Word} {e : Packet × List Nat} {r : ReqF}
    (he : s.placeReqs.find? (fun e => e.1.hdr.src == src && e.1.hdr.psn == psn) = some e) (hbody : e.1.body = .request r)
    (hplaced : ∀ w ∈ e.2, ∀ a ∈ s.admitted, ¬(a.src = src.toNat ∧ a.psn = w)) :
    exec (.placementAnswer src psn) s = .next (({ s with placeReqs := s.placeReqs.erase e } : State).answerPlacement e.1 r).settle := by
  have hall : e.2.all (fun w => !s.admitted.any (fun a => a.src == src.toNat && a.psn == w)) = true := by
    simpa using hplaced
  simp only [exec, execPlacementAnswer, he, hall, hbody, if_true]

theorem exec_contextFetchDone {s : State} {src : BitVec 20} {psn : Word} {p : Packet} {r : ReqF}
    (hp : s.parkedReqs.find? (fun p => p.hdr.src == src && p.hdr.psn == psn) = some p) (hbody : p.body = .request r)
    (hpeer : src.toNat ≠ s.self ∨ s.ownMisses psn.toNat = []) (hroom : respCells r = 0 ∨ s.canGrow 7 (respCells r) = true) :
    exec (.contextFetchDone src psn) s = .next (({ s with parkedReqs := s.parkedReqs.erase p } : State).acceptReq p.hdr r p.payload).settle := by
  have hnotOwn : ¬(src.toNat = s.self ∧ s.ownMisses psn.toNat ≠ []) := by tauto
  have hgrows : (decide (0 < respCells r) && !s.canGrow 7 (respCells r)) = false := by
    rcases hroom with h | h <;> simp [h]
  simp only [exec, execContextFetchDone, if_neg hnotOwn, hp, hbody, hgrows, Bool.false_eq_true, if_false]

/-- Settles O29: a fresh packet passes every gate of its arrival, and one that waited here finds what it waited for.
(R128, R137, R143, R146, R240, R241, R281; log entries 24, 25) -/
theorem packetsAreTaken : Obligations.PacketsAreTaken := by
  refine ⟨fun s h => ⟨?taken, fun r payload => exec_request_waits payload, fun r payload => exec_response_taken⟩,
    fun s src psn => ⟨?placed, ?parked⟩⟩
  case taken => exact fun r payload hbound hself hlost hfresh hroom => exec_request_taken hroom hbound hself hlost hfresh
  case placed => exact fun e r => exec_placementAnswer
  case parked => exact fun p r => exec_contextFetchDone

end Sys2Proof.Machine
end

section
/-! PROOFS. Acknowledging what has come, and sending again what is not acknowledged (R119, R120, R148, R239, R240, R242, R244). -/

namespace Sys2Proof.Machine

open Host (Outcome)

/-! ## Acknowledging (R239, R240) -/

/-- An acknowledgement without a failed outcome is what its map and its echoes say. -/
theorem exec_deliveryAck {s : State} {h : Hdr} {a : AckF} :
    let c := s.consume { hdr := h, body := .ack a, payload := [] }
    c.boundOff = false → c.lost.contains h.src.toNat = false → a.fstatus = 0 →
      exec (.deliveryAck h a) s = .next
        (((ackedPsns a).foldl (fun u p => u.ackOne h.src.toNat p stOk 0) c).modPath h.src.toNat
          (fun p => { p with newEchoed := p.newEchoed + a.echo.toNat })).settle := by
  intro c hbound hlost hgood
  simp only [exec, execDeliveryAck, c] at hbound hlost ⊢
  simp only [hbound, hlost, hgood, Bool.false_eq_true, if_false, beq_self_eq_true, if_true]

/-- The lowest of PSNs is the first where every other lies at most half the PSN space after it (R238). -/
theorem lowestPsn_first {e : Word × Bool} {es : List (Word × Bool)} (h : ∀ x ∈ es, (x.1 - e.1).toNat < 2 ^ 31) :
    es.foldl (fun m x => if (x.1 - m).toNat ≥ 2 ^ 31 then x.1 else m) e.1 = e.1 := by
  refine List.foldlRecOn (motive := fun m => m = e.1) _ _ rfl fun m hm x hx => ?_
  rw [hm, if_neg (Nat.not_le.2 (h x hx))]

theorem State.flushAcksN_none {s : State} {src : Nat} (n : Nat) (h : (s.path src).unreported = []) : s.flushAcksN n src = s := by
  cases n with
  | zero => rfl
  | succ n => simp only [State.flushAcksN, h]

/-- Deliveries within 64 of the first are reported by one acknowledgement (R239). -/
theorem State.flushAcks_one {s : State} {src : Nat} {e : Word × Bool} {es : List (Word × Bool)} (hun : (s.path src).unreported = e :: es)
    (hnear : ∀ x ∈ es, (x.1 - e.1).toNat < 64) :
    s.flushAcks src
      = (s.modPath src (fun p => { p with unreported := [] })).sendAck src ((e :: es).map (·.1)) ((e :: es).filter (·.2)).length 0 0 0 := by
  have hbase := lowestPsn_first fun x hx => Nat.lt_trans (hnear x hx) (by decide)
  have hall : ∀ x ∈ e :: es, decide ((x.1 - e.1).toNat < 64) = true :=
    List.forall_mem_cons.2 ⟨by rw [BitVec.sub_self]; rfl, fun x hx => decide_eq_true (hnear x hx)⟩
  have hpart : (e :: es).partition (fun x => decide ((x.1 - e.1).toNat < 64)) = (e :: es, []) := by
    rw [List.partition_eq_filter_filter, List.filter_eq_self.2 hall,
      List.filter_eq_nil_iff.2 fun x hx => by rw [Function.comp_apply, hall x hx]; decide]
  rw [State.flushAcks, hun, List.length_cons, State.flushAcksN, hun]
  simp only [hbase, hpart]
  exact State.flushAcksN_none _ (by simp [State.sendAck, State.sendRaw, State.path, State.modPath, State.setPath])

/-! ## Sending again (R119, R242, R244) -/

/-- A retained packet goes again at once where no other waits for tokens, its own tokens are there and its copy is whole. -/
theorem State.retransmit_goes {s : State} {dst : Nat} {x : Retained} (hfirst : ∀ y ∈ (s.path dst).retained, y.due = false)
    (htokens : packetCost x.pkt ≤ (s.path dst).tokens) (hcopy : x.missing = 0) : s.retransmit dst x = s.resend dst x := by
  have hnone : (s.path dst).retained.any (·.due) = false := List.any_eq_false.2 fun y hy => by simp [hfirst y hy]
  rw [State.retransmit, hnone, hcopy, decide_eq_false (not_lt.2 htokens)]
  rfl

/-- A retransmission that its path has no tokens for waits (R244). -/
theorem State.retransmit_waits {s : State} {dst : Nat} {x : Retained} (htokens : (s.path dst).tokens < packetCost x.pkt) :
    s.retransmit dst x = s.setPath dst { s.path dst with
      retained := (s.path dst).retained.map (fun y => if y.pkt.hdr.psn == x.pkt.hdr.psn then { y with due := true } else y) } := by
  rw [State.retransmit, decide_eq_true htokens, Bool.or_true, Bool.true_or]
  exact if_pos rfl

section Timeout

variable {s : State} {node : BitVec 20} {psn : Word} {x : Retained}
  (hx : (s.path node.toNat).retained.find? (fun x => x.pkt.hdr.psn == psn) = some x) (hpeer : node.toNat ≠ s.self) (hown : isAnswer x.pkt = false)
  (hopen : (x.acked && !x.needsResp) = false)
include hx hpeer hown hopen

/-- A request toward a node is sent again within its tries, and has failed after them. -/
theorem exec_e2eRetransmit_request {d : Nat} (hdest : s.destOf node.toNat x = .node d) (hcls : x.pkt.hdr.cls = 4 ∨ x.pkt.hdr.cls = 5) :
    exec (.e2eRetransmit node psn) s = .next (if x.tries < s.fld 0x110018 22 5 then s.retransmit node.toNat x
      else (s.packetOver node.toNat x stRetry 0).settle) := by
  have hwait : (s.destOf node.toNat x == .wait) = false := by rw [hdest]; rfl
  have hlost : (s.destOf node.toNat x == .lost) = false := by rw [hdest]; rfl
  have hrequest : (x.pkt.hdr.cls == 4 || x.pkt.hdr.cls == 5) = true := by simpa using hcls
  simp only [exec, execE2eRetransmit, hx, decide_eq_false hpeer, hown, hopen, hwait, hlost, hrequest, Bool.or_self,
    Bool.false_eq_true, if_false, if_true]

/-- A packet whose target is lost is not sent again (R148). -/
theorem exec_e2eRetransmit_lost (hdest : s.destOf node.toNat x = .lost) :
    exec (.e2eRetransmit node psn) s = .next (s.packetOver node.toNat x stTargetLost 0).settle := by
  have hwait : (s.destOf node.toNat x == .wait) = false := by rw [hdest]; rfl
  have hlost : (s.destOf node.toNat x == .lost) = true := by rw [hdest]; rfl
  simp only [exec, execE2eRetransmit, hx, decide_eq_false hpeer, hown, hopen, hwait, hlost, Bool.or_self, Bool.false_eq_true, if_false, if_true]

end Timeout

theorem exec_e2eRespAbandon {s : State} {node : BitVec 20} {psn : Word} (h : (s.path node.toNat).repliesTo psn ≠ []) :
    exec (.e2eRespAbandon node psn) s = .next ((s.setPath node.toNat ((s.path node.toNat).dropReplies (· == psn))).count 0x260020) :=
  congrArg Outcome.next (if_neg (mt List.isEmpty_iff.1 h))

/-- Settles O31: one acknowledgement each way, and the timeout of a packet by its tries, its tokens and its target.
(R119, R148, R239, R240, R242, R244) -/
theorem acknowledgingAndResending : Obligations.AcknowledgingAndResending := by
  intro s h a node psn n limit
  refine ⟨exec_deliveryAck, fun e es hun hnear => congrArg Outcome.next (State.flushAcks_one hun hnear),
    fun x d hx hpeer hown hopen hdest hcls => ⟨fun htries hfirst htokens hcopy => ?goes, fun htries htokens => ?waits, fun htries => ?exhausted⟩,
    fun x hx hpeer hown hopen => exec_e2eRetransmit_lost hx hpeer hown hopen, exec_e2eRespAbandon⟩
  all_goals rw [exec_e2eRetransmit_request hx hpeer hown hopen hdest hcls]
  case goes => rw [if_pos htries, State.retransmit_goes hfirst htokens hcopy]
  case waits => rw [if_pos htries, State.retransmit_waits htokens]
  case exhausted => rw [if_neg (Nat.not_lt.2 htries)]

end Sys2Proof.Machine
end

section
/-! PROOFS. Key commands: the descriptor's words, KEY_CMD and its status, what the four commands do, and the end of draining (R123 to R133). -/

namespace Sys2Proof.Machine

open Host (Outcome)

/-! ## GEN (R123) -/

/-- GEN runs from 1 to 4,095 and then again from 1. -/
theorem nextGen_spec (g : BitVec 12) : nextGen g ≠ 0 ∧ (g.toNat < 4095 → (nextGen g).toNat = g.toNat + 1) ∧ (g = 4095 → nextGen g = 1) := by
  by_cases hg : g = 4095
  · subst hg; decide
  · have hlast : nextGen g = g + 1 := if_neg (by simpa using hg)
    rw [hlast]
    refine ⟨by bv_omega, by bv_omega, fun h => absurd h hg⟩

/-! ## The descriptor in KEY_DESC (R125) -/

/-- A descriptor is put together of eight words as an entry is. -/
theorem State.keyDesc_eq_entry (s : State) (f : Nat) :
    s.keyDesc f = ((List.range 8).foldl (fun (e : Entry) i => e ||| ((s.reg (page f (0x1100 + 4 * i))).setWidth 512 <<< (32 * i))) 0).setWidth 256 := by
  have hzero : (0 : BitVec 256) = BitVec.setWidth 256 (0 : Entry) := by simp
  rw [State.keyDesc, hzero]
  refine List.foldl_hom (BitVec.setWidth 256) fun e i => ?_
  ext k hk
  simp

/-- A descriptor whose words stand in KEY_DESC is what it holds. -/
theorem State.keyDesc_of_words {s : State} {f : Nat} {d : BitVec 256} (h : ∀ i < 8, s.reg (page f (0x1100 + 4 * i)) = d.extractLsb' (32 * i) 32) :
    s.keyDesc f = d := by
  refine BitVec.eq_of_getLsbD_eq fun k hk => ?_
  rw [State.keyDesc_eq_entry, BitVec.getLsbD_setWidth, getLsbD_entryOfWords (fun i => s.reg (page f (0x1100 + 4 * i))) 8 k (by omega),
    h (k / 32) (by omega), BitVec.getLsbD_extractLsb', Nat.div_add_mod]
  have hbit : k % 32 < 32 := by omega
  simp [hk, hbit]

theorem State.keyDesc_congr {s t : State} {f : Nat} (h : ∀ i < 8, t.reg (page f (0x1100 + 4 * i)) = s.reg (page f (0x1100 + 4 * i))) :
    t.keyDesc f = s.keyDesc f := by
  refine List.foldl_ext _ _ _ fun e i hi => ?_
  rw [h i (List.mem_range.1 hi)]

/-- Words of a descriptor are written to KEY_DESC alone. -/
theorem State.setKeyDesc_spec (s : State) (f : Nat) (d : BitVec 256) :
    (∃ rs, s.setKeyDesc f d = { s with regs := rs }) ∧ (s.setKeyDesc f d).keyDesc f = d
    ∧ ∀ a, 0x1120 ≤ a → (s.setKeyDesc f d).reg (page f a) = s.reg (page f a) := by
  refine ⟨s.setRegs_frame _ _ _, State.keyDesc_of_words fun i hi => ?words, fun a ha => ?others⟩
  case words =>
    refine s.reg_setRegs (a := fun i => page f (0x1100 + 4 * i)) _ ?_ (List.mem_range.2 hi)
    exact List.nodup_range.imp fun hne => page_ne (by omega)
  case others =>
    refine s.reg_setRegs_ne _ fun i hi => page_ne ?_
    have := List.mem_range.1 hi
    omega

/-! ## KEY_CMD and its status (R125) -/

/-- KEY_CMD of a function with an OP written. -/
def State.keyOp (s : State) (f op : Nat) : State := s.setFld (page f 0x1124) 0 3 op

section Command

variable (s : State) (f op : Nat)

theorem State.keyCmd_acts {k : State → State} (hgo : s.bit (page f 0x1124) 31 = false) : s.keyCmd f op k = k (s.keyOp f op) :=
  (s.keyCmd_spec f op k).2 hgo

theorem State.keyOp_frame : ∃ rs, s.keyOp f op = { s with regs := rs } := ⟨_, rfl⟩

@[simp] theorem State.keyOp_tables :
    (s.keyOp f op).keys = s.keys ∧ (s.keyOp f op).freedKeys = s.freedKeys ∧ (s.keyOp f op).comms = s.comms := by
  simp [State.keyOp]

@[simp] theorem State.key_keyOp (i : Nat) : (s.keyOp f op).key i = s.key i := (s.setReg_reads _ _).2.2.2.1 i

theorem State.reg_keyOp_ne {b : Nat} (h : b ≠ page f 0x1124) : (s.keyOp f op).reg b = s.reg b := s.reg_setFld_ne _ _ _ h

/-- Registers below the pages of functions. -/
theorem State.fld_keyOp_below {a : Nat} (h : a < 0x400000) (lo w : Nat) : (s.keyOp f op).fld a lo w = s.fld a lo w :=
  s.fld_setFld_ne _ _ _ _ _ _ _ (by rw [page]; omega)

theorem State.grant_keyOp {off : Nat} (hoff : off < 0x40) (lo w : Nat) : (s.keyOp f op).grant f off lo w = s.grant f off lo w :=
  s.fld_setFld_ne _ _ _ _ _ _ _ (grant_ne_page f off _ hoff)

@[simp] theorem State.keyDesc_keyOp : (s.keyOp f op).keyDesc f = s.keyDesc f := State.keyDesc_congr fun _ _ => s.reg_keyOp_ne f op (page_ne (by omega))

@[simp] theorem State.poolReady_keyOp : (s.keyOp f op).poolReady = s.poolReady := by
  simp only [State.poolReady, State.bit, s.fld_keyOp_below f op (by decide : 0x200 < 0x400000)]

@[simp] theorem State.namedKey_keyOp : (s.keyOp f op).namedKey f = s.namedKey f := by
  simp only [State.namedKey, s.reg_keyOp_ne f op (page_ne (by decide) : page f 0x1120 ≠ page f 0x1124), State.key_keyOp]

@[simp] theorem State.nextIndex_keyOp : (s.keyOp f op).nextIndex = s.nextIndex := by
  obtain ⟨hkeys, hfreed, -⟩ := s.keyOp_tables f op
  rw [State.nextIndex, hkeys, hfreed, State.nextIndex]

theorem State.badKeyDesc_keyOp (d : BitVec 256) : (s.keyOp f op).badKeyDesc f d = s.badKeyDesc f d := by
  have hself : (s.keyOp f op).self = s.self := s.fld_keyOp_below f op (by decide) 0 20
  have hcomm : ∀ c, (s.keyOp f op).comm c = s.comm c := fun c => by rw [State.comm, State.comm, (s.keyOp_tables f op).2.2]
  simp only [State.badKeyDesc, State.myRank, hself, hcomm]

theorem State.keyGranted_keyOp (d : BitVec 256) : (s.keyOp f op).keyGranted f d = s.keyGranted f d := by
  have hacc : ∀ n lo w, (s.keyOp f op).fld (0x1A0000 + 0x10 * (n % 4)) lo w = s.fld (0x1A0000 + 0x10 * (n % 4)) lo w :=
    fun n => s.fld_keyOp_below f op (by omega)
  simp only [State.keyGranted, State.poolBase, State.poolLen, State.accPresent, State.accOwner, State.bit, hacc,
    s.grant_keyOp f op (by decide : 8 < 0x40)]
  rfl

/-- REGISTER's RESULT does not hang on KEY_CMD. -/
@[simp] theorem State.registerResult_keyOp (d : BitVec 256) : (s.keyOp f op).registerResult f d = s.registerResult f d := by
  obtain ⟨hkeys, -⟩ := s.keyOp_tables f op
  rw [State.registerResult, s.badKeyDesc_keyOp f op, s.keyGranted_keyOp f op, s.grant_keyOp f op (by decide : 0xC < 0x40), State.keysHeld,
    State.nextIndex_keyOp, hkeys, State.registerResult, State.keysHeld]

end Command

/-- A key command's end tells its RESULT and the key's STATE, and writes KEY_CMD and its status alone (R125). -/
theorem State.keyDone_spec {s u : State} {f res st : Nat} (hstatus : u.reg (page f 0x1128) = s.reg (page f 0x1128)) (hres : res < 16) (hst : st < 4) :
    let t := u.keyDone f res st
    State.told s t (page f 0x1128) res ∧ t.fld (page f 0x1128) 12 2 = st
    ∧ (∀ a, a ≠ 0x1124 → a ≠ 0x1128 → t.reg (page f a) = u.reg (page f a)) ∧ ∃ rs, t = { u with regs := rs } := by
  intro t
  have ht : t = ((u.setFld (page f 0x1124) 31 1 0).setFld (page f 0x1128) 12 2 st).setResult (page f 0x1128) res := rfl
  have hcmd : page f 0x1128 ≠ page f 0x1124 := page_ne (by decide)
  obtain ⟨⟨hresult, hseq⟩, hothers⟩ :=
    ((u.setFld (page f 0x1124) 31 1 0).setFld (page f 0x1128) 12 2 st).setResult_told (page f 0x1128) res hres
  refine ⟨⟨hresult, hseq.trans ?seq⟩, ?state, fun a ha hb => ?others, ?frame⟩
  case seq =>
    rw [State.fld_setFld_other _ _ _ _ _ _ _ (by omega) (by omega), State.fld_setFld_ne _ _ _ _ _ _ _ _ hcmd, State.fld, hstatus]
    rfl
  case state =>
    rw [ht, State.setResult, State.bumpSeq, State.fld_setFld_other _ _ _ _ _ _ _ (by omega) (by omega),
      State.fld_setFld_other _ _ _ _ _ _ _ (by omega) (by omega), State.fld_setFld _ _ _ _ _ (by omega)]
    exact Nat.mod_eq_of_lt hst
  case others =>
    rw [ht, hothers _ (page_ne hb), State.reg_setFld_ne _ _ _ _ (page_ne hb), State.reg_setFld_ne _ _ _ _ (page_ne ha)]
  case frame =>
    exact State.setFld_of_regs (State.setFld_of_regs (State.setFld_of_regs (State.setFld_of_regs ⟨u.regs, rfl⟩ _ _ _ _) _ _ _ _) _ _ _ _) _ _ _ _

theorem KeyState.code_lt (k : KeyState) : k.code < 4 := by cases k <;> decide

/-- What is done to a registration writes no register. -/
theorem State.key_ops_reg (s : State) (f i : Nat) (d : BitVec 256) (b : Nat) :
    (s.makeKey f i d).reg b = s.reg b ∧ (s.revokeKey i).reg b = s.reg b ∧ (s.freeKey i).reg b = s.reg b := ⟨rfl, rfl, rfl⟩

/-- A new registration takes the next GEN of its index (R123). -/
theorem State.key_makeKey (s : State) (f i : Nat) (d : BitVec 256) (j : Nat) :
    (s.makeKey f i d).key j = if j = i then { gen := nextGen (s.key i).gen, state := .valid, owner := f, desc := d } else s.key j :=
  s.key_setKey i _ j

/-! ## The four commands (R126, R127, R131, R132) -/

/-- REGISTER of a descriptor has taken index i, and the new key stands in KEY_CMD_KEY (R127). -/
def State.keyMade (s : State) (f i : Nat) (d : BitVec 256) : State :=
  ((s.keyOp f 1).makeKey f i d).setReg (page f 0x1120) (keyOf i (nextGen (s.key i).gen))

section Named

variable {s : State} {f i : Nat} (hgo : s.bit (page f 0x1124) 31 = false)
include hgo

theorem exec_keyQuery (hnamed : s.namedKey f = some i) :
    exec (.keyQuery f) s = .next (((s.keyOp f 0).setKeyDesc f (s.key i).desc).keyDone f 1 (s.key i).state.code) := by
  simp only [exec, execKeyQuery, s.keyCmd_acts f 0 hgo, State.namedKey_keyOp, hnamed, State.key_keyOp]

/-- REGISTER of a good descriptor, where what it names can be registered now, returns the key of the next index (R123, R127). -/
theorem exec_keyRegister (hgood : s.registerResult f (s.keyDesc f) = 1) (hindex : s.nextIndex = some i)
    (hready : s.poolReady = true ∨ ({ desc := s.keyDesc f } : KeyEnt).space ≠ 2) :
    exec (.keyRegister f) s = .next ((s.keyMade f i (s.keyDesc f)).keyDone f 1 1) := by
  have hnow : (decide (({ desc := s.keyDesc f } : KeyEnt).space = 2) && !s.poolReady) = false := by
    rcases hready with h | h
    · rw [h, Bool.not_true, Bool.and_false]
    · rw [decide_eq_false h, Bool.false_and]
  have hgen : (((s.keyOp f 1).makeKey f i (s.keyDesc f)).key i).gen = nextGen (s.key i).gen := by
    rw [State.key_makeKey, if_pos rfl, State.key_keyOp]
  simp only [exec, execKeyRegister, s.keyCmd_acts f 1 hgo, State.keyDesc_keyOp, State.poolReady_keyOp, hnow, State.registerKey,
    State.registerResult_keyOp, hgood, State.nextIndex_keyOp, hindex, hgen, State.keyMade, Bool.false_eq_true, if_false]

/-- REVOKE of a VALID key is its revocation point (R131). -/
theorem exec_keyRevoke (hnamed : s.namedKey f = some i) (hvalid : (s.key i).state = .valid) :
    exec (.keyRevoke f) s = .next (((s.keyOp f 2).revokeKey i).keyDone f 1 (((s.keyOp f 2).revokeKey i).key i).state.code) := by
  simp only [exec, execKeyRevoke, s.keyCmd_acts f 2 hgo, State.namedKey_keyOp, hnamed, State.key_keyOp, hvalid, beq_self_eq_true, if_true]

theorem exec_keyRelease (hnamed : s.namedKey f = some i) (hdrained : (s.key i).state = .drained) :
    exec (.keyRelease f) s = .next (((s.keyOp f 3).freeKey i).keyDone f 1 0) := by
  simp only [exec, execKeyRelease, s.keyCmd_acts f 3 hgo, State.namedKey_keyOp, hnamed, State.key_keyOp, hdrained]

end Named

/-- QUERY writes KEY_DESC, KEY_CMD and its status, and nothing else. -/
theorem State.keyOp_queries (s : State) (f op : Nat) (d : BitVec 256) (st : KeyState) :
    let t := ((s.keyOp f op).setKeyDesc f d).keyDone f 1 st.code
    { t with regs := s.regs } = s ∧ t.keyDesc f = d ∧ State.told s t (page f 0x1128) 1 ∧ t.fld (page f 0x1128) 12 2 = st.code := by
  intro t
  obtain ⟨hframe, hdesc, hkept⟩ := (s.keyOp f op).setKeyDesc_spec f d
  have hstatus := (hkept 0x1128 (by decide)).trans (s.reg_keyOp_ne f op (page_ne (by decide)))
  obtain ⟨htold, hstate, hothers, hdone⟩ := State.keyDone_spec (res := 1) hstatus (by decide) st.code_lt
  refine ⟨State.frame_of_regs (State.regs_trans (State.regs_trans (s.keyOp_frame f op) hframe) hdone), ?_, htold, hstate⟩
  exact (State.keyDesc_congr fun i hi => hothers _ (by omega) (by omega)).trans hdesc

/-- The end of a command that is DONE and has left x as registration i, in a state u that has no other key changed. -/
theorem State.keyDone_puts {s u : State} {f i st : Nat} {x : KeyEnt} (hkeys : u.keys = (s.setKey i x).keys)
    (hstatus : u.reg (page f 0x1128) = s.reg (page f 0x1128)) (hst : st < 4) :
    let t := u.keyDone f 1 st
    State.told s t (page f 0x1128) 1 ∧ t.key i = x ∧ (∀ j, j ≠ i → t.key j = s.key j)
    ∧ (∀ a, a ≠ 0x1124 → a ≠ 0x1128 → t.reg (page f a) = u.reg (page f a)) ∧ ∃ rs, t = { u with regs := rs } := by
  intro t
  obtain ⟨htold, -, hothers, rs, hdone⟩ := State.keyDone_spec (res := 1) hstatus (by decide) hst
  have hkey : ∀ j, t.key j = if j = i then x else s.key j := by
    intro j
    have ht : t.keys = (s.setKey i x).keys := (congrArg State.keys hdone).trans hkeys
    rw [State.key, ht]
    exact s.key_setKey i x j
  exact ⟨htold, by rw [hkey, if_pos rfl], fun j hj => by rw [hkey, if_neg hj], hothers, rs, hdone⟩

theorem State.keyMade_spec (s : State) (f i : Nat) (d : BitVec 256) :
    let gen := nextGen (s.key i).gen
    let u := s.keyMade f i d
    u.keys = (s.setKey i { gen, state := .valid, owner := f, desc := d }).keys ∧ u.reg (page f 0x1120) = keyOf i gen
    ∧ u.reg (page f 0x1128) = s.reg (page f 0x1128) ∧ u.pool = s.pool ∧ u.queues = s.queues := by
  intro gen u
  obtain ⟨rs, hop⟩ := s.keyOp_frame f 1
  refine ⟨?keys, ?key, ?status, ?pool, ?queues⟩
  case keys => simp only [u, State.keyMade, hop]; rfl
  case key => exact (State.reg_setReg _ _ _ _).trans (if_pos rfl)
  case status =>
    simp only [u, State.keyMade]
    rw [State.reg_setReg_ne _ _ (page_ne (by decide)), ((s.keyOp f 1).key_ops_reg f i d _).1, s.reg_keyOp_ne f 1 (page_ne (by decide))]
  all_goals simp [u, State.keyMade, State.makeKey, State.keyOp]

/-- REGISTER returns the key of the registration that it makes (R123, R127). -/
theorem State.keyMade_registers (s : State) (f i : Nat) (d : BitVec 256) :
    let gen := nextGen (s.key i).gen
    let t := (s.keyMade f i d).keyDone f 1 1
    State.told s t (page f 0x1128) 1 ∧ t.key i = { gen, state := .valid, owner := f, desc := d } ∧ t.reg (page f 0x1120) = keyOf i gen
    ∧ (∀ j, j ≠ i → t.key j = s.key j) ∧ t.pool = s.pool ∧ t.queues = s.queues := by
  intro gen t
  obtain ⟨hkeys, hreg, hstatus, hpool, hqueues⟩ := s.keyMade_spec f i d
  obtain ⟨htold, hself, hother, hregs, rs, hdone⟩ := State.keyDone_puts (st := 1) hkeys hstatus (by decide)
  refine ⟨htold, hself, (hregs _ (by decide) (by decide)).trans hreg, hother, ?pool, ?queues⟩
  case pool => simp only [t, hdone, hpool]
  case queues => simp only [t, hdone, hqueues]

/-- REVOKE leaves a key DRAINING while accesses on it have not finished (R131, R132). -/
theorem State.keyOp_revokes (s : State) (f op i : Nat) :
    let u := (s.keyOp f op).revokeKey i
    let t := u.keyDone f 1 (u.key i).state.code
    let x := { s.key i with state := if s.keyBusy i then .draining else .drained }
    State.told s t (page f 0x1128) 1 ∧ t.key i = x ∧ (∀ j, j ≠ i → t.key j = s.key j) ∧ { t with regs := s.regs, keys := s.keys } = s := by
  intro u t x
  obtain ⟨rs, hop⟩ := s.keyOp_frame f op
  have hrevoked : u = { s.setKey i x with regs := rs } := by simp only [u, hop]; rfl
  have hkeys : u.keys = (s.setKey i x).keys := by rw [hrevoked]
  have hstatus : u.reg (page f 0x1128) = s.reg (page f 0x1128) :=
    ((s.keyOp f op).key_ops_reg f i 0 _).2.1.trans (s.reg_keyOp_ne f op (page_ne (by decide)))
  obtain ⟨htold, hself, hother, -, rs', hdone⟩ := State.keyDone_puts hkeys hstatus (KeyState.code_lt _)
  refine ⟨htold, hself, hother, ?_⟩
  simp only [t, hdone, hrevoked, State.setKey]

/-- RELEASE frees the key's index, the last to be taken again (R123, R132). -/
theorem State.keyOp_releases (s : State) (f op i : Nat) :
    let t := ((s.keyOp f op).freeKey i).keyDone f 1 0
    State.told s t (page f 0x1128) 1 ∧ t.key i = { s.key i with state := .free } ∧ (∀ j, j ≠ i → t.key j = s.key j)
    ∧ t.freedKeys = s.freedKeys ++ [i] := by
  intro t
  obtain ⟨rs, hop⟩ := s.keyOp_frame f op
  have hkeys : ((s.keyOp f op).freeKey i).keys = (s.setKey i { s.key i with state := .free }).keys := by rw [hop]; rfl
  have hfreed : ((s.keyOp f op).freeKey i).freedKeys = s.freedKeys ++ [i] := by rw [hop]; rfl
  have hstatus : ((s.keyOp f op).freeKey i).reg (page f 0x1128) = s.reg (page f 0x1128) :=
    ((s.keyOp f op).key_ops_reg f i 0 _).2.2.trans (s.reg_keyOp_ne f op (page_ne (by decide)))
  obtain ⟨htold, hself, hother, -, rs', hdone⟩ := State.keyDone_puts (st := 0) hkeys hstatus (by decide)
  exact ⟨htold, hself, hother, (congrArg State.freedKeys hdone).trans hfreed⟩

/-! ## The end of draining (R132, R133) -/

theorem exec_keyDrained {s : State} {i : Nat} (hdraining : (s.key i).state = .draining) (hidle : s.keyBusy i = false) :
    exec (.keyDrained i) s = .next (if (s.key i).autoRelease = true then s.freeKey i else s.setKey i { s.key i with state := .drained }) := by
  simp only [exec, execKeyDrained, hdraining, hidle, beq_self_eq_true, Bool.not_false, Bool.and_self, if_true]

/-- Settles O28: each command's registration, and the registers that it writes. (R123, R124, R125, R126, R127, R131, R132, R133) -/
theorem keyCommandsDone : Obligations.KeyCommandsDone := by
  refine ⟨nextGen_spec, fun s f i hgo => ?_⟩
  intro named k
  refine ⟨fun hnamed => ?query, fun hgood hindex hready => ?register, fun hnamed hvalid => ?revoke, fun hnamed hdrained => ?release,
    fun hdraining hidle hkept => ?drained, fun hdraining hidle hauto => ?freed⟩
  case query => exact ⟨_, exec_keyQuery hgo hnamed, s.keyOp_queries f 0 k.desc k.state⟩
  case register => exact ⟨_, exec_keyRegister hgo hgood hindex hready, s.keyMade_registers f i (s.keyDesc f)⟩
  case revoke => exact ⟨_, exec_keyRevoke hgo hnamed hvalid, s.keyOp_revokes f 2 i⟩
  case release => exact ⟨_, exec_keyRelease hgo hnamed hdrained, s.keyOp_releases f 3 i⟩
  case drained => exact (exec_keyDrained hdraining hidle).trans (congrArg Outcome.next (if_neg (Bool.eq_false_iff.1 hkept)))
  case freed => exact (exec_keyDrained hdraining hidle).trans (congrArg Outcome.next (if_pos hauto))

end Sys2Proof.Machine
end

section
/-! PROOFS. The messages of a collective, and its timers and slots: what a fresh packet of a known handle does (R150, R241), what a peer that is not
ready leads to, and what SLOT_GRANT and SLOT_FINISH choose (R160, R162). -/

namespace Sys2Proof.Machine

open Host (Outcome)

/-! ## Taking a collective packet (R150, R241) -/

section Packet

variable (s : State) (h : Hdr) (kind : CollKind) (c : CollF) (payload : List Byte)

/-- The delivered packet of a collective message, and the state that it is taken from. -/
def State.collTaken : InPkt × State := s.takePkt { hdr := h, body := .coll kind c, payload }

/-- The state once a fresh packet of a collective has been delivered. -/
def State.collDelivered : State :=
  ((s.collTaken h kind c payload).2.rxCheck h.src.toNat h.psn h.lup).2.delivered h.src.toNat h.psn h.ce stOk 0

/-- A packet of a collective acts: its sender is a node that is not lost, its PSN is fresh, and its handle is known here with its tag. -/
def State.collActs (m : Comm) : Prop :=
  let a := (s.collTaken h kind c payload).2
  a.boundOff = false ∧ a.isLost h.src.toNat = false ∧ h.src.toNat ≠ a.self ∧ (a.rxCheck h.src.toNat h.psn h.lup).1 = .fresh
    ∧ (s.collDelivered h kind c payload).comm c.comm.toNat = some m ∧ m.tag = h.ttag

end Packet

section

variable {s : State} {h : Hdr} {kind : CollKind} {c : CollF} {payload : List Byte} {m : Comm}

theorem State.knownHandle_tagged {x : InPkt} {k : State → State} (hcomm : s.comm c.comm.toNat = some m) (htag : m.tag = h.ttag) :
    s.knownHandle h c x k = k s := by
  simp only [State.knownHandle, hcomm, htag, if_true]

/-- A fresh packet from another node that is not lost is delivered, and what it carries acts. -/
theorem State.takeColl_delivers (k : State → InPkt → State) (ho : s.collActs h kind c payload m) :
    s.takeColl h kind c payload k = (k (s.collDelivered h kind c payload) (s.collTaken h kind c payload).1).settle := by
  obtain ⟨hbound, hlost, hself, hfresh, -, -⟩ := ho
  have hpeer : h.src.toNat ≠ ((s.collTaken h kind c payload).2.rxCheck h.src.toNat h.psn h.lup).2.self := by rwa [State.self_rxCheck]
  have hnew : (s.collTaken h kind c payload).2.freshPsn h = true := by simp [State.freshPsn, hfresh]
  have harrive := fun f => ((s.collTaken h kind c payload).2.arrive_spec h false f).2.2.2 hbound hself hlost hfresh
  simp only [State.collTaken] at hbound hlost hpeer hnew harrive
  simp only [State.takeColl, State.collDelivered, State.collTaken, hbound, hlost, hnew, harrive, hpeer, Bool.false_eq_true, if_false, if_true]

theorem State.takeTransfer_stores (ho : s.collActs h kind c payload m) :
    s.takeTransfer h kind c payload
      = ((s.collDelivered h kind c payload).storePacket (s.collTaken h kind c payload).1 kind c).settle := by
  obtain ⟨-, -, -, -, hcomm, htag⟩ := id ho
  rw [State.takeTransfer, State.takeColl_delivers _ ho, State.knownHandle_tagged hcomm htag]

theorem State.takeAnswer_acts {k : State → State} (ho : s.collActs h kind c [] m) :
    s.takeAnswer h kind c k = (k ((s.collDelivered h kind c []).freePkt (s.collTaken h kind c []).1)).settle := by
  obtain ⟨-, -, -, -, hcomm, htag⟩ := id ho
  rw [State.takeAnswer, State.takeColl_delivers _ ho, State.knownHandle_tagged hcomm htag]

end

/-- Settles O39: a message that is taken either goes to the store or, its cells freed, acts on the transfer that it names.
(R150, R158, R159, R164, R165, R166, R168, R174, R175, R241, R273) -/
theorem collectiveMessages : Obligations.CollectiveMessages := by
  intro s h c m taken as got open_
  have stores (kind : CollKind) (payload : List Byte) (ho : open_ kind payload) :=
    congrArg (β := Outcome State Fault Refusal) Outcome.next (s.takeTransfer_stores ho)
  have acts (kind : CollKind) (k : State → State) (ho : open_ kind []) :=
    congrArg (β := Outcome State Fault Refusal) Outcome.next (s.takeAnswer_acts (k := k) ho)
  refine ⟨fun payload => ⟨stores _ _, stores _ _, stores _ _, stores _ _, stores _ _⟩, ?resendReq, ?acceptAck, ?resultAck, ?nak, ?notReady⟩
  case resendReq => exact acts .resendReq _
  case acceptAck => exact acts .acceptAck _
  case resultAck => exact acts .resultAck _
  case nak => exact acts .nak _
  case notReady => exact fun ho => congrArg Outcome.next (s.takeColl_delivers _ ho)

/-! ## Timers and losses of collectives (R150, R176) -/

/-- A peer that stays unknown for one transfer ends its collective: no copy for that peer alone is kept (R150). -/
theorem exec_handleTimeout {s : State} {comm : BitVec 24} {node : BitVec 20} {x : Xfer} {c : Coll} {r : Run}
    (hx : s.unready comm.toNat node.toNat = [x]) (hc : s.collAt comm.toNat x.cseq = some c) (hr : s.run? c.rid = some r) :
    exec (.handleTimeout comm node) s = .next (({ s with xfers := s.xfers.filter (fun y => !(x.chunk == y.chunk && x.kind == y.kind
      && y.comm == comm.toNat && y.cseq == x.cseq && y.peers.all (fun z => z.node == node.toNat))) } : State).completeWith r stMismatch).settle := by
  have hpurged (xs : List Xfer) : (({ s with xfers := xs } : State).collAt comm.toNat x.cseq).bind
      (fun c => ({ s with xfers := xs } : State).run? c.rid) = some r := Option.bind_eq_some_iff.2 ⟨c, hc, hr⟩
  simp [exec, execHandleTimeout, hx, hpurged]

theorem exec_chunkLoss {s : State} {p : Nat} {h : Hdr} {c : CollF} {m : Comm} :
    let a := s.takePkt { hdr := h, body := .coll .chunkLoss c, payload := [] }
    s.boundOff = false → s.isLost h.src.toNat = false → c.opcode ≠ 0x40 → a.2.comm c.comm.toNat = some m → m.tag = h.ttag →
      exec (.chunkLoss p h c) s = .next ((a.2.freePkt a.1).loseChunk c.comm.toNat c.cseq c.opcode c.chunk.toNat [] (some h.src.toNat)).settle := by
  intro a hbound hlost hop hcomm htag
  simp only [exec, execChunkLoss, hbound, hlost, hop, State.knownHandle_tagged hcomm htag, Bool.false_eq_true, if_false, a]

/-! ## Slots (R160, R162) -/

/-- The reserved slot and ticket of the only communicator, both free, go to its next request that needs a slot. -/
theorem State.slotGrant_reserved {s : State} {c : Coll} {q h : Nat} (hcomms : s.comms.map (·.1) = [h]) (hslots : s.slots = []) (htickets : s.rticks = [])
    (hnext : s.nextRequest h = some (c, q)) (hop : c.op ≠ 0x31) : s.slotGrant = s.grantSlot c q true := by
  have hfree : s.ticketFree h = true := by simp [State.ticketFree, htickets]
  have hneeds : (s.nextRequest h).filter (fun x => x.1.op != 0x31) = some (c, q) := by
    rw [hnext]
    exact if_pos (bne_iff_ne.2 hop)
  simp only [State.slotGrant, hcomms, hslots, hfree, hneeds, List.any_nil, Bool.not_true, Bool.or_self, Bool.false_eq_true, if_false,
    List.findSome?_cons]

/-- A slot that lacks no input, and of a COMB no grant, finishes. -/
theorem State.slotFinish_full {s : State} {n : Nat} {y : RSlot} {c : Coll} {r : Run} (hy : Tab.get (fun _ => none) s.slots n = some y)
    (hc : s.collAt y.comm y.cseq = some c) (hr : s.run? c.rid = some r) (hop : c.op ≠ 0x40) (hfull : c.slotTotal y.chunk ≤ y.got)
    (hgrants : c.op = 0x36 → c.grantsIn = true) : s.slotFinish n = s.finishSlot r c n y := by
  have hstripe : (c.op == 0x40) = false := beq_false_of_ne hop
  have hlacks : (decide (y.got < c.slotTotal y.chunk) || (c.op == 0x36 && !c.grantsIn)) = false := by
    simpa [Nat.not_lt.2 hfull] using hgrants
  simp only [State.slotFinish, hy, hc, hstripe, hr, hlacks, Bool.false_eq_true, if_false]

/-- Settles O40: each timer and each slot command in the one branch that its hypotheses select. (R149, R151, R160, R162, R164, R166, R169, R176) -/
theorem collectiveTimersAndSlots : Obligations.CollectiveTimersAndSlots := by
  intro s
  refine ⟨?retry, ?timeout, ?loss, ?grant, ?finish⟩
  case retry => exact fun comm node => rfl
  case timeout => exact fun comm node x c r hx _ hc hr => exec_handleTimeout hx hc hr
  case loss => exact fun p h c m => exec_chunkLoss
  case grant =>
    exact fun c q h hcomms hslots htickets hnext hop => congrArg (fun t : State => Outcome.next t.settle) (State.slotGrant_reserved hcomms hslots htickets hnext hop)
  case finish =>
    exact fun n y c r hy hc hr hop hfull hgrants => congrArg (fun t : State => Outcome.next t.settle) (State.slotFinish_full hy hc hr hop hfull hgrants)

end Sys2Proof.Machine
end

section
/-! PROOFS. Reduction arithmetic: what an FP32 code can stand for and its square root (R180, R205), and the operators on integers (R190). -/

namespace Sys2Proof.Machine

/-! ## What a code stands for (R180) -/

/-- A code is a NaN, the infinity of its sign, or a finite value of its sign whose fraction is zero only where its magnitude code is. -/
theorem Fmt.value_cases (f : Fmt) (code : Nat) :
    f.value code = .nan
    ∨ (f.value code = .inf (code.testBit (f.ebits + f.fbits)) ∧ f.inf = some (code % f.sbit))
    ∨ ∃ m e, f.value code = .fin (code.testBit (f.ebits + f.fbits)) m e ∧ (m = 0 → code % f.sbit = 0) := by
  rw [Nat.testBit_eq_decide_div_mod_eq, Fmt.value]
  by_cases hmag : code % f.sbit ≤ f.maxCode
  · refine .inr (.inr ?_)
    by_cases hexp : code % f.sbit / 2 ^ f.fbits = 0
    · refine ⟨code % f.sbit % 2 ^ f.fbits, f.emin, by simp only [hmag, hexp, if_true]; rfl, fun hfrac => ?_⟩
      rw [← Nat.div_add_mod (code % f.sbit) (2 ^ f.fbits), hexp, hfrac, Nat.mul_zero]
    · refine ⟨_, _, by simp only [hmag, hexp, if_true, if_false]; rfl, fun hzero => ?_⟩
      exact absurd (Nat.eq_zero_of_add_eq_zero_right hzero) (Nat.two_pow_pos _).ne'
  · by_cases hinf : f.inf = some (code % f.sbit)
    · exact .inr (.inl ⟨by simp only [hmag, hinf, if_true, if_false]; rfl, hinf⟩)
    · exact .inl (by simp only [hmag, hinf, if_false])

/-- An FP32 code is its sign and its magnitude code. -/
theorem word_eq_of_sign_of_magnitude {a b : Word} (hsign : a.getLsbD 31 = b.getLsbD 31) (hmag : a.toNat % 2 ^ 31 = b.toNat % 2 ^ 31) : a = b := by
  rw [BitVec.getLsbD, BitVec.getLsbD, Nat.testBit_eq_decide_div_mod_eq, Nat.testBit_eq_decide_div_mod_eq, decide_eq_decide] at hsign
  exact BitVec.eq_of_toNat_eq (by omega)

theorem fzero_getLsbD_sign (n : Bool) : (fzero n).getLsbD 31 = n := by cases n <;> rfl

theorem finf_getLsbD_sign (n : Bool) : (finf n).getLsbD 31 = n := by cases n <;> rfl

theorem fzero_magnitude (n : Bool) : (fzero n).toNat % 2 ^ 31 = 0 := by cases n <;> rfl

theorem finf_magnitude (n : Bool) : (finf n).toNat % 2 ^ 31 = 0x7F800000 := by cases n <;> rfl

/-- The cases of an FP32 code: only the two codes of zero have a finite value with fraction 0, and only two codes are infinities. -/
theorem fval_cases (a : Word) :
    fval a = .nan
    ∨ (fval a = .inf (a.getLsbD 31) ∧ a = finf (a.getLsbD 31))
    ∨ ∃ m e, fval a = .fin (a.getLsbD 31) m e ∧ (m = 0 → a = fzero (a.getLsbD 31)) := by
  obtain hnan | ⟨hval, hinf⟩ | ⟨m, e, hval, hzero⟩ := fp32.value_cases a.toNat
  · exact .inl hnan
  · refine .inr (.inl ⟨hval, word_eq_of_sign_of_magnitude (finf_getLsbD_sign _).symm ?_⟩)
    exact (Option.some.inj hinf).symm.trans (finf_magnitude _).symm
  · refine .inr (.inr ⟨m, e, hval, fun hm => word_eq_of_sign_of_magnitude (fzero_getLsbD_sign _).symm ?_⟩)
    exact (hzero hm).trans (fzero_magnitude _).symm

/-! ## Square root (R205) -/

section SquareRoot

variable {a : Word} {m : Nat} {e : Int}

theorem fsqrt_nan (h : fval a = .nan) : fsqrt a = (qnan, excNan) := by simp only [fsqrt, h]

theorem fsqrt_zero (n : Bool) : fsqrt (fzero n) = (fzero n, Exc.none) := by cases n <;> rfl

theorem fsqrt_posInf : fsqrt (finf false) = (finf false, Exc.none) := rfl

theorem fsqrt_negInf (h : fval a = .inf true) : fsqrt a = (qnan, excInvalid) := by simp only [fsqrt, h]

theorem fsqrt_negFinite (h : fval a = .fin true m e) (hm : m ≠ 0) : fsqrt a = (qnan, excInvalid) := by
  obtain ⟨k, rfl⟩ := Nat.exists_eq_succ_of_ne_zero hm
  simp only [fsqrt, h]

theorem fsqrt_posFinite (h : fval a = .fin false m e) (hm : m ≠ 0) : fsqrt a = fmul a (frsqrt a).1 := by
  obtain ⟨k, rfl⟩ := Nat.exists_eq_succ_of_ne_zero hm
  simp only [fsqrt, h]

/-- What is negative and not −0 has no square root: −infinity and every negative finite value alike. -/
theorem fsqrt_negative (hsign : a.getLsbD 31 = true) (hnan : fval a ≠ .nan) (hzero : a ≠ fzero true) : fsqrt a = (qnan, excInvalid) := by
  have hcases := fval_cases a
  rw [hsign] at hcases
  obtain h | ⟨hinf, -⟩ | ⟨m, e, hfin, hm⟩ := hcases
  · exact absurd h hnan
  · exact fsqrt_negInf hinf
  · exact fsqrt_negFinite hfin (fun h => hzero (hm h))

theorem fsqrt_positive (hsign : a.getLsbD 31 = false) (hnan : fval a ≠ .nan) (hzero : a ≠ fzero false) (hinf : a ≠ finf false) :
    fsqrt a = fmul a (frsqrt a).1 := by
  have hcases := fval_cases a
  rw [hsign] at hcases
  obtain h | ⟨-, h⟩ | ⟨m, e, hfin, hm⟩ := hcases
  · exact absurd h hnan
  · exact absurd h hinf
  · exact fsqrt_posFinite hfin (fun h => hzero (hm h))

end SquareRoot

/-- Settles O9: the special codes by their values, every other code by its sign. (R205) -/
theorem squareRootCases : Obligations.SquareRootCases := by
  intro a
  refine ⟨?nan, ?posZero, ?negZero, ?posInf, ?negative, ?positive⟩
  case nan => exact fun h => congrArg Prod.fst (fsqrt_nan h)
  case posZero => rintro rfl; exact congrArg Prod.fst (fsqrt_zero false)
  case negZero => rintro rfl; exact congrArg Prod.fst (fsqrt_zero true)
  case posInf => rintro rfl; exact congrArg Prod.fst fsqrt_posInf
  case negative =>
    intro hsign hnan hzero
    rw [fsqrt_negative hsign hnan hzero]
    exact ⟨rfl, rfl⟩
  case positive => exact fun hsign hnan hzero hinf => congrArg Prod.fst (fsqrt_positive hsign hnan hzero hinf)

/-! ## Operators on integers (R190) -/

section Integers

variable {a b : DWord}

theorem opElem_sum_exact (hlow : -(2 : Int) ^ 63 ≤ a.toInt + b.toInt) (hhigh : a.toInt + b.toInt < 2 ^ 63) :
    opElem true 0 a b = (a + b, Exc.none) :=
  (if_neg (not_lt.2 hlow)).trans (if_neg (not_le.2 hhigh))

theorem opElem_sum_above (h : 2 ^ 63 ≤ a.toInt + b.toInt) : opElem true 0 a b = (0x7FFFFFFFFFFFFFFF, excOverflow true) :=
  (if_neg (not_lt.2 (le_trans (by decide) h))).trans (if_pos h)

theorem opElem_sum_below (h : a.toInt + b.toInt < -(2 : Int) ^ 63) : opElem true 0 a b = (0x8000000000000000, excOverflow true) :=
  if_pos h

theorem opElem_max_toInt : (opElem true 1 a b).1.toInt = max a.toInt b.toInt := by
  rw [max_def_lt, ← apply_ite BitVec.toInt]
  rfl

theorem opElem_min_toInt : (opElem true 2 a b).1.toInt = min a.toInt b.toInt := by
  rw [min_comm, min_def_lt, ← apply_ite BitVec.toInt]
  rfl

end Integers

/-- Settles O10: a sum by where it lies against the two bounds, the other operators by their definitions. (R190) -/
theorem integerOperators : Obligations.IntegerOperators := by
  intro a b
  refine ⟨?exact, ?above, ?below, opElem_max_toInt, opElem_min_toInt, rfl, rfl, rfl⟩
  case exact =>
    intro hlow hhigh
    rw [opElem_sum_exact hlow hhigh]
    exact ⟨rfl, rfl⟩
  case above =>
    intro h
    rw [opElem_sum_above h]
    exact ⟨rfl, rfl⟩
  case below =>
    intro h
    rw [opElem_sum_below h]
    exact ⟨rfl, rfl⟩

end Sys2Proof.Machine
end

section
/-! PROOFS. Packets as bytes: a header spelled from its fields, what its receivers read at each place, and its CRC32C (R3, R82, R229, R230, R239,
R270 to R274). -/

namespace Sys2Proof.Machine

/-! ## Numbers as bytes (R3) -/

@[simp] theorem length_leBytes (n v : Nat) : (leBytes n v).length = n := by
  induction n generalizing v with
  | zero => rfl
  | succ n ih => rw [leBytes, List.length_cons, ih]

theorem leNat_leBytes (n v : Nat) : leNat (leBytes n v) = v % 2 ^ (8 * n) := by
  induction n generalizing v with
  | zero => rw [Nat.mul_zero, Nat.pow_zero, Nat.mod_one]; rfl
  | succ n ih =>
    have hpow : 2 ^ (8 * (n + 1)) = 256 * 2 ^ (8 * n) := by rw [Nat.mul_succ, Nat.pow_add, Nat.mul_comm]
    rw [leBytes, leNat, ih, hpow, Nat.mod_mul, BitVec.toNat_ofNat]

theorem leBytes_one (b : Byte) : leBytes 1 b.toNat = [b] := by
  rw [leBytes, leBytes, BitVec.ofNat_toNat, BitVec.setWidth_eq]

/-! ## Rows of fields: fields of bits in a number, and numbers of whole bytes in a header -/

/-- A row of items, each given with its width: the item that begins at place k. -/
def itemAt {α : Type} : List (Nat × α) → Nat → Option (Nat × α)
  | [], _ => none
  | f :: fs, k => if k = 0 then some f else if f.1 ≤ k then itemAt fs (k - f.1) else none

/-- A row has an item at place k as its first item, or later, past the width of its first item. -/
theorem itemAt_cons {α : Type} {f x : Nat × α} {fs : List (Nat × α)} {k : Nat} (h : itemAt (f :: fs) k = some x) :
    (k = 0 ∧ f = x) ∨ (f.1 ≤ k ∧ itemAt fs (k - f.1) = some x) := by
  rw [itemAt] at h
  by_cases hk : k = 0
  · rw [if_pos hk, Option.some.injEq] at h
    exact .inl ⟨hk, h⟩
  · rw [if_neg hk] at h
    by_cases hle : f.1 ≤ k
    · exact .inr ⟨hle, (if_pos hle).symm.trans h⟩
    · cases (if_neg hle).symm.trans h

/-- The number that fields of bits make, the first at bit 0. -/
def packBits : List (Nat × Nat) → Nat
  | [] => 0
  | f :: fs => f.2 % 2 ^ f.1 + packBits fs * 2 ^ f.1

theorem packBits_field {fs : List (Nat × Nat)} {lo w v : Nat} (h : itemAt fs lo = some (w, v)) : packBits fs / 2 ^ lo % 2 ^ w = v % 2 ^ w := by
  induction fs generalizing lo with
  | nil => cases h
  | cons f fs ih =>
    rw [packBits]
    obtain ⟨rfl, rfl⟩ | ⟨hle, hrest⟩ := itemAt_cons h
    · rw [Nat.pow_zero, Nat.div_one, Nat.add_mul_mod_self_right, Nat.mod_mod]
    · rw [← Nat.add_sub_cancel' hle, Nat.pow_add, ← Nat.div_div_eq_div_mul, Nat.add_mul_div_right _ _ (Nat.two_pow_pos _),
        Nat.div_eq_of_lt (Nat.mod_lt _ (Nat.two_pow_pos _)), Nat.zero_add, ih hrest]

/-- The bytes of numbers one after another, each given with the count of its bytes and its fields of bits. -/
def spell (ns : List (Nat × List (Nat × Nat))) : List Byte := ns.flatMap (fun n => leBytes n.1 (packBits n.2))

theorem spell_cons (n : Nat × List (Nat × Nat)) (ns : List (Nat × List (Nat × Nat))) : spell (n :: ns) = leBytes n.1 (packBits n.2) ++ spell ns := rfl

theorem spell_append (ns ms : List (Nat × List (Nat × Nat))) : spell (ns ++ ms) = spell ns ++ spell ms := List.flatMap_append

theorem length_spell (ns : List (Nat × List (Nat × Nat))) : (spell ns).length = (ns.map (·.1)).sum := by
  simp only [spell, List.length_flatMap, length_leBytes]

theorem take_drop_spell {ns : List (Nat × List (Nat × Nat))} {k n : Nat} {fs : List (Nat × Nat)} (h : itemAt ns k = some (n, fs)) :
    ((spell ns).drop k).take n = leBytes n (packBits fs) := by
  induction ns generalizing k with
  | nil => cases h
  | cons m ns ih =>
    rw [spell_cons]
    obtain ⟨rfl, rfl⟩ | ⟨hle, hrest⟩ := itemAt_cons h
    · exact List.take_left' (length_leBytes _ _)
    · rw [List.drop_append, List.drop_eq_nil_of_le ((length_leBytes _ _).trans_le hle), List.nil_append, length_leBytes, ih hrest]

section Read

variable {ns : List (Nat × List (Nat × Nat))} {k n : Nat} {fs : List (Nat × Nat)} {lo : Nat} (hnumber : itemAt ns k = some (n, fs))
include hnumber

theorem hdrBits_spell {w v : Nat} (hfield : itemAt fs lo = some (w, v)) (hfits : lo + w ≤ 8 * n) : hdrBits (spell ns) k n lo w = v % 2 ^ w := by
  have hpow : 2 ^ (8 * n) = 2 ^ lo * (2 ^ w * 2 ^ (8 * n - (lo + w))) := by rw [← Nat.pow_add, ← Nat.pow_add]; congr 1; omega
  rw [hdrBits, take_drop_spell hnumber, leNat_leBytes, hpow, Nat.mod_mul_right_div_self, Nat.mod_mul_right_mod, packBits_field hfield]

/-- A field of bits reads as the value that it was spelled from. -/
theorem hbv_spell {w : Nat} {x : BitVec w} (hfield : itemAt fs lo = some (w, x.toNat)) (hfits : lo + w ≤ 8 * n := by decide) :
    hbv (spell ns) k n lo w = x := by
  rw [hbv, hdrBits_spell hnumber hfield hfits, Nat.mod_eq_of_lt x.isLt, BitVec.ofNat_toNat, BitVec.setWidth_eq]

theorem hbit_spell {b : Bool} (hfield : itemAt fs lo = some (1, b.toNat)) (hfits : lo + 1 ≤ 8 * n := by decide) : hbit (spell ns) k n lo = b := by
  rw [hbit, hdrBits_spell hnumber hfield hfits]
  cases b <;> rfl

end Read

/-! ## The fields of a header (R230, R239, R270 to R274) -/

/-- A field that holds a word or a flag. -/
def wordField {w : Nat} (x : BitVec w) : Nat × Nat := (w, x.toNat)
def flagField (b : Bool) : Nat × Nat := (1, b.toNat)

/-- A number of n bytes that is one word. -/
def wordOf {w : Nat} (n : Nat) (x : BitVec w) : Nat × List (Nat × Nat) := (n, [wordField x])

theorem packBits_nil : packBits [] = 0 := rfl

theorem packBits_word {w : Nat} (x : BitVec w) (fs : List (Nat × Nat)) : packBits (wordField x :: fs) = x.toNat + packBits fs * 2 ^ w := by
  rw [packBits, wordField, Nat.mod_eq_of_lt x.isLt]

theorem packBits_flag (b : Bool) (fs : List (Nat × Nat)) : packBits (flagField b :: fs) = b.toNat + packBits fs * 2 := by cases b <;> rfl

theorem packBits_gap (w : Nat) (fs : List (Nat × Nat)) : packBits ((w, 0) :: fs) = packBits fs * 2 ^ w := by
  rw [packBits, Nat.zero_mod, Nat.zero_add]

theorem flagAt_eq (b : Bool) (n : Nat) : flagAt b n = b.toNat * 2 ^ n := by cases b <;> simp [flagAt]

/-- Bytes 0 to 23, before the CRC32C, and bytes 0 to 31 (R230). -/
def hdrStart (h : Hdr) : List (Nat × List (Nat × Nat)) :=
  [(8, [wordField h.dst, wordField h.src, wordField h.cls, wordField h.vc, wordField h.vdim, wordField h.vcoord, flagField h.vphase, flagField h.ce,
      flagField h.ackpkt, (1, 0), wordField h.hops]),
    wordOf 4 h.psn, wordOf 4 h.lup, (8, [wordField h.plen, (3, 0), wordField h.ttag])]
def hdrNumbers (h : Hdr) (crc : BitVec 32) : List (Nat × List (Nat × Nat)) := hdrStart h ++ [wordOf 4 crc, (4, [])]

/-- Bytes 32 to 63 (R239, R270 to R274). -/
def bodyNumbers : Body → List (Nat × List (Nat × Nat))
  | .request r => [wordOf 1 (0x01 : Byte), wordOf 1 r.opcode, (2, [wordField r.iqueue, flagField r.placed]), wordOf 4 r.instid, wordOf 8 r.addr, wordOf 4 r.key,
      wordOf 3 r.comm, (1, [flagField r.size, flagField r.fetch, flagField r.seterr, flagField r.clrerr]), wordOf 4 r.arg, (4, [])]
  | .response r => [wordOf 1 (0x02 : Byte), wordOf 1 r.opcode, wordOf 2 r.iqueue, wordOf 4 r.instid, wordOf 4 r.rpsn, wordOf 4 r.roff, wordOf 8 r.result,
      (1, [flagField r.swapped]), (7, [])]
  | .coll k c => [wordOf 1 (collKindCode k), wordOf 1 c.opcode, wordOf 3 c.comm, (1, [wordField c.npkt, flagField c.exc]), wordOf 2 c.cgen, wordOf 4 c.cseq,
      (4, [wordField c.chunk, wordField c.pidx]), wordOf 3 c.srank, (1, []), wordOf 4 c.pdig, wordOf 8 c.tcrc]
  | .notice k n => [wordOf 1 (noticeKindCode k), wordOf 1 n.dim, wordOf 1 n.coordA, wordOf 1 n.coordB, wordOf 4 n.fseq, wordOf 3 n.subject,
      wordOf 1 n.reason, wordOf 3 n.comm, (1, []), wordOf 3 n.rank, (1, []), wordOf 2 n.cgen, (10, [])]
  | .ack a => [wordOf 4 a.ackBase, wordOf 8 a.okmap, wordOf 2 a.echo, wordOf 1 a.fstatus, wordOf 1 a.freason, wordOf 4 a.fpsn, (12, [])]

theorem headFields_eq_spell (h : Hdr) (crc : BitVec 32) : headFields h crc = spell (hdrNumbers h crc) := by
  simp only [headFields, hdrNumbers, hdrStart, spell, wordOf, List.flatMap_cons, List.flatMap_nil, List.cons_append, List.nil_append,
    List.append_assoc, List.append_nil, flagAt_eq, packBits_nil,
    packBits_word, packBits_flag, packBits_gap, Nat.zero_mul, Nat.add_zero, Nat.add_mul, Nat.mul_assoc, Nat.add_assoc, Nat.reducePow, Nat.reduceMul]

theorem bodyBytes_eq_spell (b : Body) : bodyBytes b = spell (bodyNumbers b) := by
  cases b <;>
    simp only [bodyBytes, bodyNumbers, spell, wordOf, List.flatMap_cons, List.flatMap_nil, List.append_assoc, List.append_nil, List.cons_append,
      List.nil_append, leBytes_one, flagAt_eq, packBits_nil, packBits_word, packBits_flag, Nat.zero_mul, Nat.add_zero, Nat.add_mul, Nat.mul_assoc,
      Nat.add_assoc, Nat.reducePow, Nat.reduceMul, Nat.mul_one]

section Parse

variable (h : Hdr) (crc : BitVec 32)

theorem parseHdr_spell (b : Body) : parseHdr (spell (hdrNumbers h crc ++ bodyNumbers b)) = h := by
  rw [parseHdr, Hdr.mk.injEq]
  exact ⟨hbv_spell rfl rfl, hbv_spell rfl rfl, hbv_spell rfl rfl, hbv_spell rfl rfl, hbv_spell rfl rfl, hbv_spell rfl rfl, hbit_spell rfl rfl,
    hbit_spell rfl rfl, hbit_spell rfl rfl, hbv_spell rfl rfl, hbv_spell rfl rfl, hbv_spell rfl rfl, hbv_spell rfl rfl, hbv_spell rfl rfl⟩

theorem parseReq_spell (r : ReqF) : parseReq (spell (hdrNumbers h crc ++ bodyNumbers (.request r))) = r := by
  rw [parseReq, ReqF.mk.injEq]
  exact ⟨hbv_spell rfl rfl, hbv_spell rfl rfl, hbit_spell rfl rfl, hbv_spell rfl rfl, hbv_spell rfl rfl, hbv_spell rfl rfl, hbv_spell rfl rfl,
    hbit_spell rfl rfl, hbit_spell rfl rfl, hbit_spell rfl rfl, hbit_spell rfl rfl, hbv_spell rfl rfl⟩

theorem parseResp_spell (r : RespF) : parseResp (spell (hdrNumbers h crc ++ bodyNumbers (.response r))) = r := by
  rw [parseResp, RespF.mk.injEq]
  exact ⟨hbv_spell rfl rfl, hbv_spell rfl rfl, hbv_spell rfl rfl, hbv_spell rfl rfl, hbv_spell rfl rfl, hbv_spell rfl rfl, hbit_spell rfl rfl⟩

theorem parseColl_spell (k : CollKind) (c : CollF) : parseColl (spell (hdrNumbers h crc ++ bodyNumbers (.coll k c))) = c := by
  rw [parseColl, CollF.mk.injEq]
  exact ⟨hbv_spell rfl rfl, hbv_spell rfl rfl, hbv_spell rfl rfl, hbit_spell rfl rfl, hbv_spell rfl rfl, hbv_spell rfl rfl, hbv_spell rfl rfl,
    hbv_spell rfl rfl, hbv_spell rfl rfl, hbv_spell rfl rfl, hbv_spell rfl rfl⟩

theorem parseNotice_spell (k : NoticeKind) (n : NoticeF) : parseNotice (spell (hdrNumbers h crc ++ bodyNumbers (.notice k n))) = n := by
  rw [parseNotice, NoticeF.mk.injEq]
  exact ⟨hbv_spell rfl rfl, hbv_spell rfl rfl, hbv_spell rfl rfl, hbv_spell rfl rfl, hbv_spell rfl rfl, hbv_spell rfl rfl, hbv_spell rfl rfl,
    hbv_spell rfl rfl, hbv_spell rfl rfl⟩

theorem parseAck_spell (a : AckF) : parseAck (spell (hdrNumbers h crc ++ bodyNumbers (.ack a))) = a := by
  rw [parseAck, AckF.mk.injEq]
  exact ⟨hbv_spell rfl rfl, hbv_spell rfl rfl, hbv_spell rfl rfl, hbv_spell rfl rfl, hbv_spell rfl rfl, hbv_spell rfl rfl⟩

/-- KIND reads back (R270). -/
theorem hdrBits_kind {ns : List (Nat × List (Nat × Nat))} {code : Byte} (hkind : itemAt ns 32 = some (wordOf 1 code)) :
    hdrBits (spell ns) 32 1 0 8 = code.toNat :=
  (hdrBits_spell (w := 8) hkind rfl (by decide)).trans (Nat.mod_eq_of_lt code.isLt)

/-- A body reads back where the header's class and ACKPKT are those that it travels with (R229, R270). -/
theorem parseBody_spell {b : Body} (hfits : Machine.Body.fits h b = true) : parseBody h (spell (hdrNumbers h crc ++ bodyNumbers b)) = some b := by
  cases b with
  | request r =>
    have hkind := hdrBits_kind (ns := hdrNumbers h crc ++ bodyNumbers (.request r)) rfl
    obtain ⟨hack, hcls⟩ : h.ackpkt = false ∧ (h.cls = 4 ∨ h.cls = 5) := by simpa [Body.fits] using hfits
    rcases hcls with hcls | hcls <;> simp [parseBody, hkind, hack, hcls, parseReq_spell]
  | response r =>
    have hkind := hdrBits_kind (ns := hdrNumbers h crc ++ bodyNumbers (.response r)) rfl
    obtain ⟨hack, hcls⟩ : h.ackpkt = false ∧ h.cls = 1 := by simpa [Body.fits] using hfits
    simp [parseBody, hkind, hack, hcls, parseResp_spell]
  | coll k c =>
    have hkind := hdrBits_kind (ns := hdrNumbers h crc ++ bodyNumbers (.coll k c)) rfl
    simp only [Body.fits, Bool.and_eq_true, Bool.not_eq_true', beq_iff_eq] at hfits
    obtain ⟨hack, hcls⟩ := hfits
    cases k <;> simp [parseBody, hkind, hack, hcls, parseColl_spell, collKindCode]
  | notice k n =>
    have hkind := hdrBits_kind (ns := hdrNumbers h crc ++ bodyNumbers (.notice k n)) rfl
    obtain ⟨hack, hcls⟩ : h.ackpkt = false ∧ h.cls = 0 := by simpa [Body.fits] using hfits
    cases k <;> simp [parseBody, hkind, hack, hcls, parseNotice_spell, noticeKindCode]
  | ack a =>
    obtain ⟨hack, hcls⟩ : h.ackpkt = true ∧ h.cls = 1 := by simpa [Body.fits] using hfits
    simp [parseBody, hack, hcls, parseAck_spell]

end Parse

/-! ## CRC32C (R230) -/

/-- A byte of a header as the CRC32C takes it. -/
def crcMask (i : Nat) (x : Byte) : Byte :=
  if i = 5 then x &&& 0xE7 else if i = 6 then x &&& 0xCF else if i = 7 then x &&& 0xF0 else if 24 ≤ i ∧ i < 28 then 0 else x

theorem crcView_eq_mapIdx (b : List Byte) : crcView b = b.mapIdx crcMask := rfl

theorem crcMask_crc {i : Nat} (hlow : 24 ≤ i) (hhigh : i < 28) (x : Byte) : crcMask i x = 0 := by
  rw [crcMask, if_neg (by omega), if_neg (by omega), if_neg (by omega), if_pos ⟨hlow, hhigh⟩]

/-- What stands in bytes 24 to 27 is not seen. -/
theorem crcView_crc_irrel {a c c' : List Byte} (d : List Byte) (ha : a.length = 24) (hc : c.length = 4) (hc' : c'.length = 4) :
    crcView (a ++ (c ++ d)) = crcView (a ++ (c' ++ d)) := by
  have hzero : c.mapIdx (fun i => crcMask (i + 24)) = c'.mapIdx (fun i => crcMask (i + 24)) := by
    refine List.ext_getElem (by rw [List.length_mapIdx, List.length_mapIdx, hc, hc']) fun i hi _ => ?_
    rw [List.length_mapIdx, hc] at hi
    rw [List.getElem_mapIdx, List.getElem_mapIdx, crcMask_crc (by omega) (by omega), crcMask_crc (by omega) (by omega)]
  rw [crcView_eq_mapIdx, crcView_eq_mapIdx, List.mapIdx_append, List.mapIdx_append, List.mapIdx_append, List.mapIdx_append, ha, hzero, hc, hc']

/-- A header's CRC32C is the same whatever CRC32C it carries. -/
theorem packetCrc_headFields (h : Hdr) (crc crc' : BitVec 32) (b payload : List Byte) :
    packetCrc (headFields h crc ++ b) payload = packetCrc (headFields h crc' ++ b) payload := by
  have hsplit : ∀ c, headFields h c ++ b = spell (hdrStart h) ++ (leBytes 4 (packBits [wordField c]) ++ (spell [(4, [])] ++ b)) := fun c => by
    rw [headFields_eq_spell, hdrNumbers, spell_append, List.append_assoc, spell_cons, List.append_assoc]
    rfl
  rw [packetCrc, packetCrc, hsplit, hsplit, crcView_crc_irrel _ (length_spell _) (length_leBytes _ _) (length_leBytes _ _)]

/-! ## A whole header -/

/-- The CRC32C that a packet's header carries. -/
def sentCrc (p : Packet) : BitVec 32 := packetCrc (headFields p.hdr 0 ++ bodyBytes p.body) p.payload

theorem headBytes_eq (p : Packet) : headBytes p = headFields p.hdr (sentCrc p) ++ bodyBytes p.body := rfl

theorem headBytes_eq_spell (p : Packet) : headBytes p = spell (hdrNumbers p.hdr (sentCrc p) ++ bodyNumbers p.body) := by
  rw [headBytes_eq, headFields_eq_spell, bodyBytes_eq_spell, spell_append]

theorem length_headFields (h : Hdr) (crc : BitVec 32) : (headFields h crc).length = 32 := by
  rw [headFields_eq_spell, length_spell]
  rfl

theorem length_bodyBytes (b : Body) : (bodyBytes b).length = 32 := by
  rw [bodyBytes_eq_spell, length_spell]
  cases b <;> rfl

theorem length_headBytes (p : Packet) : (headBytes p).length = 64 := by
  rw [headBytes_eq, List.length_append, length_headFields, length_bodyBytes]

theorem crcOk_headBytes (p : Packet) : crcOk (headBytes p) p.payload = true := by
  have hread : hbv (headBytes p) 24 4 0 32 = sentCrc p := by
    rw [headBytes_eq_spell]
    exact hbv_spell rfl rfl
  rw [crcOk, hread, headBytes_eq, packetCrc_headFields _ _ 0, sentCrc, beq_self_eq_true]

/-- Settles O6: a header is spelled from its fields, each of which reads back at its place, and its CRC32C does not see the place that carries it.
(R82, R229, R230, R239, R270, R271, R272, R273, R274) -/
theorem headerRoundTrip : Obligations.HeaderRoundTrip := by
  intro p hfits
  refine ⟨length_headBytes p, ?_, ?_, crcOk_headBytes p⟩
  all_goals rw [headBytes_eq_spell]
  · exact parseHdr_spell _ _ _
  · exact parseBody_spell _ _ hfits

end Sys2Proof.Machine
end

section
/-! PROOFS. Routing: where the packet first in turn goes, notices of links, the congestion gauge, and the telemetry of the fabric ports (R231 to R236, R240,
R243 to R245, R274). -/

namespace Sys2Proof.Machine

open Host (Outcome)

variable {s : State}

/-! ## Delivering, routing and escaping (R231, R236) -/

/-- The packet first in turn is delivered at its destination and routed on elsewhere. -/
theorem exec_packetRoute {x : InPkt} {rest : List InPkt} (hfirst : s.routeQ = x :: rest) (hbound : s.boundOff = false) :
    exec .packetRoute s = .next (if x.pkt.hdr.dst.toNat = s.self then { s with routeQ := rest, localIn := s.localIn ++ [x] }
      else ({ s with routeQ := rest } : State).routeOn x) := by
  simp only [exec, execPacketRoute, hfirst]
  exact congrArg Outcome.next (if_neg (Bool.eq_false_iff.1 hbound))

/-- A packet that has made 15 hops is counted and dropped. -/
theorem State.routeOn_last {x : InPkt} (hhops : x.pkt.hdr.hops = 15) : s.routeOn x = (s.count 0x260000).freePkt x :=
  if_pos (beq_iff_eq.2 hhops)

theorem exec_escapeTimeout {p : Nat} {e : InPkt} (he : (s.port p).egress.find? (fun e => e.pkt.hdr.vc != 2) = some e) (hadaptive : s.routeFixed = false) :
    exec (.escapeTimeout p) s = .next ((s.modPort p (fun y => { y with egress := y.egress.erase e })).escape e) := by
  simp only [exec, execEscapeTimeout, he, hadaptive, Bool.false_eq_true, if_false]

/-- Settles O32: the first packet in turn by its destination and its hops, and the packet that has waited for a port. (R231, R232, R236, R240) -/
theorem routingChoices : Obligations.RoutingChoices := by
  intro s x rest hfirst hbound u
  refine ⟨fun hdst => ?here, fun hdst => ?elsewhere, fun hdst hhops => ?last, fun p e => exec_escapeTimeout⟩
  all_goals rw [exec_packetRoute hfirst hbound]
  case here => rw [if_pos hdst]
  case elsewhere => rw [if_neg hdst]
  case last => rw [if_neg hdst, State.routeOn_last hhops]

/-! ## Notices of links (R234, R274) -/

/-- Settles O33: a notice that is taken goes to the row table, and a node that is not bound off tells of its own links. (R234, R274) -/
theorem linkNotices : Obligations.LinkNotices := by
  intro s p h n
  refine ⟨fun hbound hlost hself hfresh => ?down, fun hbound hlost hself hfresh => ?up, fun hbound => ?again⟩
  case down => exact congrArg Outcome.next ((s.takeNotice_spec .linkDown h n _).2.2 hbound hlost hself hfresh)
  case up => exact congrArg Outcome.next ((s.takeNotice_spec .linkUp h n _).2.2 hbound hlost hself hfresh)
  case again => exact congrArg Outcome.next (if_neg (Bool.eq_false_iff.1 hbound))

/-! ## The congestion gauge (R243, R244) -/

section Gauge

variable {node : BitVec 20} (hacked : (s.path node.toNat).newAcked ≠ 0)
include hacked

theorem exec_gaugeUpdate : exec (.gaugeUpdate node) s = .next (s.updateGauge node.toNat) := congrArg Outcome.next (if_neg hacked)

/-- The fraction of packets that came back with a CE echo is positive exactly where one did. -/
theorem echoed_fraction_pos : 0 < ((s.path node.toNat).newEchoed : Rat) / ((s.path node.toNat).newAcked : Rat) ↔ 0 < (s.path node.toNat).newEchoed := by
  rw [div_pos_iff_of_pos_right (Nat.cast_pos.2 (Nat.pos_of_ne_zero hacked)), Nat.cast_pos]

/-- Without an echo the gauge grows by its step. -/
theorem State.updateGauge_unechoed (hecho : (s.path node.toNat).newEchoed = 0) :
    let p := s.path node.toNat
    let f : Rat := (p.newEchoed : Rat) / (p.newAcked : Rat)
    let k : Rat := 1 / (2 ^ s.fld 0x11001C 24 4 : Nat)
    let step := if s.fld 0x11001C 28 4 ≤ p.quiet + 1 then s.fld 0x110024 16 13 else s.fld 0x110024 0 13
    s.updateGauge node.toNat = s.setPath node.toNat { p with
      gauge := some (min (s.gMax : Rat) (p.gauge.getD (s.gMax : Rat) + step)), alpha := p.alpha * (1 - k) + f * k, quiet := p.quiet + 1, newAcked := 0,
      newEchoed := 0 } :=
  if_neg (mt (echoed_fraction_pos hacked).1 (Nat.not_lt.2 hecho.le))

end Gauge

/-! ## Telemetry (R245) -/

section Sample

variable (s) (p : Nat) (stall : Word)

/-- The telemetry registers of a port at the end of a period. -/
def State.showSample : State :=
  let b := 0x130000 + 0x20 * p
  let u := (s.setFld b 0 16 (s.util p (s.port p).tx)).setFld b 16 16 (s.util p (s.port p).rx)
  let u := (u.setFld (b + 8) 0 8 (s.port p).loadRx).setFld (b + 8) 8 8 (s.port p).loadTx
  ((u.setReg (b + 4) (BitVec.ofNat 32 (u.occAll p))).setReg (b + 0x10) (BitVec.ofNat 32 (s.port p).marks)).setReg (b + 0x14) stall

theorem State.sampleOne_eq : s.sampleOne p stall = (s.showSample p stall).setPort p { s.port p with tx := 0, rx := 0, marks := 0 } := rfl

theorem State.showSample_frame : ∃ rs, s.showSample p stall = { s with regs := rs } :=
  State.setReg_of_regs (State.setReg_of_regs (State.setReg_of_regs (State.setFld_of_regs (State.setFld_of_regs (State.setFld_of_regs
    (State.setFld_of_regs ⟨s.regs, rfl⟩ _ _ _ _) _ _ _ _) _ _ _ _) _ _ _ _) _ _) _ _) _ _

/-- The stall cycles of a port are told in its own register. -/
theorem State.stall_showSample (q : Nat) :
    (s.showSample p stall).reg (0x130014 + 0x20 * q) = if q = p then stall else s.reg (0x130014 + 0x20 * q) := by
  have hstall : 0x130014 + 0x20 * q = 0x130000 + 0x20 * p + 0x14 ↔ q = p := by omega
  rw [State.showSample, State.reg_setReg]
  simp only [hstall]
  rw [State.reg_setReg_ne _ _ (by omega), State.reg_setReg_ne _ _ (by omega), State.reg_setFld_ne _ _ _ _ (by omega),
    State.reg_setFld_ne _ _ _ _ (by omega), State.reg_setFld_ne _ _ _ _ (by omega), State.reg_setFld_ne _ _ _ _ (by omega)]

theorem State.sampleOne_frame : ∃ rs ps, s.sampleOne p stall = { s with regs := rs, ports := ps } := by
  obtain ⟨rs, h⟩ := s.showSample_frame p stall
  rw [State.sampleOne_eq, h]
  exact ⟨_, _, rfl⟩

theorem State.port_sampleOne (q : Nat) :
    (s.sampleOne p stall).port q = if q = p then { s.port p with tx := 0, rx := 0, marks := 0 } else s.port q := by
  obtain ⟨rs, h⟩ := s.showSample_frame p stall
  rw [State.sampleOne_eq, State.port_setPort, h]
  rfl

theorem State.stall_sampleOne (q : Nat) :
    (s.sampleOne p stall).reg (0x130014 + 0x20 * q) = if q = p then stall else s.reg (0x130014 + 0x20 * q) := by
  rw [State.sampleOne_eq, (State.setPort_reads _ _ _).1, State.stall_showSample]

end Sample

/-- The first n fabric ports sampled in turn. -/
def State.samplePorts (s : State) (stall : List Word) (n : Nat) : State := (List.range n).foldl (fun s p => s.sampleOne p (stall.getD p 0)) s

theorem State.samplePorts_succ (s : State) (stall : List Word) (n : Nat) :
    s.samplePorts stall (n + 1) = (s.samplePorts stall n).sampleOne n (stall.getD n 0) := by
  simp [State.samplePorts, List.range_succ]

theorem State.samplePorts_frame (s : State) (stall : List Word) (n : Nat) : ∃ rs ps, s.samplePorts stall n = { s with regs := rs, ports := ps } := by
  induction n with
  | zero => exact ⟨s.regs, s.ports, rfl⟩
  | succ n ih =>
    obtain ⟨rs, ps, ih⟩ := ih
    rw [State.samplePorts_succ, ih]
    exact State.sampleOne_frame _ n (stall.getD n 0)

/-- Each port that has been sampled begins a new period, and its stall cycles are told. -/
theorem State.samplePorts_sampled (s : State) (stall : List Word) {n q : Nat} (hq : q < n) :
    ((s.samplePorts stall n).port q).tx = 0 ∧ ((s.samplePorts stall n).port q).rx = 0 ∧ ((s.samplePorts stall n).port q).marks = 0
    ∧ (s.samplePorts stall n).reg (0x130014 + 0x20 * q) = stall.getD q 0 := by
  induction n with
  | zero => exact absurd hq (Nat.not_lt_zero q)
  | succ n ih =>
    rw [State.samplePorts_succ, State.port_sampleOne, State.stall_sampleOne]
    by_cases hlast : q = n
    · rw [if_pos hlast, if_pos hlast, hlast]
      exact ⟨rfl, rfl, rfl, rfl⟩
    · rw [if_neg hlast, if_neg hlast]
      exact ih (by omega)

/-- Settles O34: the gauge by whether an echo came and how long none had, and the ports' samples taken in turn. (R243, R244, R245) -/
theorem gaugeAndTelemetry : Obligations.GaugeAndTelemetry := by
  intro s node n p f k alpha
  refine ⟨fun hacked hecho => ?falls, fun hacked hecho hquiet => ?grows, fun hacked hecho hquiet => ?growsFast, fun hidle => ?idle, fun stall => ?telemetry⟩
  case falls =>
    rw [exec_gaugeUpdate hacked]
    exact congrArg Outcome.next (if_pos ((echoed_fraction_pos hacked).2 hecho))
  case grows =>
    rw [exec_gaugeUpdate hacked, State.updateGauge_unechoed hacked hecho, if_neg (Nat.not_le.2 hquiet)]
  case growsFast =>
    rw [exec_gaugeUpdate hacked, State.updateGauge_unechoed hacked hecho, if_pos hquiet]
  case idle => exact congrArg Outcome.next (if_pos (List.all_eq_true.2 hidle))
  case telemetry =>
    obtain ⟨rs, ps, hframe⟩ := s.samplePorts_frame stall 32
    exact ⟨s.samplePorts stall 32, rfl, by rw [hframe], fun q hq => s.samplePorts_sampled stall hq⟩

end Sys2Proof.Machine
end

section
/-! PROOFS. Training a port: what ends each of its states, its timeouts, the messages of its partner, and the commands of the port (R227, R250, R257, R262,
R264 to R267, R275, R432). -/

namespace Sys2Proof.Machine

open Host (Outcome)

variable {s : State} {p : Nat}

/-! ## The states of training (R264) -/

/-- What ends a state of training outside a fast retrain. -/
theorem exec_trainStateDone {f : TrainFound} (hslow : (s.port f.port).fast = none) :
    exec (.trainStateDone f) s = .next (if s.pstate f.port = psLock then s.lockFound f.port f
      else if s.pstate f.port = psDetect then s.detected f.port f.signal
      else if s.pstate f.port = psEqualise then s.setPstate f.port psLock
      else if s.identDone f.port then s.startSwatch f.port
      else s) := by
  simp only [exec, execTrainStateDone, hslow, Option.isSome_none, Bool.false_eq_true, if_false]

theorem State.pstate_of_identDone (h : s.identDone p = true) : s.pstate p = psIdent := by
  simp only [State.identDone, Bool.and_eq_true, beq_iff_eq] at h
  exact h.1.1

theorem exec_tsReady {w : Swatch} (hw : (s.port p).sw = some w) (hphase : w.phase = .ready) (hst : s.pstate p = psSwatch) :
    exec (.tsReady p) s = .next (s.comeUp p) := by
  simp [exec, execTsReady, hw, hphase, hst]

section Timeout

variable (hslow : (s.port p).fast = none) (hlow : psEqualise ≤ s.pstate p) (hhigh : s.pstate p ≤ psSwatch)
include hslow hlow hhigh

theorem exec_trainTimeout_plain (hsw : (s.port p).sw = none) : exec (.trainTimeout p) s = .next (s.trainFails p dcTrain) := by
  simp [exec, execTrainTimeout, hslow, hlow, hhigh, hsw]

theorem exec_trainTimeout_swatch {w : Swatch} (hsw : (s.port p).sw = some w) :
    exec (.trainTimeout p) s = .next (s.swatchFails p w.own (w.partner.getD 0)) := by
  simp [exec, execTrainTimeout, hslow, hlow, hhigh, hsw]

end Timeout

/-! ## Messages of the partner (R227, R257, R266) -/

/-- A TS_IDENT of a fabric port's partner in IDENT passes where the partner is the row's neighbour, and takes the port down otherwise. -/
theorem exec_tsIdent_fabric (i : IdentF) (hst : s.pstate p = psIdent) (hfabric : p < 32) :
    let u := (s.setFld (plink p 0xC) 0 20 i.node.toNat).setFld (plink p 0xC) 20 6 i.port.toNat
    let want := withCoord u.self (u.portDim p) (u.portPeer p)
    exec (.tsIdent p i) s = .next (if i.node.toNat = want then u.modPort p (fun x => { x with identOk := true })
      else (u.portDown p dcMiswired .miswired).raise 0 portMiswired noQueue 0 p (want + i.node.toNat * 2 ^ 32) 0) := by
  have hident : ¬ (s.pstate p != psIdent) = true := by simp [hst]
  exact congrArg Outcome.next ((if_neg hident).trans (if_pos hfabric))

/-- LIMIT of a pair as a TS_CREDIT sets it. -/
def Port.setLimit (x : Port) (k : Nat) (l : BitVec 16) : Port := x.setPair k { x.pair k with limit := l.setWidth 32 }

theorem Port.limit_setLimit (x : Port) (k : Nat) (l : BitVec 16) (j : Nat) :
    ((x.setLimit k l).pair j).limit = if j = k then l.setWidth 32 else (x.pair j).limit := by
  by_cases hj : j = k <;> simp [Port.setLimit, Port.setPair, Port.pair, hj]

/-- The limits of the three channels of a class. -/
def Port.setLimits (x : Port) (cls : Nat) (a0 a1 e : BitVec 16) : Port :=
  ((x.setLimit (4 * cls) a0).setLimit (4 * cls + 1) a1).setLimit (4 * cls + 2) e

/-- In IDENT it is noted that the limits of a class have come. -/
def Port.noteClass (x : Port) (ident : Prop) [Decidable ident] (cls : Nat) : Port :=
  if ident ∧ !x.limits.contains cls then { x with limits := x.limits ++ [cls] } else x

theorem Port.pair_noteClass (x : Port) (ident : Prop) [Decidable ident] (cls k : Nat) : (x.noteClass ident cls).pair k = x.pair k := by
  rw [Port.noteClass]
  split <;> rfl

theorem Port.mem_noteClass (x : Port) {ident : Prop} [Decidable ident] (cls : Nat) (h : ident) : cls ∈ (x.noteClass ident cls).limits := by
  rw [Port.noteClass]
  by_cases hmem : cls ∈ x.limits <;> simp [h, hmem]

theorem exec_tsCredit {cls : BitVec 3} (a0 a1 e : BitVec 16) (hcls : cls.toNat < 6) :
    exec (.tsCredit p cls a0 a1 e) s
      = .next (s.modPort p (fun x => (x.setLimits cls.toNat a0 a1 e).noteClass (s.pstate p = psIdent) cls.toNat)) :=
  congrArg Outcome.next (if_pos hcls)

/-! ## Commands of the port (R264, R266, R275) -/

/-- STATE is told in another register than the commands. -/
theorem State.pstate_setFld_command (lo w v : Nat) : (s.setFld (plink p 0) lo w v).pstate p = s.pstate p :=
  s.fld_setFld_ne _ _ _ _ _ _ _ (by unfold plink; omega)

theorem State.pstate_startedDone : (s.startedDone p).pstate p = s.pstate p :=
  (State.pstate_setFld_command ..).trans (State.pstate_setFld_command ..)

/-- A port that is up is neither in DOWN nor in HELD. -/
theorem State.not_down_of_up (h : s.pstate p = psUp) : ¬(s.pstate p = psDown ∨ s.pstate p = psHeld) := by
  rw [h]
  decide

section Up

variable (hup : s.pstate p = psUp)
include hup

theorem exec_portLinkEnable_off : exec (.portLinkEnable p false) s = .next (((s.setFld (plink p 0) 0 1 0).startedDone p).portDown p 0 .nothing) := by
  have hst : ((s.setFld (plink p 0) 0 1 0).startedDone p).pstate p = psUp := by rw [State.pstate_startedDone, State.pstate_setFld_command, hup]
  exact congrArg Outcome.next (if_neg (State.not_down_of_up hst))

theorem exec_portRetrain (hon : s.bit (plink p 0) 0 = true) : exec (.portRetrain p) s = .next ((s.setRetrain p 1).portDown p dcTrain .nothing) := by
  have hst : (s.setRetrain p 1).pstate p = psUp := (State.pstate_setFld_command ..).trans hup
  exact congrArg Outcome.next ((if_neg (by rw [hup, hon]; decide)).trans (if_neg (by rw [hst]; decide)))

theorem exec_portSwatch (hon : s.bit (plink p 0) 0 = true) : exec (.portSwatch p) s = .next ((s.setSwatchSc p 1).portDown p dcSwatch .nothing) := by
  have hst : (s.setSwatchSc p 1).pstate p = psUp := (State.pstate_setFld_command ..).trans hup
  exact congrArg Outcome.next ((if_neg (by rw [hup, hon]; decide)).trans (if_neg (by rw [hst]; decide)))

theorem exec_portHoldDown (hsw : (s.port p).sw = none) :
    exec (.portHoldDown p true) s = .next ((s.setFld (plink p 0) 5 1 1).portDown p dcHold .hold) := by
  have hst : (s.setFld (plink p 0) 5 1 1).pstate p = psUp := (State.pstate_setFld_command ..).trans hup
  have hport : ((s.setFld (plink p 0) 5 1 1).port p).sw = none := hsw
  simp only [exec, execPortHoldDown, if_true, hport, Option.isSome_none, Bool.false_eq_true, if_false]
  exact congrArg Outcome.next (if_neg (by rw [hst]; decide))

end Up

theorem exec_partnerSignalDetected (hst : s.pstate p = psHeld) (hby : (s.port p).heldBy = .partner) (hfree : s.bit (plink p 0) 5 = false) :
    exec (.partnerSignalDetected p) s = .next (((s.modPort p (fun x => { x with heldBy := .nothing })).setPstate p psDown).startTraining p) :=
  congrArg Outcome.next (if_pos (by rw [hst, hby, hfree]; rfl))

/-- Settles O37: each state of training by what ends it, and each message and command in the branch that its hypotheses select.
(R227, R250, R257, R262, R264, R266, R267, R275, R432) -/
theorem portTraining : Obligations.PortTraining := by
  intro s p hslow
  refine ⟨fun hst hmay => ?retry, ?detect, ?equalise, ?lock, ?ident, fun w hw => exec_tsReady hw, fun hsw hlow hhigh => ?timeout,
    fun w hsw hlow hhigh => ?swatch, fun i hst hfabric => ⟨fun hsame => ?partner, fun hother => ?miswired⟩, fun cls a0 a1 e hcls => ?credit, rfl, exec_portLinkEnable_off,
    fun hup hon => ⟨exec_portRetrain hup hon, exec_portSwatch hup hon⟩, fun hsw hup => exec_portHoldDown hup hsw, exec_partnerSignalDetected,
    fun die hdie => congrArg Outcome.next (if_pos hdie)⟩
  case retry => exact congrArg Outcome.next (if_pos (by rw [hst, hmay]; rfl))
  case detect =>
    rintro f rfl u hst
    rw [exec_trainStateDone hslow, if_neg (by rw [hst]; decide), if_pos hst]
    rfl
  case equalise =>
    rintro f rfl hst
    rw [exec_trainStateDone hslow, if_neg (by rw [hst]; decide), if_neg (by rw [hst]; decide), if_pos hst]
  case lock =>
    rintro f rfl hst
    rw [exec_trainStateDone hslow, if_pos hst, State.lockFound, hslow]
    rfl
  case ident =>
    rintro f rfl hdone
    have hst := State.pstate_of_identDone hdone
    rw [exec_trainStateDone hslow, if_neg (by rw [hst]; decide), if_neg (by rw [hst]; decide), if_neg (by rw [hst]; decide), if_pos hdone]
  case timeout => exact exec_trainTimeout_plain hslow hlow hhigh hsw
  case swatch => exact exec_trainTimeout_swatch hslow hlow hhigh hsw
  case partner => rw [exec_tsIdent_fabric i hst hfabric, if_pos hsame]
  case miswired => rw [exec_tsIdent_fabric i hst hfabric, if_neg hother]
  case credit =>
    refine ⟨_, exec_tsCredit a0 a1 e hcls, rfl, ?_⟩
    rw [State.port_modPort, if_pos rfl]
    simp only [Port.pair_noteClass, Port.setLimits, Port.limit_setLimit]
    refine ⟨?_, ?_, ?_, Port.mem_noteClass _ _⟩
    all_goals simp

end Sys2Proof.Machine
end

section
/-! PROOFS. Credits of a port: what a CREDIT entry returns, and the slots that an audit finds lost on the wire (R257 to R260). -/

namespace Sys2Proof.Machine

variable {s : State} {p : Nat}

@[simp] theorem Port.pair_setPair (x : Port) (k : Nat) (c : Pair) (j : Nat) : (x.setPair k c).pair j = if j = k then c else x.pair j := by
  rw [Port.setPair, Port.pair, Tab.get_put, ← Port.pair]

section Runs

variable (hruns : s.portRuns p = true)
include hruns

/-- RET follows a FREED that neither falls behind RET nor passes USED (R258). -/
theorem State.creditOne_returned (e : CreditEntry) (hnew : (e.freed - ((s.port p).pair (pairKey e.cls e.vc)).ret).toNat < 2 ^ 31)
    (hheld : (((s.port p).pair (pairKey e.cls e.vc)).used - e.freed).toNat < 2 ^ 31) :
    s.creditOne p e
      = s.setPort p ((s.port p).setPair (pairKey e.cls e.vc) { (s.port p).pair (pairKey e.cls e.vc) with ret := e.freed }) := by
  simp only [State.creditOne, hruns, Nat.not_le.2 hnew, Nat.not_le.2 hheld, Bool.not_true, Bool.false_eq_true, if_false]

/-- Slots that an audit shows to have been sent and not received are restored: they are freed, and counted (R259). -/
theorem State.auditOne_lost {k : Nat} {used : Word} (hlost : used ≠ ((s.port p).pair k).rcvd)
    (hahead : (used - ((s.port p).pair k).rcvd).toNat < 2 ^ 31) :
    let c := (s.port p).pair k
    s.auditOne p k used
      = (s.setPort p ((s.port p).setPair k { c with rcvd := used, freed := c.freed + (used - c.rcvd) })).count (pctr p 0x40)
          (used - c.rcvd).toNat := by
  have hnonzero : used - ((s.port p).pair k).rcvd ≠ 0 := sub_ne_zero.2 hlost
  simp only [State.auditOne, hruns, Nat.not_le.2 hahead, hnonzero, Bool.not_true, Bool.false_eq_true, if_false]

end Runs

/-- Settles O36: each rule writes one pair of the port that runs, and reading the port back tells that pair from the others. (R257 to R259) -/
theorem creditRules : Obligations.CreditRules := by
  intro s p hruns
  refine ⟨?credit, ?audit⟩
  case credit =>
    intro e k c hnew hheld
    rw [State.creditOne_returned hruns e hnew hheld]
    refine ⟨?_, fun j hj => ?_, fun q hq => ?_⟩
    · simp [k, c]
    · simp [k, hj]
    · simp [hq]
  case audit =>
    intro k used c hlost hahead
    rw [State.auditOne_lost hruns hlost hahead]
    constructor <;> simp [c]

end Sys2Proof.Machine
end

section
/-! PROOFS. The swatch: its orders and echoes, the results of its phases, and the lanes that pass phase A (R266 to R268, R275). -/

namespace Sys2Proof.Machine

open Host (Outcome)

variable {s : State} {p : Nat}

/-! ## Lanes that pass phase A (R267 step 5) -/

/-- One lane's bit set where a test holds. -/
theorem getLsbD_ite_lane (c : Prop) [Decidable c] (x : BitVec 16) (n : Nat) {l : Nat} (hl : l < 16) :
    (if c then x ||| (1#16 <<< n) else x).getLsbD l = (x.getLsbD l || decide (c ∧ l = n)) := by
  have hbit : (1#16 <<< n).getLsbD l = decide (l = n) := by
    rw [← BitVec.twoPow_eq, BitVec.getLsbD_twoPow, ← Bool.decide_and]
    exact decide_eq_decide.2 (by omega)
  by_cases hc : c
  · simp only [hc, if_true, BitVec.getLsbD_or, hbit, true_and]
  · simp [hc]

/-- The bits of the lanes below n, set where a test holds of the lane. -/
theorem getLsbD_foldl_lanes (test : Nat → Prop) [DecidablePred test] (n : Nat) {l : Nat} (hl : l < 16) :
    ((List.range n).foldl (fun (x : BitVec 16) i => if test i then x ||| (1#16 <<< i) else x) 0).getLsbD l = decide (l < n ∧ test l) := by
  induction n with
  | zero => simp
  | succ n ih =>
    rw [List.range_succ, List.foldl_concat, getLsbD_ite_lane _ _ _ hl, ih, ← Bool.decide_or]
    refine decide_eq_decide.2 ⟨?_, fun ⟨hlt, htest⟩ => ?_⟩
    · rintro (⟨hlt, htest⟩ | ⟨htest, rfl⟩)
      · exact ⟨Nat.lt_succ_of_lt hlt, htest⟩
      · exact ⟨Nat.lt_succ_self l, htest⟩
    · rcases Nat.lt_succ_iff_lt_or_eq.1 hlt with hlt | rfl
      · exact .inl ⟨hlt, htest⟩
      · exact .inr ⟨htest, rfl⟩

theorem laneCount_le (p : Nat) : laneCount p ≤ 16 := by
  rw [laneCount]
  split <;> decide

theorem State.getLsbD_passA (m : SwatchMeasure) {l : Nat} (hl : l < laneCount p) :
    (s.passA p m).getLsbD l = true ↔ m.errors.getD l m.bits * 10 ^ s.fld (plink p 4) 16 4 ≤ m.bits := by
  rw [State.passA, getLsbD_foldl_lanes _ _ (Nat.lt_of_lt_of_le hl (laneCount_le p))]
  simp [hl]

/-! ## Messages and phases (R266, R267) -/

/-- The swatch of a port, replaced. -/
def State.putSwatch (s : State) (p : Nat) (w : Swatch) : State := s.modPort p (fun y => { y with sw := some w })

section Running

variable {w : Swatch} (hw : (s.port p).sw = some w)
include hw

/-- Phase A starts at the leader by the echo of its order, and at the other end by the order, which it echoes. -/
theorem exec_tsSwatch_startA (pass d : BitVec 16) (hphase : w.phase = .askA) :
    let t := s.putSwatch p { w with phase := .runA }
    exec (.tsSwatch p .startA pass d) s = .next (if w.leader then t else t.sendSwatch p 1 0) := by
  simp [exec, execTsSwatch, hw, hphase, State.putSwatch]

theorem exec_tsSwatch_startB_leader (pass d : BitVec 16) (hphase : w.phase = .askB) (hlead : w.leader = true) :
    exec (.tsSwatch p .startB pass d) s = .next (s.putSwatch p { w with phase := .runB }) := by
  simp [exec, execTsSwatch, hw, hphase, hlead, State.putSwatch]

theorem exec_tsSwatch_startB_follower (pass d : BitVec 16) (hphase : w.phase = .endA) (hlead : w.leader = false) :
    exec (.tsSwatch p .startB pass d) s = .next ((s.putSwatch p { w with phase := .runB }).sendSwatch p 2 0) := by
  simp [exec, execTsSwatch, hw, hphase, hlead, State.putSwatch]

/-- The partner's result waits for this end's own, or both choose the set. -/
theorem exec_tsSwatch_result (pass d : BitVec 16) :
    let t := s.putSwatch p { w with partner := some pass }
    exec (.tsSwatch p .result pass d) s = .next (if w.phase = .results then t.chooseSet p w pass else t) := by
  simp [exec, execTsSwatch, hw, State.putSwatch]

theorem exec_tsSwatch_abort (pass d : BitVec 16) : exec (.tsSwatch p .abort pass d) s = .next ((s.abortSwatch p).trainFails p dcSwatch) := by
  simp only [exec, execTsSwatch, hw]

/-- The end of phase A. -/
theorem exec_swatchPhase_runA (m : SwatchMeasure) (hphase : w.phase = .runA) :
    let v : Swatch := { w with own := w.own &&& s.passA p m, phase := if w.leader then .askB else .endA }
    exec (.swatchPhase p m) s = .next (if w.leader then (s.putSwatch p v).sendSwatch p 2 0 else s.putSwatch p v) := by
  simp only [exec, execSwatchPhase, hw, hphase, State.putSwatch]

/-- The end of phase B before the partner's result. -/
theorem exec_swatchPhase_runB (m : SwatchMeasure) (hphase : w.phase = .runB) (hpartner : w.partner = none) :
    let own := w.own &&& s.passB p m.worst
    exec (.swatchPhase p m) s
      = .next ((s.putSwatch p { w with own, phase := .results, worst := m.worst }).sendSwatch p 3 own) := by
  simp only [exec, execSwatchPhase, hw, hphase, hpartner, State.putSwatch]

end Running

/-- Settles O38: each message and each end of a phase in the branch that its hypotheses select, and the lanes of phase A bit by bit. (R266, R267) -/
theorem swatching : Obligations.Swatching := by
  intro s p w pass d m hw put
  refine ⟨fun hphase hlead => ?orderA, fun hphase hlead => ?echoA, exec_tsSwatch_startB_leader hw pass d, exec_tsSwatch_startB_follower hw pass d,
    fun hphase => ?early, fun hphase => ?late, exec_tsSwatch_abort hw pass d, fun hphase hlead => ?leaderA, fun hphase hlead => ?followerA,
    exec_swatchPhase_runB hw m, fun l => State.getLsbD_passA m⟩
  case orderA => rw [exec_tsSwatch_startA hw pass d hphase, if_pos hlead]; rfl
  case echoA => rw [exec_tsSwatch_startA hw pass d hphase, hlead]; rfl
  case early => rw [exec_tsSwatch_result hw, if_neg hphase]; rfl
  case late => rw [exec_tsSwatch_result hw, if_pos hphase]; rfl
  case leaderA => rw [exec_swatchPhase_runA hw m hphase, hlead]; rfl
  case followerA => rw [exec_swatchPhase_runA hw m hphase, hlead]; rfl

end Sys2Proof.Machine
end

section
/-! PROOFS. Receiving on a port: codewords, aborts, bind-offs of the partner, the losses of lock and of lanes, credits and keepalives (R249 to R269). -/

namespace Sys2Proof.Machine

open Host (Outcome)

variable {s : State} {p : Nat}

/-! ## Codewords (R251, R252, R254) -/

theorem exec_codewordRx (cw : Codeword) (h : s.listens p = true) :
    exec (.codewordRx p cw) s = .next ((s.modPort p (fun x => { x with descr := (s.decode p cw).2 })).codeword p (s.decode p cw).1) := by
  simp only [exec, execCodewordRx, h, Bool.not_true, Bool.false_eq_true, if_false]

/-- A good codeword counted by the symbols corrected in it (R252, R276). -/
def State.countCorrected (s : State) (p n : Nat) : State :=
  let s := s.count (pctr p (0x80 + 8 * n))
  if n = 0 then s else (s.count (pctr p 0x08)).count (pctr p 0x18) n

theorem State.countCorrected_regs (s : State) (p n : Nat) : (s.countCorrected p n).regs = s.regs := by
  rw [State.countCorrected]
  split <;> rfl

theorem State.boundOff_congr {t : State} (h : t.regs = s.regs) : t.boundOff = s.boundOff :=
  congrArg (fun r => extractBits r 16 1 == 1) (State.reg_congr h 0x170004)

section Codeword

variable (r : Option (Nat × List Slot))

/-- Without lock a codeword counts toward it, or breaks the row of good ones (R251). -/
theorem State.codeword_unlocked (h : (s.port p).lock = false) :
    s.codeword p r = s.modPort p (fun x => if r.isSome then x.goodCodeword else { x with good := 0 }) := by
  simp only [State.codeword, h, Bool.not_false, if_true]

variable (hlock : (s.port p).lock = true)
include hlock

/-- An uncorrectable codeword takes the packets that lost a slot with it (R251, R254). -/
theorem State.codeword_uncorrectable : s.codeword p none = (((s.count (pctr p 0)).count (pctr p 0x10)).abortRx p).badCodeword p := by
  simp only [State.codeword, hlock, Bool.not_true, Bool.false_eq_true, if_false]

/-- A good codeword is counted by the symbols corrected, and its slots are used one by one (R252, R253). -/
theorem State.codeword_good (n : Nat) (slots : List Slot) (hfree : s.boundOff = false) :
    s.codeword p (some (n, slots))
      = slots.foldl (fun u x => u.slot p x) (((s.count (pctr p 0)).modPort p Port.goodCodeword).countCorrected p n) := by
  have hbound : (((s.count (pctr p 0)).modPort p Port.goodCodeword).countCorrected p n).boundOff = false :=
    (State.boundOff_congr (State.countCorrected_regs _ p n)).trans hfree
  simp only [State.codeword, hlock, Bool.not_true, Bool.false_eq_true, if_false]
  exact if_neg (Bool.eq_false_iff.1 hbound)

end Codeword

/-! ## Losses (R251, R254, R261, R263, R269) -/

theorem exec_abort {h b : List Byte} (hlast : (s.port p).last = some (h, b)) :
    exec (.abort p) s = .next (((s.modPort p (fun x => { x with last := none })).dropRx p h b).count (pctr p 0x20)) := by
  simp only [exec, execAbort, hlast]

/-- A BIND_OFF whose CAUSE is not reserved is heard (R263, R299). -/
theorem exec_bindOffSymbol (node : BitVec 20) {cause : BitVec 8} (hlow : 0 < cause.toNat) (hhigh : cause.toNat < 8) :
    exec (.bindOffSymbol p node cause) s = .next (s.bindOffHeard p node) := by
  have hnonzero : cause ≠ 0 := by
    rintro rfl
    exact absurd hlow (by decide)
  exact congrArg Outcome.next (if_neg (not_or.2 ⟨hnonzero, Nat.not_le.2 hhigh⟩))

/-- The times of the error-rate events of the last second (R261). -/
def State.recentErrors (s : State) (p : Nat) : List Nat := (s.port p).errTimes.filter (fun t => decide (s.time < t + 1000000000))

theorem State.errorLimit_of_runs (hruns : s.portRuns p = true) :
    s.errorLimit p = if 4 ≤ (s.recentErrors p).length then (s.setPort p { s.port p with errTimes := [] }).portDown p dcErrorRate .nothing
      else (s.setPort p { s.port p with errTimes := s.recentErrors p ++ [s.time] }).fastRetrain p .errors dcErrorRate :=
  if_neg (by rw [hruns]; decide)

section LaneLoss

variable {lanes los : BitVec 16} {u : State} (hlos : los = BitVec.ofNat 16 (s.fld (plink p 0x10) 16 16) ||| lanes)
variable (hu : u = s.setFld (plink p 0x10) 16 16 los.toNat) (hup : u.portUp p = true)
variable (hused : laneMask p (u.lanesOf p).1 (u.lanesOf p).2 &&& lanes ≠ 0)
include hlos hu hup hused

/-- Where no allowed set is left, the port goes down (R269). -/
theorem exec_laneLos_none (hset : u.bestSet p (BitVec.ofNat 16 (u.fld (plink p 0x10) 0 16) &&& ~~~ los) = none) :
    exec (.laneLos p lanes) s = .next (u.portDown p dcLos .nothing) := by
  subst hlos hu
  simp only [exec, execLaneLos, hup, hset, beq_eq_false_iff_ne.2 hused, Bool.not_true, Bool.or_false, Bool.false_eq_true, if_false]

/-- A lane in use is lost: the port goes on with the largest allowed set that is left (R269). -/
theorem exec_laneLos_some {y : Nat × Nat} (hset : u.bestSet p (BitVec.ofNat 16 (u.fld (plink p 0x10) 0 16) &&& ~~~ los) = some y) :
    exec (.laneLos p lanes) s = .next
      ((((u.count (pctr p 0x60)).raise 0 portDegraded noQueue 0 p y.1 los.toNat).setLanes p y).fastRetrain p .lane dcLos) := by
  subst hlos hu
  simp only [exec, execLaneLos, hup, hset, beq_eq_false_iff_ne.2 hused, Bool.not_true, Bool.or_false, Bool.false_eq_true, if_false]

end LaneLoss

/-! ## Credits and keepalives (R244, R256 to R261, R265) -/

theorem exec_fastRetrainEnd (hfast : (s.port p).fast.isSome = true) (hdone : s.identDone p = true) :
    exec (.fastRetrainEnd p) s = .next (s.comeUp p) :=
  congrArg Outcome.next (if_pos (by rw [hfast, hdone]; rfl))

/-- Outputs made in turn change the outputs alone, and each adds one. -/
theorem State.foldl_emit {α : Type} (s : State) (o : State → α → Out) (l : List α) :
    ∃ os : List Out, l.foldl (fun u x => u.emit (o u x)) s = { s with out := s.out ++ os } ∧ os.length = l.length := by
  induction l generalizing s with
  | nil => exact ⟨[], by simp, rfl⟩
  | cons x l ih =>
    obtain ⟨os, hout, hlen⟩ := ih (s.emit (o s x))
    refine ⟨o s x :: os, ?_, by simp [hlen]⟩
    rw [List.foldl_cons, hout, State.emit, List.append_assoc]
    rfl

section Runs

variable (hruns : s.portRuns p = true)
include hruns

/-- A report names every pair whose FREED has changed, and all pairs where none has (R258). -/
theorem exec_creditReportTimer : ∃ ks, exec (.creditReportTimer p) s = .next (s.reportPairs p ks) ∧ ks ≠ []
    ∧ ∀ k ∈ pairKeys, ((s.port p).pair k).freed ≠ ((s.port p).pair k).reported → k ∈ ks := by
  refine ⟨_, congrArg Outcome.next (if_pos hruns), ?_, fun k hk hchanged => ?_⟩
  · split
    next => decide
    next hsome => exact mt List.isEmpty_iff.2 hsome
  · split
    next => exact hk
    next => exact List.mem_filter.2 ⟨hk, bne_iff_ne.2 hchanged⟩

/-- An audit of a class is answered by a report of its pairs, where it has not led to a fast retrain (R258 to R260). -/
theorem exec_audit {cls : BitVec 3} (a0 a1 e : BitVec 32) (hcls : cls.toNat < 6) :
    let k := 4 * cls.toNat
    let u := ((s.auditOne p k a0).auditOne p (k + 1) a1).auditOne p (k + 2) e
    u.portRuns p = true → exec (.audit p cls a0 a1 e) s = .next (u.reportPairs p [k, k + 1, k + 2]) := by
  intro k u hstill
  exact congrArg Outcome.next ((if_pos (by rw [hruns, decide_eq_true hcls]; rfl)).trans (if_pos hstill))

/-- One AUDIT leaves for each class (R259). -/
theorem exec_auditSend : ∃ os : List Out, exec (.auditSend p) s = .next { s with out := s.out ++ os } ∧ os.length = 6 :=
  let ⟨os, hout, hlen⟩ := State.foldl_emit s _ (List.range 6)
  ⟨os, congrArg Outcome.next ((if_pos hruns).trans hout), hlen⟩

/-- The port's next keepalive, with the node's LOAD. -/
theorem exec_keepaliveSend : ∃ o : Out, exec (.keepaliveSend p) s
    = .next ((s.modPort p (fun x => { x with kseq := (s.port p).kseq + 1, loadTx := s.load })).emit o) :=
  ⟨_, congrArg Outcome.next (if_pos hruns)⟩

theorem exec_keepaliveTimeout_runs (hfast : (s.port p).fast = none) :
    exec (.keepaliveTimeout p) s = .next (s.portDown p dcKeepalive .nothing) := by
  simp only [exec, execKeepaliveTimeout, hfast, hruns, if_true]

end Runs

/-- Settles O35: what a codeword does by lock and by what the decoder makes of it, and each other command in the branch that its hypotheses select.
(R244, R249 to R261, R263, R265, R269) -/
theorem portReceiving : Obligations.PortReceiving := by
  intro s p
  refine ⟨?codeword, fun h b hlast => exec_abort hlast, fun node cause hlow hhigh => exec_bindOffSymbol node hlow hhigh,
    fun hruns => congrArg Outcome.next (if_pos hruns), ?errors, ?lanes, exec_fastRetrainEnd, fun es => rfl, exec_creditReportTimer,
    fun cls a0 a1 e => ?audit, fun hruns => ?auditSend, fun k hfabric => congrArg Outcome.next (if_pos hfabric), fun hruns => ?keepalive,
    fun hfast hruns => exec_keepaliveTimeout_runs hruns hfast⟩
  case codeword =>
    intro cw hlistens d u
    have hlock : (u.port p).lock = (s.port p).lock := by simp [u]
    rw [exec_codewordRx cw hlistens, ← hlock]
    refine ⟨fun hsearch hsome => ?counted, fun hsearch hnone => ?broken, fun hlocked hnone => ?discarded, fun slots hlocked hopen hd => ?clean,
      fun n slots hlocked hopen hn hd => ?corrected⟩
    case counted =>
      rw [State.codeword_unlocked _ hsearch, hsome]
      rfl
    case broken =>
      rw [State.codeword_unlocked _ hsearch, hnone]
      rfl
    case discarded => rw [hnone, State.codeword_uncorrectable hlocked]
    case clean =>
      rw [hd, State.codeword_good hlocked _ _ hopen]
      rfl
    case corrected => rw [hd, State.codeword_good hlocked _ _ hopen, State.countCorrected, if_neg hn]
  case errors =>
    intro recent hruns
    refine ⟨fun hfew => ?_, fun hmany => ?_⟩
    · exact congrArg Outcome.next ((State.errorLimit_of_runs hruns).trans (if_neg (Nat.not_le.2 hfew)))
    · exact congrArg Outcome.next ((State.errorLimit_of_runs hruns).trans (if_pos hmany))
  case lanes =>
    intro lanes x los u hup hused hset
    exact ⟨fun hnone => exec_laneLos_none rfl rfl hup hused (hset.trans hnone), fun y hy => exec_laneLos_some rfl rfl hup hused (hset.trans hy)⟩
  case audit =>
    intro k u hruns hcls hstill
    exact exec_audit hruns a0 a1 e hcls hstill
  case auditSend =>
    obtain ⟨os, hexec, hlen⟩ := exec_auditSend hruns
    exact ⟨_, hexec, rfl, by simp [hlen]⟩
  case keepalive =>
    obtain ⟨o, hexec⟩ := exec_keepaliveSend hruns
    exact ⟨_, hexec, by simp, by simp, fun q hq => by simp [hq], by simp, rfl⟩

end Sys2Proof.Machine
end

section
/-! PROOFS. A DEAD_NODE notice that names the node itself: what a bind-off leaves in the register that tells its cause (R299, R300, R304). -/

namespace Sys2Proof.Machine

variable {s : State}

/-! ## The register of the bind-off while records are written (R300) -/

/-- FAIL_NODE_STATUS reads the same in t as in s. -/
def State.SameFail (s t : State) : Prop := t.reg 0x170004 = s.reg 0x170004

theorem State.SameFail.trans {t u : State} (h : s.SameFail t) (k : t.SameFail u) : s.SameFail u := Eq.trans k h

theorem State.SameFail.emit {t : State} (h : s.SameFail t) (o : Out) : s.SameFail (t.emit o) := h

/-- The registers of the dirty logs and the record rings lie above the node's own status. -/
theorem recordReg_ne_fail {a : Nat} (h : recordReg a) : 0x170004 ≠ a := by
  rcases h with ⟨f, rfl | rfl⟩ | ⟨k, f, rfl | rfl⟩ <;> simp only [dlogBase, RecRing.reg, page] <;> omega

theorem State.Wrote.sameFail {t : State} (h : s.Wrote t) : s.SameFail t := by
  induction h with
  | refl => rfl
  | setReg _ ha v ih => exact (State.reg_setReg_ne _ v (recordReg_ne_fail ha)).trans ih
  | emit _ _ ih | count _ _ _ ih | setFunc _ _ _ ih | setAccel _ _ _ ih | setPort _ _ _ ih | setAttWait _ _ ih | setParks _ _ ih | touch _ _ ih =>
    exact ih

theorem State.endWrite_sameFail (s : State) (g : Nat) (r : CRec) : s.SameFail (s.endWrite g r) := by
  simp only [State.endWrite]
  split
  · exact (State.awr_wrote _ _ _ _ _).sameFail
  · exact (State.hostWriteAll_wrote _ _ _ _ _ _ _).sameFail

theorem State.endQueue_sameFail (s : State) (g : Nat) (st : BitVec 8) (host : Bool) : s.SameFail (s.endQueue g st host) := by
  unfold State.endQueue
  exact List.foldlRecOn (motive := s.SameFail) _ _ rfl fun v hv r _ => hv.trans (v.endWrite_sameFail g r)

/-! ## The bind-off (R299, R300) -/

/-- FAIL_NODE_STATUS as a bind-off with this cause leaves it: BOUND_OFF, CAUSE, and SEQ advanced. -/
def State.showBound (s : State) (cause : Nat) : State := ((s.setFld 0x170004 16 1 1).setFld 0x170004 8 8 cause).bumpSeq 0x170004

theorem State.showBound_fields (s : State) (cause : Nat) :
    (s.showBound cause).boundOff = true ∧ (s.showBound cause).fld 0x170004 8 8 = cause % 256 := by
  constructor
  · rw [State.boundOff, State.bit, State.showBound, State.bumpSeq, State.fld_setFld_other _ _ _ _ _ _ _ (by omega) (by omega),
      State.fld_setFld_other _ _ _ _ _ _ _ (by omega) (by omega), State.fld_setFld _ _ _ _ _ (by omega)]
    rfl
  · rw [State.showBound, State.bumpSeq, State.fld_setFld_other _ _ _ _ _ _ _ (by omega) (by omega), State.fld_setFld _ _ _ _ _ (by omega)]
    rfl

/-- No later part of a bind-off writes FAIL_NODE_STATUS. -/
theorem State.bindOff_sameFail (cause : Nat) (h : s.boundOff = false) : (s.showBound cause).SameFail (s.bindOff cause) := by
  have hstate : (s.showBound cause).SameFail (((s.showBound cause).setFld 0x200 8 4 6).bumpSeq 0x200) :=
    (State.reg_setFld_ne _ _ _ _ (by decide)).trans (State.reg_setFld_ne _ _ _ _ (by decide))
  have htold : ∀ sym o, (s.showBound cause).SameFail (((List.range 36).foldl (fun s p =>
      (((s.emit (.symbol p sym)).emit (.symbol p sym)).emit (.symbol p sym)).emit (.symbol p sym))
        (((s.showBound cause).setFld 0x200 8 4 6).bumpSeq 0x200)).emit o) := fun sym o =>
    State.SameFail.emit (List.foldlRecOn _ _ hstate fun v hv p _ => (((State.SameFail.emit hv _).emit _).emit _).emit _) o
  simp only [State.bindOff, h, Bool.false_eq_true, if_false]
  split
  · exact htold _ _
  · refine List.foldlRecOn (motive := (s.showBound cause).SameFail) _ _ ?_ fun v hv g _ => hv.trans (v.endQueue_sameFail g _ _)
    exact (htold _ _).trans (State.raise_wrote _ _ _ _ _ _ _ _ _).sameFail

theorem State.fld_of_sameFail {t : State} (h : s.SameFail t) (lo w : Nat) : t.fld 0x170004 lo w = s.fld 0x170004 lo w :=
  congrArg (extractBits · lo w) h

/-- A node that was not bound off is so with the cause of the bind-off (R299, R300). -/
theorem State.bindOff_cause (cause : Nat) (h : s.boundOff = false) :
    (s.bindOff cause).boundOff = true ∧ (s.bindOff cause).fld 0x170004 8 8 = cause % 256 := by
  have hsame := State.fld_of_sameFail (State.bindOff_sameFail cause h)
  obtain ⟨hbound, hcause⟩ := s.showBound_fields cause
  exact ⟨(congrArg (· == 1) (hsame 16 1)).trans hbound, (hsame 8 8).trans hcause⟩

/-- Settles O42: the notice is passed on and acted on, a node that is told of its own loss binds off, and a bind-off tells its cause.
(R299, R301, R302, R304) -/
theorem deadNodeNamingItself : Obligations.DeadNodeNamingItself := by
  intro s p h n a u hbound hlost hsrc hfresh hreason hself hnew
  refine ⟨?_, State.bindOff_cause 5⟩
  rw [exec_deadNode s p h n hreason hbound hlost hsrc hfresh, hself]
  exact congrArg (fun t : State => Host.Outcome.next t.settle) (u.actLost_self hnew)

end Sys2Proof.Machine
end

section
/-! PROOFS. Canonical form: what an update, a choice and a fold keep (R287, R408). `setReg` and `pwrite` alone write the two tables, so an
operation keeps their form because the operations it is made of do: one lemma per operation, in the model's order, whose proof follows the
operation's text (`frame` for an update of other fields, `ite` for a choice, `foldl` for a loop). -/

namespace Sys2Proof.Machine
open Host (Outcome)

/-- A state of canonical form, kept folded so that proofs about it follow the operations that made it. -/
def State.Canon (s : State) : Prop := s.canonical

/-- A state of canonical form, or none. -/
def OptCanon (o : Option State) : Prop := ∀ t ∈ o, t.Canon

/-- A next state of canonical form, or a fault or a refusal. -/
def NextCanon (o : Outcome State Fault Refusal) : Prop := ∀ t, o = .next t → t.Canon

variable {s : State}

/-- Pooled memory and the register file. -/
def State.tables : State → Tab Byte × Tab Word
  | { pool, regs, .. } => (pool, regs)

/-- An update that leaves both tables keeps their form. -/
theorem State.Canon.frame {t : State} (hs : s.Canon) (h : t.tables = (s.pool, s.regs)) : t.Canon :=
  s.canonical_congr hs (congrArg Prod.fst h) (congrArg Prod.snd h)

theorem State.Canon.ite {c : Prop} [Decidable c] {t u : State} (ht : t.Canon) (hu : u.Canon) : (if c then t else u).Canon := by
  split <;> assumption

theorem State.Canon.ite_fst {c : Prop} [Decidable c] {α : Type} {p q : State × α} (hp : p.1.Canon) (hq : q.1.Canon) :
    (if c then p else q).1.Canon := by
  split <;> assumption

theorem State.Canon.ite_snd {c : Prop} [Decidable c] {α : Type} {p q : α × State} (hp : p.2.Canon) (hq : q.2.Canon) :
    (if c then p else q).2.Canon := by
  split <;> assumption

theorem State.Canon.ite_snd_snd {c : Prop} [Decidable c] {α β : Type} {p q : α × β × State} (hp : p.2.2.Canon) (hq : q.2.2.Canon) :
    (if c then p else q).2.2.Canon := by
  split <;> assumption

theorem State.Canon.foldl {α : Type} {l : List α} {f : State → α → State} (hs : s.Canon) (hf : ∀ {t x}, t.Canon → (f t x).Canon) :
    (l.foldl f s).Canon :=
  List.foldlRecOn l f hs fun _ ht _ _ => hf ht

theorem State.Canon.foldl_fst {α β : Type} {l : List α} {f : State × β → α → State × β} {p : State × β} (hp : p.1.Canon)
    (hf : ∀ {q x}, q.1.Canon → (f q x).1.Canon) : (l.foldl f p).1.Canon :=
  List.foldlRecOn (motive := fun q => q.1.Canon) l f hp fun _ hq _ _ => hf hq

theorem State.Canon.foldl_snd {α β : Type} {l : List α} {f : β × State → α → β × State} {p : β × State} (hp : p.2.Canon)
    (hf : ∀ {q x}, q.2.Canon → (f q x).2.Canon) : (l.foldl f p).2.Canon :=
  List.foldlRecOn (motive := fun q => q.2.Canon) l f hp fun _ hq _ _ => hf hq

theorem State.Canon.getD {o : Option State} (ho : OptCanon o) (hs : s.Canon) : (o.getD s).Canon := by
  cases o with
  | none => exact hs
  | some t => exact ho t rfl

theorem State.Canon.elim {α : Type} {o : Option α} {f : α → State} (hs : s.Canon) (hf : ∀ x, (f x).Canon) : (o.elim s f).Canon := by
  cases o with
  | none => exact hs
  | some x => exact hf x

theorem OptCanon.ite {c : Prop} [Decidable c] {o p : Option State} (ho : OptCanon o) (hp : OptCanon p) : OptCanon (if c then o else p) := by
  split <;> assumption

theorem OptCanon.none : OptCanon none := fun _ h => nomatch h

theorem OptCanon.some (hs : s.Canon) : OptCanon (some s) := by rintro t ⟨⟩; exact hs

theorem OptCanon.map {α : Type} {o : Option α} {f : α → State} (hf : ∀ x, (f x).Canon) : OptCanon (o.map f) := by
  cases o with
  | none => exact .none
  | some x => exact .some (hf x)

theorem OptCanon.bind {α : Type} {o : Option α} {f : α → Option State} (hf : ∀ x, OptCanon (f x)) : OptCanon (o.bind f) := by
  cases o with
  | none => exact .none
  | some x => exact hf x

theorem OptCanon.orElse {o p : Option State} (ho : OptCanon o) (hp : OptCanon p) : OptCanon (o <|> p) := by
  cases o with
  | none => exact hp
  | some x => exact ho

theorem OptCanon.findSome {α : Type} {l : List α} {f : α → Option State} (hf : ∀ x, OptCanon (f x)) : OptCanon (l.findSome? f) := by
  intro t ht
  obtain ⟨x, -, hx⟩ := List.exists_of_findSome?_eq_some ht
  exact hf x t hx

theorem NextCanon.next (hs : s.Canon) : NextCanon (.next s) := by rintro t ⟨⟩; exact hs

theorem NextCanon.after {o : Outcome State Fault Refusal} (ho : NextCanon o) (hs : s.Canon) : (match o with | .next t => t | _ => s).Canon := by
  split
  next t => exact ho t rfl
  next => exact hs

theorem State.Canon.reset : State.reset.Canon := ⟨rfl, rfl⟩

end Sys2Proof.Machine
end

section
/-! PROOFS. Canonical form: operations of the state, operands and monitors (R287, R408) -/

namespace Sys2Proof.Machine
variable {s : State}

theorem State.Canon.setReg {a v} (hs : s.Canon) : (s.setReg a v).Canon := s.setReg_canonical hs a v
theorem State.Canon.pwrite {o bs} (hs : s.Canon) : (s.pwrite o bs).Canon := s.pwrite_canonical hs o bs

theorem State.Canon.setFld {a lo w v} (hs : s.Canon) : (s.setFld a lo w v).Canon := hs.setReg
theorem State.Canon.setReg64 {a v} (hs : s.Canon) : (s.setReg64 a v).Canon := hs.setReg.setReg
theorem State.Canon.bumpSeq {a} (hs : s.Canon) : (s.bumpSeq a).Canon := hs.setFld
theorem State.Canon.setResult {a v} (hs : s.Canon) : (s.setResult a v).Canon := hs.setFld.bumpSeq
theorem State.Canon.count {a n} (hs : s.Canon) : (s.count a n).Canon := hs.frame rfl
theorem State.Canon.setFunc {f x} (hs : s.Canon) : (s.setFunc f x).Canon := hs.frame rfl
theorem State.Canon.setQueue {g q} (hs : s.Canon) : (s.setQueue g q).Canon := hs.frame rfl
theorem State.Canon.modQueue {g h} (hs : s.Canon) : (s.modQueue g h).Canon := hs.frame rfl
theorem State.Canon.setKey {i k} (hs : s.Canon) : (s.setKey i k).Canon := hs.frame rfl
theorem State.Canon.setPath {n p} (hs : s.Canon) : (s.setPath n p).Canon := hs.frame rfl
theorem State.Canon.modPath {n h} (hs : s.Canon) : (s.modPath n h).Canon := hs.frame rfl
theorem State.Canon.setAccel {a x} (hs : s.Canon) : (s.setAccel a x).Canon := hs.frame rfl
theorem State.Canon.emit {o} (hs : s.Canon) : (s.emit o).Canon := hs.frame rfl
theorem State.Canon.setRun {r} (hs : s.Canon) : (s.setRun r).Canon := hs.frame rfl
theorem State.Canon.setRowc {c v} (hs : s.Canon) : (s.setRowc c v).Canon := hs.frame rfl
theorem State.Canon.drawBytes {n} (hs : s.Canon) : (s.drawBytes n).2.Canon := hs.frame rfl
theorem State.Canon.setPort {p x} (hs : s.Canon) : (s.setPort p x).Canon := hs.frame rfl
theorem State.Canon.modPort {p h} (hs : s.Canon) : (s.modPort p h).Canon := hs.frame rfl
theorem State.Canon.setPstate {p st} (hs : s.Canon) : (s.setPstate p st).Canon := (Canon.ite hs.count hs).setFld.bumpSeq

theorem State.Canon.reportPairs {p ks} (hs : s.Canon) : (s.reportPairs p ks).Canon := by
  fun_induction State.reportPairs s p ks with
  | case1 => exact hs
  | case2 => exact hs.setPort.emit
  | case3 _ _ _ _ _ _ _ ih => exact ih hs.setPort.emit

theorem State.Canon.freeSlots {p k n} (hs : s.Canon) : (s.freeSlots p k n).Canon := .ite hs.setPort.reportPairs hs.setPort

theorem State.Canon.freePkt {x} (hs : s.Canon) : (s.freePkt x).Canon := by
  unfold State.freePkt
  split
  · exact .ite hs.freeSlots hs
  · exact hs

theorem State.Canon.attachWire {a p psn m} (hs : s.Canon) : OptCanon (s.attachWire a p psn m) := .ite (.some hs.setPort.emit) .none

theorem State.Canon.attachXmit {a psn m} (hs : s.Canon) : (s.attachXmit a psn m).Canon := by
  dsimp only [State.attachXmit]
  split
  · exact hs
  · exact .ite (hs.frame rfl) (.getD hs.attachWire (hs.frame rfl))

theorem State.Canon.attachSend {a m} (hs : s.Canon) : (s.attachSend a m).Canon := .ite hs.setAccel.attachXmit hs.setAccel
theorem State.Canon.awr {a off bs t} (hs : s.Canon) : (s.awr a off bs t).Canon := hs.setAccel.attachSend
theorem State.Canon.ard {a off n boff t} (hs : s.Canon) : (s.ard a off n boff t).Canon := .ite hs.setAccel.attachSend hs.setAccel
theorem State.Canon.touchXlate {x} (hs : s.Canon) : (s.touchXlate x).Canon := (hs.frame (by rfl)).count

theorem State.Canon.dlog {f pa} (hs : s.Canon) : (s.dlog f pa).2.Canon := by
  dsimp only [State.dlog]
  split
  · exact hs
  · split
    · exact hs.setFld.bumpSeq
    · exact hs.emit.setReg.count.setFunc

theorem State.Canon.postWrite {f pasid va bs} (hs : s.Canon) : (s.postWrite f pasid va bs).2.Canon := by
  dsimp only [State.postWrite]
  split
  · split
    · exact hs.touchXlate.dlog.emit
    · exact hs
  · exact hs.dlog.emit

theorem State.Canon.admitPark {p} (hs : s.Canon) : (s.admitPark p).2.Canon := by
  dsimp only [State.admitPark]
  split
  · exact hs.emit
  · exact hs

theorem State.Canon.park {p} (hs : s.Canon) : (s.park p).Canon := Canon.frame (Canon.ite hs.count hs).admitPark rfl
theorem State.Canon.faultLost {f cls} (hs : s.Canon) : (s.faultLost f cls).Canon := hs.count.count.setFld.setFld.bumpSeq
theorem State.Canon.faultIrq {f} (hs : s.Canon) : (s.faultIrq f).Canon := .ite hs.setFunc.emit hs
theorem State.Canon.setRecs {k f l} (hs : s.Canon) : (s.setRecs k f l).Canon := hs.frame rfl

theorem State.Canon.recWritten {k f} (hs : s.Canon) : (s.recWritten k f).Canon := by
  dsimp only [State.recWritten]
  split
  · exact hs
  · split
    · exact hs.setRecs.setReg.faultIrq
    · exact hs.setRecs.setReg

theorem State.Canon.recFailed {k f} (hs : s.Canon) : (s.recFailed k f).Canon := by
  dsimp only [State.recFailed]
  split
  · exact hs
  · split
    · exact hs.setRecs.setFld.faultLost
    · exact hs.setRecs.setFld.bumpSeq

theorem State.Canon.recTry {k f bs} (hs : s.Canon) : (s.recTry k f bs).2.Canon := by
  dsimp only [State.recTry]
  split
  · split
    · exact hs.postWrite
    · split
      · exact hs.park
      · exact hs
  · split
    · exact hs.awr
    · exact hs
  · split
    · exact hs.emit
    · exact hs

theorem State.Canon.recPump {k f n} (hs : s.Canon) : (s.recPump k f n).Canon := by
  induction n generalizing s with
  | zero => exact hs
  | succ n ih =>
    unfold State.recPump
    split
    · exact hs
    next bs _ _ =>
      have htry : (s.recTry k f bs).2.Canon := hs.recTry
      split <;> rename_i heq <;> rw [heq] at htry
      · exact ih htry.recWritten
      · exact ih htry.recFailed
      · exact htry

theorem State.Canon.recPush {k f cls bs} (hs : s.Canon) : (s.recPush k f cls bs).Canon := .ite hs.setRecs.recPump hs.setRecs

theorem State.Canon.dropRecs {k f} (hs : s.Canon) : (s.dropRecs k f).Canon := by
  dsimp only [State.dropRecs]
  split
  · exact .foldl (hs.setRecs.frame rfl) fun ht => ht.faultLost
  · exact hs.setRecs.frame rfl

theorem State.Canon.raise {f c queue eseq a b x d} (hs : s.Canon) : (s.raise f c queue eseq a b x d).Canon :=
  .ite hs.count.setFunc.recPush hs.count.setFunc.faultLost

theorem State.Canon.hostPost {f pasid va bs} (hs : s.Canon) : (s.hostPost f pasid va bs).Canon := .ite hs.postWrite.raise hs.postWrite

theorem State.Canon.hostRead {n f pasid va len off t} (hs : s.Canon) : (s.hostRead n f pasid va len off t).Canon := by
  induction n generalizing s va len off with
  | zero => exact hs
  | succ n ih =>
    dsimp only [State.hostRead]
    refine .ite hs (.ite (.ite ?_ (ih (hs.frame rfl))) hs.park)
    split
    · exact ih (hs.frame rfl)
    · exact hs.park

theorem State.Canon.ardAll {n a off len boff t} (hs : s.Canon) : (s.ardAll n a off len boff t).Canon := by
  induction n generalizing s off len boff with
  | zero => exact hs
  | succ n ih => exact .ite hs (ih hs.ard)

theorem State.Canon.poolWait {off len boff t} (hs : s.Canon) : (s.poolWait off len boff t).Canon := hs.frame rfl

theorem State.Canon.readOpnd {f pasid o t} (hs : s.Canon) : (s.readOpnd f pasid o t).2.2.Canon := by
  unfold State.readOpnd
  split
  · split
    · exact hs.poolWait
    · exact hs
  · exact hs.ardAll
  · exact hs.hostRead

theorem State.Canon.hostWriteAll {n f pasid va bs t} (hs : s.Canon) : (s.hostWriteAll n f pasid va bs t).2.Canon := by
  induction n generalizing s va bs with
  | zero => exact hs
  | succ n ih => exact .ite_snd hs (.ite_snd (ih hs.hostPost) hs.park)

theorem State.Canon.xlateAll {n f pasid va len write t} (hs : s.Canon) : (s.xlateAll n f pasid va len write t).2.Canon := by
  induction n generalizing s va len with
  | zero => exact hs
  | succ n ih => exact .ite_snd hs (.ite_snd (ih hs) hs.park)

theorem State.Canon.poolWrite {off bs t} (hs : s.Canon) : (s.poolWrite off bs t).2.Canon := by
  dsimp only [State.poolWrite]
  split
  · exact Canon.frame (.foldl hs fun ht => ht.emit.count) rfl
  · split
    · exact hs.frame rfl
    · exact hs.pwrite

theorem State.Canon.engineWrite {off bs} (hs : s.Canon) : (s.engineWrite off bs).Canon := .ite hs.pwrite hs.poolWrite

theorem State.Canon.writeLocal {f pasid sp addr bs t} (hs : s.Canon) : (s.writeLocal f pasid sp addr bs t).2.Canon := by
  dsimp only [State.writeLocal]
  split
  · exact hs
  · split
    · exact hs.poolWrite
    · exact .foldl hs fun ht => ht.awr
    · exact hs.hostWriteAll

theorem State.Canon.monStart {r} (hs : s.Canon) : (s.monStart r).Canon := by
  dsimp only [State.monStart]
  split
  · exact hs
  · exact hs.frame rfl

theorem State.Canon.monFail {f m q eseq bit computed expected} (hs : s.Canon) : (s.monFail f m q eseq bit computed expected).Canon :=
  (Canon.ite hs.setFld.setReg.bumpSeq.raise.emit hs.setFld.setReg.bumpSeq.raise).count

theorem State.Canon.monVerdict {f m q eseq bs} (hs : s.Canon) : (s.monVerdict f m q eseq bs).2.Canon :=
  .ite_snd hs.setReg.count.monFail (.ite_snd hs.setReg.count.setReg64 hs.setReg.count.setReg64.monFail)

theorem State.Canon.monAlive {x} (hs : s.Canon) : (s.monAlive x).Canon := .ite hs (.ite hs.monFail (.ite hs.monFail hs.setReg64.setFld))
theorem State.Canon.monTurn {x} (hs : s.Canon) : (s.monTurn x).Canon := .ite hs (Canon.ite hs.setReg64.setReg.count hs).monAlive

theorem State.Canon.monDrain {n f m} (hs : s.Canon) : (s.monDrain n f m).Canon := by
  induction n generalizing s with
  | zero => exact hs
  | succ n ih =>
    unfold State.monDrain
    split
    · exact hs
    · exact .ite hs (ih (hs.frame (by rfl)).monTurn)

theorem State.Canon.monOver {r err x} (hs : s.Canon) : (s.monOver r err x).Canon := by
  refine (Canon.frame ?_ rfl).monDrain
  split
  · exact hs.setFld
  · split
    · exact hs
    · exact hs.monVerdict

theorem State.Canon.monComplete {r err} (hs : s.Canon) : (s.monComplete r err).Canon := .foldl hs fun ht => ht.monOver
theorem State.Canon.monDisable {f m} (hs : s.Canon) : (s.monDisable f m).Canon := .ite hs.setFld.setFld hs

theorem State.Canon.monUnbind {f q} (hs : s.Canon) : (s.monUnbind f q).Canon :=
  .foldl hs fun ht => .ite ht.monDisable ht

theorem State.Canon.execMonEnable {f m on} (hs : s.Canon) : NextCanon (execMonEnable f m on s) :=
  .next (.ite hs.monDisable (.ite hs.setFld.setFld hs.count))

theorem State.Canon.execMonDrainDone {f m} (hs : s.Canon) : NextCanon (execMonDrainDone f m s) :=
  .next (.ite (.ite (.ite hs.setFld hs.setFld.monFail) hs.setFld) hs)

end Sys2Proof.Machine
end

section
/-! PROOFS. Canonical form: queues of instructions and the fabric (R287, R408) -/

namespace Sys2Proof.Machine
variable {s : State}

theorem State.Canon.addRun {r} (hs : s.Canon) : (s.addRun r).Canon := hs.frame rfl
theorem State.Canon.dropWrites {rid} (hs : s.Canon) : (s.dropWrites rid).Canon := hs.frame rfl

theorem State.Canon.completeNow {r} (hs : s.Canon) : (s.completeNow r).Canon := by
  unfold State.completeNow
  extract_lets u v coll w x
  have hx : x.Canon := (hs.monComplete.frame (by rfl)).modQueue.modQueue
  exact .ite (.foldl (hx.frame rfl) fun ht => ht.modPath) hx

theorem State.Canon.complete {r} (hs : s.Canon) : (s.complete r).Canon := .ite (.ite hs.dropWrites.setRun hs.dropWrites.completeNow) hs.completeNow
theorem State.Canon.completeWith {r st detail info} (hs : s.Canon) : (s.completeWith r st detail info).Canon := hs.complete

theorem State.Canon.afterRecord {g ctr err sol} (hs : s.Canon) : (s.afterRecord g ctr err sol).Canon := by
  dsimp only [State.afterRecord]
  split
  · split
    · exact hs
    · exact .ite hs.setRowc hs.count
  · refine Canon.attachSend ?_
    split
    · exact hs
    · exact .ite hs.setRowc hs.count
  · refine Canon.emit ?_
    split
    · exact hs
    · exact .ite hs.setRowc hs.count

theorem State.Canon.recordWritten {g r} (hs : s.Canon) : (s.recordWritten g r).Canon := hs.frame rfl
theorem State.Canon.ringFails {g comp why addr} (hs : s.Canon) : (s.ringFails g comp why addr).Canon := .ite hs hs.setQueue.raise

theorem State.Canon.tryRecord {g retry} (hs : s.Canon) : OptCanon (s.tryRecord g retry) := by
  dsimp only [State.tryRecord]
  split
  · exact .none
  · split
    · exact .none
    · split
      · exact .ite (.some hs.recordWritten.awr) (.ite .none (.some hs.ringFails))
      · exact .ite (.some hs.recordWritten.hostPost.afterRecord) (.ite .none (.some hs.park))

theorem State.Canon.chargeBuckets {g cost} (hs : s.Canon) : (s.chargeBuckets g cost).Canon :=
  .ite (.ite hs.setFunc hs) (Canon.ite hs.setFunc hs).modQueue

theorem State.Canon.setFdef {g f v} (hs : s.Canon) : (s.setFdef g f v).Canon := hs.frame rfl
theorem State.Canon.chargeGrant {g cost} (hs : s.Canon) : (s.chargeGrant g cost).Canon := hs.setFdef.modQueue.chargeBuckets
theorem State.Canon.chargeStart {g} (hs : s.Canon) : (s.chargeStart g).Canon := hs.chargeGrant
theorem State.Canon.chargeStartIf {b g} (hs : s.Canon) : (s.chargeStartIf b g).Canon := .ite hs.chargeStart hs
theorem State.Canon.setComm {c x} (hs : s.Canon) : (s.setComm c x).Canon := hs.frame rfl

theorem State.Canon.inject {dst x} (hs : s.Canon) : (s.inject dst x).Canon := by
  unfold State.inject
  extract_lets u
  have hu : u.Canon := .elim hs fun _ => hs.chargeGrant
  exact .ite (hu.setPath.frame rfl) (hu.setPath.frame rfl)

theorem State.Canon.originate {dst x} (hs : s.Canon) : (s.originate dst x).Canon := by
  dsimp only [State.originate]
  split
  · exact hs
  · exact hs.modPath
  · exact .ite hs.inject (Canon.ite hs hs.count).setPath

theorem State.Canon.tryWaitq {dst} (hs : s.Canon) : OptCanon (s.tryWaitq dst) := by
  dsimp only [State.tryWaitq]
  split
  · exact .ite (.some hs.setPath.inject) .none
  · exact .none

theorem State.Canon.noteBorrow {n need} (hs : s.Canon) : (s.noteBorrow n need).Canon := .ite hs.count hs
theorem State.Canon.touchHalf {h} (hs : s.Canon) : (s.touchHalf h).Canon := hs.frame rfl
theorem State.Canon.waitTxn {g coll} (hs : s.Canon) : (s.waitTxn g coll).Canon := .ite hs.modQueue (hs.modQueue.frame rfl)

theorem State.Canon.noteHold {g h} (hs : s.Canon) : (s.noteHold g h).Canon := by
  dsimp only [State.noteHold]
  split
  · exact hs.modQueue.waitTxn
  · exact hs.modQueue.modQueue
  · exact hs.modQueue.count
  · exact (Canon.elim hs.modQueue fun _ => hs.modQueue.noteBorrow).count
  · exact hs.modQueue.count
  · exact hs.modQueue

theorem State.Canon.injectHead {g} (hs : s.Canon) : (s.injectHead g).Canon := by
  unfold State.injectHead
  split
  · exact hs
  · split
    · extract_lets f needs x u v w
      have hu : u.Canon := hs.setRun
      have hv : v.Canon := .ite hu (hu.frame rfl)
      have hw : w.Canon := .ite hv.touchHalf hv
      exact hw.modQueue.chargeGrant.inject
    · exact hs

theorem State.Canon.failHead {g} (hs : s.Canon) : (s.failHead g).Canon := by
  unfold State.failHead
  split
  · exact hs
  · exact hs.setRun

theorem State.Canon.joinRings {sq} (hs : s.Canon) : (s.joinRings sq).Canon := .foldl hs fun ht => ht.frame rfl

theorem State.Canon.pick {n sq} (hs : s.Canon) : (s.pick n sq).2.Canon := by
  induction n generalizing s with
  | zero => exact hs
  | succ n ih =>
    unfold State.pick
    split
    · exact hs
    · refine .ite_snd (ih (hs.frame rfl)) (.ite_snd (ih (hs.frame rfl)) (.ite_snd (ih (hs.frame rfl)) ?_))
      split
      · exact hs
      · exact .ite_snd (ih (hs.frame rfl)) (.ite_snd (ih (hs.frame rfl)) (.ite_snd (ih (hs.frame rfl)) hs))

theorem State.Canon.sendAck {src psns echo fst freason fpsn} (hs : s.Canon) : (s.sendAck src psns echo fst freason fpsn).Canon := hs.frame rfl

theorem State.Canon.flushAcksN {n src} (hs : s.Canon) : (s.flushAcksN n src).Canon := by
  induction n generalizing s with
  | zero => exact hs
  | succ n ih =>
    unfold State.flushAcksN
    split
    · exact hs
    · exact ih hs.modPath.sendAck

theorem State.Canon.flushAcks {src} (hs : s.Canon) : (s.flushAcks src).Canon := hs.flushAcksN

theorem State.Canon.rxCheck {src psn lup} (hs : s.Canon) : (s.rxCheck src psn lup).2.Canon := by
  refine .ite_snd hs.setPath.count ?_
  split
  · exact hs.setPath
  · exact hs.setPath.count
  · exact hs.setPath.count

theorem State.Canon.delivered {src psn ce status reason} (hs : s.Canon) : (s.delivered src psn ce status reason).Canon :=
  .ite (.ite hs.setPath.flushAcks hs.setPath) hs.setPath.sendAck

theorem State.Canon.forgetPsn {src psn} (hs : s.Canon) : (s.forgetPsn src psn).Canon := hs.frame rfl
theorem State.Canon.releaseTxns {ts} (hs : s.Canon) : (s.releaseTxns ts).Canon := hs.frame rfl

theorem State.Canon.placementOver {rid g n failed} (hs : s.Canon) : (s.placementOver rid g n failed).Canon := by
  unfold State.placementOver
  split
  · exact hs.setRun
  · exact hs.modQueue

theorem State.Canon.restoreOver {f st} (hs : s.Canon) : (s.restoreOver f st).Canon := hs.frame rfl
theorem State.Canon.unkeep {dst x} (hs : s.Canon) : (s.unkeep dst x).Canon := hs.frame rfl

theorem State.Canon.packetOver {dst x st reason} (hs : s.Canon) : (s.packetOver dst x st reason).Canon := by
  dsimp only [State.packetOver]
  split
  · split
    · exact hs.unkeep.releaseTxns.restoreOver
    · split
      · exact hs.unkeep.releaseTxns.placementOver
      · split
        · exact hs.unkeep.releaseTxns.setRun
        · exact .ite hs.unkeep.releaseTxns.restoreOver hs.unkeep.releaseTxns
  · exact hs.unkeep.releaseTxns

theorem State.Canon.ackStats {dst x} (hs : s.Canon) : (s.ackStats dst x).Canon := hs.frame rfl

theorem State.Canon.ackOne {dst psn st reason} (hs : s.Canon) : (s.ackOne dst psn st reason).Canon := by
  dsimp only [State.ackOne]
  split
  · exact hs
  · exact .ite (Canon.ite hs hs.ackStats).modPath (Canon.ite hs hs.ackStats).packetOver

theorem State.Canon.askPlacement {g rid n} (hs : s.Canon) : (s.askPlacement g rid n).Canon := .ite hs.placementOver hs.originate

theorem State.Canon.reach {rid n} (hs : s.Canon) : (s.reach rid n).Canon := by
  unfold State.reach
  split
  · exact .ite hs hs.setRun
  · exact hs

theorem State.Canon.redirect {dst x n} (hs : s.Canon) : (s.redirect dst x n).Canon := hs.unkeep.reach.originate

theorem State.Canon.resend {dst x} (hs : s.Canon) : (s.resend dst x).Canon := by
  dsimp only [State.resend]
  split
  · exact .ite (hs.count.modPath.frame rfl) hs.count.redirect
  · exact hs.count

theorem State.Canon.retransmit {dst x} (hs : s.Canon) : (s.retransmit dst x).Canon := .ite hs.setPath hs.resend
theorem State.Canon.tryDue {dst} (hs : s.Canon) : OptCanon (s.tryDue dst) := .bind fun _ => .ite (.some hs.resend) .none

theorem State.Canon.tryHeld {dst} (hs : s.Canon) : OptCanon (s.tryHeld dst) := by
  refine .findSome fun _ => ?_
  split
  · exact .ite .none (.some hs.redirect)
  · exact .some hs.packetOver
  · exact .none

theorem State.Canon.outcome {h st reason} (hs : s.Canon) : (s.outcome h st reason).Canon := .ite hs.ackOne hs.delivered
theorem State.Canon.respond {h r result swapped payload} (hs : s.Canon) : (s.respond h r result swapped payload).Canon := hs.originate

theorem State.Canon.failOutcome {h st reason k} (hs : s.Canon) (hk : ∀ {u}, u.Canon → (k u).Canon) : (s.failOutcome h st reason k).Canon :=
  .ite hs.forgetPsn (hk hs).outcome

theorem State.Canon.rejectReq {h r st reason} (hs : s.Canon) : (s.rejectReq h r st reason).Canon :=
  hs.failOutcome fun ht => .ite ht (ht.frame (by rfl)).raise

theorem State.Canon.snoopRange {off len} (hs : s.Canon) : (s.snoopRange off len).Canon := .foldl hs fun ht => ht.emit.count
theorem State.Canon.poolAtomic {off cas size operand swap} (hs : s.Canon) : (s.poolAtomic off cas size operand swap).2.2.Canon := .ite hs.pwrite hs
theorem State.Canon.enterReq {h r write n} (hs : s.Canon) : (s.enterReq h r write n).Canon := hs.frame rfl

theorem State.Canon.unadmit {src psn} (hs : s.Canon) : (s.unadmit src psn).Canon := by
  unfold State.unadmit
  split
  · exact hs.frame rfl
  · exact hs

theorem State.Canon.applyAtomic {h r payload} (hs : s.Canon) : (s.applyAtomic h r payload).Canon :=
  .ite hs.poolAtomic.respond (.ite hs.poolAtomic.respond hs.poolAtomic)

theorem State.Canon.signalCounter {c add setErr clrErr} (hs : s.Canon) : (s.signalCounter c add setErr clrErr).Canon := hs.frame rfl
theorem State.Canon.applyWrite {h r payload} (hs : s.Canon) : (s.applyWrite h r payload).Canon := hs.writeLocal.enterReq
theorem State.Canon.aatom {a off cas size operand swap t} (hs : s.Canon) : (s.aatom a off cas size operand swap t).Canon := hs.setAccel.attachSend

theorem State.Canon.applyReq {h r payload} (hs : s.Canon) : (s.applyReq h r payload).Canon := by
  dsimp only [State.applyReq]
  split
  · exact hs.frame rfl
  · split
    · exact hs.signalCounter
    · split
      · split
        · exact (hs.frame (by rfl)).enterReq.ard
        · split
          · exact (hs.frame (by rfl)).enterReq.poolWait
          · exact hs.respond
      · split
        · split
          · exact (hs.frame (by rfl)).enterReq.aatom
          · split
            · exact (hs.frame (by rfl)).snoopRange.enterReq
            · exact hs.applyAtomic
        · exact hs.applyWrite

theorem State.Canon.tryDeferred (hs : s.Canon) : OptCanon s.tryDeferred := by
  refine .map fun _ => ?_
  split
  · exact (hs.frame (by rfl)).applyAtomic.unadmit
  · exact hs.frame rfl

theorem State.Canon.ctxTouch {src iq idx} (hs : s.Canon) : (s.ctxTouch src iq idx).Canon := hs.frame rfl

theorem State.Canon.acceptReq {h r payload} (hs : s.Canon) : (s.acceptReq h r payload).Canon := by
  dsimp only [State.acceptReq]
  split
  · exact hs.ctxTouch.applyReq.outcome
  · split
    · exact hs.ctxTouch.rejectReq
    · exact hs.ctxTouch.applyReq.outcome

theorem State.Canon.takeReq {h r payload} (hs : s.Canon) : (s.takeReq h r payload).Canon := by
  dsimp only [State.takeReq]
  split
  · exact hs.forgetPsn.count
  · split
    · split
      · exact hs.forgetPsn.count
      · exact (hs.frame (by rfl)).count
    · exact hs.acceptReq

theorem State.Canon.consume {pkt} (hs : s.Canon) : (s.consume pkt).Canon := by
  unfold State.consume
  split
  · exact (hs.frame (by rfl)).freePkt
  · exact hs

theorem State.Canon.arrive {h resend k} (hs : s.Canon) (hk : ∀ {u}, u.Canon → (k u).Canon) : (s.arrive h resend k).Canon := by
  dsimp only [State.arrive]
  split
  · exact hs
  · split
    · exact hk hs
    · split
      · exact hs.count
      · split
        · exact hk hs.rxCheck
        · exact hs.rxCheck
        · exact hs.rxCheck
        · split
          · exact .foldl (.ite hs.rxCheck.sendAck hs.rxCheck.sendAck) fun ht => ht.retransmit
          · exact .ite hs.rxCheck.sendAck hs.rxCheck.sendAck

theorem State.Canon.answered {src x q r payload} (hs : s.Canon) : (s.answered src x q r payload).Canon := by
  dsimp only [State.answered]
  split
  · exact hs.packetOver
  · split
    · exact hs.packetOver
    · split
      · split
        · exact hs.packetOver.writeLocal.setRun
        · exact hs.packetOver
      · exact hs.packetOver.setRun

theorem State.Canon.takeResponse {h r payload} (hs : s.Canon) : (s.takeResponse h r payload).Canon := by
  dsimp only [State.takeResponse]
  split
  · split
    · exact .ite (hs.frame rfl) hs.answered
    · exact hs
  · exact hs

end Sys2Proof.Machine
end

section
/-! PROOFS. Canonical form: moves, tickets and checks (R287, R408) -/

namespace Sys2Proof.Machine
variable {s : State}

theorem State.Canon.orMalformed {r ds k} (hs : s.Canon) (hk : ∀ {u}, u.Canon → (k u).Canon) : (s.orMalformed r ds k).Canon := by
  unfold State.orMalformed
  split
  · exact hs.completeWith
  · exact hk hs

theorem State.Canon.orLocalFail {r os k} (hs : s.Canon) (hk : ∀ {u}, u.Canon → (k u).Canon) : (s.orLocalFail r os k).Canon := by
  unfold State.orLocalFail
  split
  · exact hs.completeWith
  · exact hk hs

theorem State.Canon.orRejected {r ds k} (hs : s.Canon) (hk : ∀ {u}, u.Canon → (k u).Canon) : (s.orRejected r ds k).Canon :=
  hs.chargeStartIf.orMalformed hk

theorem State.Canon.orKeyFail {r os k} (hs : s.Canon) (hk : ∀ {u}, u.Canon → (k u).Canon) : (s.orKeyFail r os k).Canon :=
  hs.chargeStartIf.orLocalFail hk

theorem State.Canon.startNext {g i iter k} (hs : s.Canon) (hk : ∀ {u x1}, u.Canon → (k u x1).Canon) : (s.startNext g i iter k).Canon :=
  hk hs.modQueue.addRun.monStart

theorem State.Canon.startOp? {g op why extra k} (hs : s.Canon) (hk : ∀ {u x1}, u.Canon → (k u x1).Canon) :
    OptCanon (s.startOp? g op why extra k) := by
  unfold State.startOp?
  split
  · exact .none
  · have hstart {i iter} : OptCanon (some (s.startNext g i iter k)) := .some (hs.startNext hk)
    refine .ite .none (.ite (.some hs.modQueue.addRun.chargeStart.completeWith) (.ite .none (.ite hstart
      (.ite (.ite hstart (.ite .none (.some ?_))) .none))))
    exact .foldl hs fun ht => ht.modQueue.askPlacement

theorem State.Canon.startOp {g op why extra k} (hs : s.Canon) (hk : ∀ {u x1}, u.Canon → (k u x1).Canon) : (s.startOp g op why extra k).Canon :=
  .getD (hs.startOp? hk) hs

theorem State.Canon.startNop {r} (hs : s.Canon) : (s.startNop r).Canon := hs.chargeStart.orMalformed fun ht => ht.completeWith

theorem State.Canon.startPut {r} (hs : s.Canon) : (s.startPut r).Canon :=
  hs.orRejected fun ht => .ite ht.chargeStart.completeWith (ht.orKeyFail fun hu => hu.readOpnd.setRun)

theorem State.Canon.startGet {r} (hs : s.Canon) : (s.startGet r).Canon :=
  hs.orRejected fun ht => .ite ht.chargeStart.completeWith (ht.orKeyFail fun hu => hu.setRun)

theorem State.Canon.startPuti {r} (hs : s.Canon) : (s.startPuti r).Canon := hs.orRejected fun ht => ht.setRun

theorem State.Canon.startCopy {r} (hs : s.Canon) : (s.startCopy r).Canon :=
  hs.orRejected fun ht => .ite ht.chargeStart.completeWith (ht.orKeyFail fun hu => hu.setRun)

theorem State.Canon.grantPiece {r} (hs : s.Canon) : OptCanon (s.grantPiece r) :=
  .ite (.some hs.readOpnd.setRun) (.ite (.some hs.chargeGrant.setRun) .none)

theorem State.Canon.startAtomic {r cas} (hs : s.Canon) : (s.startAtomic r cas).Canon := hs.orRejected fun ht => ht.setRun
theorem State.Canon.confirm {g rid ns flush} (hs : s.Canon) : (s.confirm g rid ns flush).Canon := hs.frame rfl
theorem State.Canon.startFlush {r} (hs : s.Canon) : (s.startFlush r).Canon := hs.chargeStart.orMalformed fun ht => ht.setRun
theorem State.Canon.signalLocal {r} (hs : s.Canon) : (s.signalLocal r).Canon := hs.signalCounter.complete

theorem State.Canon.startSignal {r} (hs : s.Canon) : (s.startSignal r).Canon :=
  hs.orRejected fun ht => .ite ht.completeWith (.ite ht.chargeStartIf.setRun (.ite ht.chargeStart.signalLocal ht.setRun))

theorem State.Canon.startMark {r} (hs : s.Canon) : (s.startMark r).Canon := hs.orRejected fun ht => .ite ht.setRun ht.setRun

theorem State.Canon.startWait {r} (hs : s.Canon) : (s.startWait r).Canon := by
  refine hs.chargeStart.orMalformed fun ht => ?_
  split
  · exact ht.completeWith
  · exact ht.setRun

theorem State.Canon.startFence {r} (hs : s.Canon) : (s.startFence r).Canon :=
  hs.chargeStart.orMalformed fun ht => .ite ht.completeWith (.foldl ht.setRun fun hu => hu.askPlacement)

theorem State.Canon.startRepeat {r body} (hs : s.Canon) : (s.startRepeat r body).Canon := by
  dsimp only [State.startRepeat]
  split
  · exact hs.chargeStart.modQueue.completeWith
  · exact hs.chargeStart.modQueue.setRun

theorem State.Canon.finishRemote {r} (hs : s.Canon) : (s.finishRemote r).Canon := by
  dsimp only [State.finishRemote]
  split
  · exact hs.complete
  · refine (Canon.ite ?_ hs).complete
    split
    · exact .ite hs.drawBytes.poolWrite hs
    · exact hs

theorem State.Canon.coverOver {r} (hs : s.Canon) : (s.coverOver r).Canon :=
  .ite (.foldl hs.setRun fun ht => ht.askPlacement) (.ite hs.setRun (.ite (.foldl hs.setRun fun ht => ht.askPlacement) hs.setRun))

theorem State.Canon.requestsOver {r} (hs : s.Canon) : (s.requestsOver r).Canon :=
  .ite hs.confirm.signalLocal (.ite hs.confirm.completeWith hs.confirm.completeWith)

theorem State.Canon.readOver {r} (hs : s.Canon) : (s.readOver r).Canon := .ite hs.setRun hs.writeLocal.setRun

theorem State.Canon.advanceMove {r} (hs : s.Canon) : OptCanon (s.advanceMove r) := by
  dsimp only [State.advanceMove]
  split
  · exact hs.grantPiece
  · exact .ite (.some hs.readOver) .none
  · exact .ite (.some hs.finishRemote) .none
  · exact .ite (.some hs.complete) .none
  · exact .ite (.some hs.completeWith) (.ite (.some hs.complete) .none)
  · exact .ite (.some hs.coverOver) .none
  · exact .ite (.some hs.requestsOver) .none
  · exact .ite (.some hs.completeWith) .none
  · exact .none

theorem State.Canon.rebuilt {peer psn off bs} (hs : s.Canon) : (s.rebuilt peer psn off bs).Canon := by
  dsimp only [State.rebuilt]
  split
  · exact hs
  · exact .ite hs.modPath.count hs.modPath

theorem State.Canon.ticketData {t off bs} (hs : s.Canon) : (s.ticketData t off bs).Canon := by
  unfold State.ticketData
  split
  · split
    · exact hs
    · split
      · exact hs
      · exact hs.setRun
  · split
    · exact hs
    · exact (hs.frame (by rfl)).respond.unadmit
  · exact hs.rebuilt
  · exact hs

theorem State.Canon.collPlaced {rid chunk} (hs : s.Canon) : (s.collPlaced rid chunk).Canon := hs.frame rfl

theorem State.Canon.ticketPlaced {t} (hs : s.Canon) : (s.ticketPlaced t).Canon := by
  unfold State.ticketPlaced
  split
  · split
    · exact hs
    · exact hs.setRun
  · exact hs.afterRecord
  · exact hs.unadmit
  · exact hs.unadmit
  · exact hs.attachSend
  · exact hs.recWritten.recPump
  · exact hs.collPlaced
  · exact hs
  · exact hs
  · exact hs
  · exact hs

theorem State.Canon.serviceFails {src psn st reason} (hs : s.Canon) : (s.serviceFails src psn st reason).Canon := by
  unfold State.serviceFails
  split
  · exact hs.unadmit
  · exact (hs.frame (by rfl)).unadmit.rejectReq

theorem State.Canon.ticketFail {t st addr why} (hs : s.Canon) : (s.ticketFail t st addr why).Canon := by
  unfold State.ticketFail
  split
  · split
    · exact hs
    · exact .ite hs (.ite hs.completeWith hs.completeWith)
  · exact hs.ringFails.afterRecord
  · exact hs.ringFails
  · exact hs.ringFails
  · exact hs.recFailed.recPump
  · exact hs.unadmit
  · exact hs.serviceFails
  · split
    · exact hs
    · exact .ite hs hs.completeWith
  · split
    · exact hs
    · exact .ite hs hs.completeWith
  · exact hs.attachSend
  · exact hs

theorem State.Canon.resumePark {p} (hs : s.Canon) : (s.resumePark p).Canon := by
  unfold State.resumePark
  extract_lets u w
  have hu : u.Canon := hs.frame rfl
  have hw : w.2.Canon := .ite_snd hu.xlateAll hu.hostWriteAll
  exact .ite hu (.ite (.ite hw.ticketPlaced hw) hu.hostRead)

theorem State.Canon.failPark {p} (hs : s.Canon) : (s.failPark p).Canon := (hs.frame (by rfl)).count.ticketFail
theorem State.Canon.setPark {p st} (hs : s.Canon) : (s.setPark p st).Canon := hs.frame rfl
theorem State.Canon.pageOrFail {p} (hs : s.Canon) : (s.pageOrFail p).Canon := .ite (.ite hs.setPark.count.emit hs.setPark) hs.failPark

theorem State.Canon.tryParks (hs : s.Canon) : OptCanon s.tryParks := by
  dsimp only [State.tryParks]
  split
  · exact .some hs.resumePark
  · split
    · exact .some hs.pageOrFail
    · exact .map fun _ => hs.admitPark.frame rfl

theorem State.Canon.readEnded {tag} (hs : s.Canon) : (s.readEnded tag).Canon := .foldl ((hs.frame (by rfl)).frame rfl) fun ht => ht.emit

theorem State.Canon.tryWinWaits (hs : s.Canon) : OptCanon s.tryWinWaits :=
  .map fun _ => .ite (hs.frame (by rfl)).poolWrite.ticketPlaced (hs.frame (by rfl)).poolWrite

theorem State.Canon.tryUnitWaits (hs : s.Canon) : OptCanon s.tryUnitWaits := .map fun _ => (hs.frame (by rfl)).pwrite.ticketPlaced
theorem State.Canon.tryPoolWaits (hs : s.Canon) : OptCanon s.tryPoolWaits := .map fun _ => (hs.frame (by rfl)).ticketData
theorem State.Canon.checkOver {r bs} (hs : s.Canon) : (s.checkOver r bs).Canon := hs.count.complete

theorem State.Canon.startCheck {r} (hs : s.Canon) : (s.startCheck r).Canon :=
  hs.chargeStart.orMalformed fun ht => .ite ht.checkOver (ht.orLocalFail fun hu => hu.readOpnd.setRun)

end Sys2Proof.Machine
end

section
/-! PROOFS. Canonical form: collectives and snapshots (R287, R408) -/

namespace Sys2Proof.Machine
variable {s : State}

theorem State.Canon.sendXferOf {x node g} (hs : s.Canon) : (s.sendXferOf x node g).Canon :=
  .foldl hs fun ht => by
    split
    · exact ht.originate
    · exact (ht.frame (by rfl)).originate

theorem State.Canon.sendXfer {x node} (hs : s.Canon) : (s.sendXfer x node).Canon := hs.sendXferOf

theorem State.Canon.keepXferOf {x g} (hs : s.Canon) : (s.keepXferOf x g).Canon :=
  .foldl (hs.frame rfl) fun ht => .ite ht ht.sendXferOf

theorem State.Canon.keepXfer {x} (hs : s.Canon) : (s.keepXfer x).Canon := hs.keepXferOf
theorem State.Canon.sendCollF {node rank kind f} (hs : s.Canon) : (s.sendCollF node rank kind f).Canon := hs.originate

theorem State.Canon.sendColl {node rank kind comm cseq op chunk srank pdig} (hs : s.Canon) :
    (s.sendColl node rank kind comm cseq op chunk srank pdig).Canon := hs.sendCollF

theorem State.Canon.ackArrival {a} (hs : s.Canon) : (s.ackArrival a).Canon := by
  unfold State.ackArrival
  split
  · exact hs.sendColl
  · exact hs

theorem State.Canon.dropArrival {a} (hs : s.Canon) : (s.dropArrival a).Canon := .foldl (hs.frame rfl) fun ht => ht.freePkt

theorem State.Canon.storePacket {x kind c} (hs : s.Canon) : (s.storePacket x kind c).Canon := by
  unfold State.storePacket
  extract_lets mine old a t
  have ht : t.Canon := hs.frame rfl
  exact .ite ht (.ite (ht.frame rfl) ht.dropArrival.count.sendColl)

theorem State.Canon.setColl {c} (hs : s.Canon) : (s.setColl c).Canon := hs.frame rfl

theorem State.Canon.noteExc {c chunk e} (hs : s.Canon) : (s.noteExc c chunk e).1.Canon := by
  unfold State.noteExc
  extract_lets one
  have hone : ∀ {x k on}, x.1.Canon → (one x k on).1.Canon := fun hx => .ite_fst hx.count hx
  exact hone (hone (hone (hone hs)))

theorem State.Canon.keepExc {c chunk e} (hs : s.Canon) : (s.keepExc c chunk e).1.Canon := hs.noteExc.setColl
theorem State.Canon.collPut {r c m off bytes} (hs : s.Canon) : (s.collPut r c m off bytes).1.Canon := hs.writeLocal.setColl

theorem State.Canon.collWrite {r c m off bytes} (hs : s.Canon) : (s.collWrite r c m off bytes).1.Canon := by
  dsimp only [State.collWrite]
  split
  · exact hs.collPut
  · exact hs.setColl

theorem State.Canon.ackTicket {comm cseq g up} (hs : s.Canon) : (s.ackTicket comm cseq g up).Canon := hs.frame rfl
theorem State.Canon.endColl {c} (hs : s.Canon) : (s.endColl c).Canon := hs.frame rfl

theorem State.Canon.readPart {rid o} (hs : s.Canon) : (s.readPart rid o).1.Canon := by
  dsimp only [State.readPart]
  split
  · exact hs
  · exact hs.readOpnd.setRun

theorem State.Canon.withSrc {r c key os k} (hs : s.Canon) (hk : ∀ {u x1 x2}, u.Canon → (k u x1 x2).Canon) :
    OptCanon (s.withSrc r c key os k) := by
  unfold State.withSrc
  split
  · exact .ite (.some (hk hs.setRun.setColl)) .none
  · exact .ite .none (.some (State.Canon.setColl (.foldl_fst hs fun ht => ht.readPart)))

theorem State.Canon.addWrites {rid n} (hs : s.Canon) : (s.addWrites rid n).Canon := by
  unfold State.addWrites
  split
  · exact hs.setRun
  · exact hs

theorem State.Canon.buildContribution {r c g src resid} (hs : s.Canon) : (s.buildContribution r c g src resid).1.Canon := by
  dsimp only [State.buildContribution]
  split
  · exact hs.keepExc.writeLocal.addWrites
  · exact hs.keepExc

theorem State.Canon.buildNext {r c g k} (hs : s.Canon) (hk : ∀ {u x1 x2 x3}, u.Canon → (k u x1 x2 x3).Canon) : OptCanon (s.buildNext r c g k) :=
  .ite .none (hs.withSrc fun ht => hk ht.buildContribution)

theorem State.Canon.gateTxns {r n k} (hs : s.Canon) (hk : OptCanon k) : OptCanon (s.gateTxns r n k) := .ite hk (.ite .none (.some hs.waitTxn))
theorem State.Canon.sendContrib {r c x} (hs : s.Canon) : (s.sendContrib r c x).Canon := hs.setColl.keepXferOf.modQueue

theorem State.Canon.upStep {r c} (hs : s.Canon) : OptCanon (s.upStep r c) := by
  have hgo : ∀ g, OptCanon (s.buildNext r c g fun s c bytes exc => s.sendContrib r c (c.xfer .contrib g bytes exc [c.parent g])) :=
    fun _ => hs.buildNext fun ht => ht.sendContrib
  exact .ite .none (.bind fun g => .ite (.map fun _ => hs.setColl.keepXfer) (.ite .none (.ite (hs.gateTxns (hgo g)) (hgo g))))

theorem State.Canon.setSlot {n x} (hs : s.Canon) : (s.setSlot n x).Canon := hs.frame rfl
theorem State.Canon.slotOwn {r c n y} (hs : s.Canon) : OptCanon (s.slotOwn r c n y) := hs.buildNext fun ht => ht.keepExc.setSlot
theorem State.Canon.slotCombine {c n y a} (hs : s.Canon) : (s.slotCombine c n y a).Canon := hs.keepExc.setSlot.ackArrival.dropArrival
theorem State.Canon.combTake {c n y t k lo row exc} (hs : s.Canon) : (s.combTake c n y t k lo row exc).Canon := hs.keepExc.setSlot

theorem State.Canon.slotComb {r c n y} (hs : s.Canon) : OptCanon (s.slotComb r c n y) := by
  dsimp only [State.slotComb]
  split
  · exact .none
  · refine .ite (hs.withSrc fun ht => ht.combTake) (.ite .none (.some ?_))
    refine .foldl hs.combTake fun ht => ?_
    split
    · exact .ite ht.ackArrival.dropArrival ht
    · exact ht

theorem State.Canon.slotStep {r c} (hs : s.Canon) : OptCanon (s.slotStep r c) := by
  refine .findSome fun _ => ?_
  split
  · exact .none
  · exact .ite (.ite hs.slotOwn (.bind fun _ => .map fun _ => hs.slotCombine)) (.ite hs.slotComb .none)

theorem State.Canon.staleStep {c} (hs : s.Canon) : OptCanon (s.staleStep c) := .map fun _ => hs.dropArrival.count
theorem State.Canon.dupStep {c} (hs : s.Canon) : OptCanon (s.dupStep c) := .map fun _ => hs.count.ackArrival.dropArrival

theorem State.Canon.grantSlot {c g reserved} (hs : s.Canon) : (s.grantSlot c g reserved).Canon := by
  dsimp only [State.grantSlot]
  split
  · exact hs
  · exact hs.setColl.setSlot.frame rfl

theorem State.Canon.slotGrant (hs : s.Canon) : s.slotGrant.Canon := by
  dsimp only [State.slotGrant]
  split
  · exact hs.grantSlot
  · split
    · exact hs
    · split
      · exact .ite hs.grantSlot (.foldl hs fun ht => ht.noteBorrow)
      · exact hs

theorem State.Canon.ticketStep {c} (hs : s.Canon) : OptCanon (s.ticketStep c) :=
  .ite .none (.bind fun _ => .ite .none (.ite (.some (hs.setColl.frame rfl)) (.ite (.some (hs.setColl.frame rfl)) .none)))

theorem State.Canon.runProgram {img i j0 acc} (hs : s.Canon) : (s.runProgram img i j0 acc).1.Canon :=
  .foldl_fst hs fun ht => .foldl ht fun hu => hu.pwrite

theorem State.Canon.rootResult {r c g bytes exc} (hs : s.Canon) : (s.rootResult r c g bytes exc).Canon :=
  .ite hs.collWrite.setColl hs.collWrite.setColl.keepXfer

theorem State.Canon.finishSlot {r c n y} (hs : s.Canon) : (s.finishSlot r c n y).Canon := by
  dsimp only [State.finishSlot]
  split
  · exact hs.keepExc.setSlot.collWrite.setColl
  · split
    · exact hs.keepExc.setSlot.setColl
    · split
      · exact .ite hs (.ite (.foldl hs fun ht => ht.snoopRange) hs.runProgram.keepExc.setSlot.rootResult)
      · exact hs.keepExc.setSlot.rootResult

theorem State.Canon.agthStep {r c} (hs : s.Canon) : OptCanon (s.agthStep r c) := by
  dsimp only [State.agthStep]
  split
  · exact .none
  · exact .bind fun _ => .ite .none (hs.withSrc fun ht => .ite ht.keepExc.collWrite.setColl ht.keepExc.collWrite.setColl.keepXfer)

theorem State.Canon.resultStep {r c} (hs : s.Canon) : OptCanon (s.resultStep r c) := by
  refine .ite .none (.map fun a => ?_)
  extract_lets g w o v k d exc c t u
  have ht : t.Canon := hs.keepExc.collWrite.setColl
  have hu : u.Canon := .ite ht ht.keepXfer
  exact .ite hs.ackArrival.dropArrival hu.ackArrival.dropArrival

theorem State.Canon.placeSegs {r c m src segs bytes exc} (hs : s.Canon) : (s.placeSegs r c m src segs bytes exc).Canon := by
  unfold State.placeSegs
  extract_lets total v w k
  have hw : w.1.Canon := .foldl_fst hs fun ht => ht.collWrite
  exact (Canon.keepExc hw).setColl

theorem State.Canon.sendSegs {r c key o wire m segs next} (hs : s.Canon) : OptCanon (s.sendSegs r c key o wire m segs next) :=
  .ite .none (hs.withSrc fun ht => .ite ht.keepExc.placeSegs ht.keepExc.keepXfer)

theorem State.Canon.a2aStep {r c} (hs : s.Canon) : OptCanon (s.a2aStep r c) := .ite .none hs.sendSegs
theorem State.Canon.todoStep {r c} (hs : s.Canon) : OptCanon (s.todoStep r c) := .bind fun _ => hs.sendSegs

theorem State.Canon.dataStep {r c} (hs : s.Canon) : OptCanon (s.dataStep r c) :=
  .ite (.map fun _ => .ite hs.count.ackArrival.dropArrival hs.placeSegs.ackArrival.dropArrival) .none

theorem State.Canon.padStep {r c} (hs : s.Canon) : OptCanon (s.padStep r c) := by
  refine .ite .none (.ite (.some (.foldl hs fun ht => ?_)) .none)
  split
  · exact ht
  · exact Canon.setColl (.foldl_fst ht fun hu => hu.collWrite)

theorem State.Canon.countStep {c} (hs : s.Canon) : OptCanon (s.countStep c) := .map fun _ => .ite hs.dropArrival hs.dropArrival.setColl
theorem State.Canon.auxWrite {r addr bs} (hs : s.Canon) : (s.auxWrite r addr bs).Canon := hs.writeLocal.addWrites

theorem State.Canon.arrayWrite {r addr bs} (hs : s.Canon) : (s.arrayWrite r addr bs).Canon := by
  dsimp only [State.arrayWrite]
  split
  · exact hs.writeLocal.setColl
  · exact hs.writeLocal

theorem State.Canon.grantIn {rid o gs} (hs : s.Canon) : (s.grantIn rid o gs).Canon := by
  dsimp only [State.grantIn]
  split
  · exact hs
  · split
    · exact hs
    · exact .elim (hs.setColl.frame rfl) fun _ => (hs.setColl.frame (by rfl)).setColl

theorem State.Canon.grantStep {r c} (hs : s.Canon) : OptCanon (s.grantStep r c) :=
  .ite .none (.some (Canon.foldl (.ite hs.setColl.arrayWrite.arrayWrite hs.setColl) fun ht => ht.keepXfer).grantIn)

theorem State.Canon.grantArrives {c} (hs : s.Canon) : OptCanon (s.grantArrives c) := .map fun _ => hs.dropArrival.grantIn
theorem State.Canon.grantsDone {r c} (hs : s.Canon) : OptCanon (s.grantsDone r c) := .ite .none (.ite (.some hs.setColl.auxWrite) (.some hs.setColl))

theorem State.Canon.rowStep {r c} (hs : s.Canon) : OptCanon (s.rowStep r c) := by
  refine .ite .none (.bind fun x => ?_)
  extract_lets key go
  have hgo : OptCanon go := hs.withSrc fun ht => ht.keepExc.sendContrib
  exact .ite (hs.gateTxns hgo) hgo

theorem State.Canon.markStep {r c} (hs : s.Canon) : OptCanon (s.markStep r c) := .map fun _ => .ite hs.setColl.writeLocal.addWrites hs.setColl
theorem State.Canon.collComplete {r c} (hs : s.Canon) : (s.collComplete r c).Canon := hs.complete
theorem State.Canon.holdStep {r c} (hs : s.Canon) : OptCanon (s.holdStep r c) := .ite .none (.some (.foldl_fst hs.setColl fun ht => ht.collPut))
theorem State.Canon.tellDigest {c d} (hs : s.Canon) : (s.tellDigest c d).Canon := .foldl hs fun ht => ht.sendColl
theorem State.Canon.mismatch {r c} (hs : s.Canon) : (s.mismatch r c).Canon := (hs.frame (by rfl)).completeWith

theorem State.Canon.digestStep {r c} (hs : s.Canon) : OptCanon (s.digestStep r c) :=
  .ite (.some hs.mismatch) (.map fun _ => hs.dropArrival.tellDigest.tellDigest.mismatch)

theorem State.Canon.collStep {r} (hs : s.Canon) : OptCanon (s.collStep r) := by
  unfold State.collStep
  split
  · exact .none
  · exact .orElse hs.digestStep <| .orElse hs.staleStep <| .orElse hs.dupStep <| .orElse hs.countStep <| .orElse hs.grantStep <|
      .orElse hs.grantArrives <| .orElse hs.grantsDone <| .orElse hs.ticketStep <| .orElse hs.agthStep <| .orElse hs.a2aStep <|
      .orElse hs.todoStep <| .orElse hs.resultStep <| .orElse hs.dataStep <| .orElse hs.padStep <| .orElse hs.holdStep <|
      .orElse hs.upStep <| .orElse hs.rowStep <| .orElse hs.slotStep <| .orElse hs.markStep <| .ite (.some hs.collComplete) .none

theorem State.Canon.tryEndColl (hs : s.Canon) : OptCanon s.tryEndColl := .map fun _ => hs.endColl

theorem State.Canon.tryOldArrival (hs : s.Canon) : OptCanon s.tryOldArrival :=
  .map fun _ => (Canon.ite hs.count (.ite hs.count.ackArrival (.ite hs.ackArrival hs))).dropArrival

theorem State.Canon.putJournal {j} (hs : s.Canon) : (s.putJournal j).Canon := by
  dsimp only [State.putJournal]
  split
  · exact hs.frame rfl
  · exact (hs.frame (by rfl)).engineWrite

theorem State.Canon.saveUnit {j u} (hs : s.Canon) : (s.saveUnit j u).Canon := hs.pwrite.engineWrite.putJournal.count
theorem State.Canon.clearBitmap {j} (hs : s.Canon) : (s.clearBitmap j).Canon := .ite hs hs.engineWrite

theorem State.Canon.ckptCopy {j rank} (hs : s.Canon) : (s.ckptCopy j rank).Canon := by
  dsimp only [State.ckptCopy]
  split
  · exact hs
  · split
    · exact hs
    · split
      · exact hs.emit
      · exact hs.raise

theorem State.Canon.commitStep {comm rank step seq rid} (hs : s.Canon) : (s.commitStep comm rank step seq rid).Canon := by
  dsimp only [State.commitStep]
  split
  · refine Canon.completeWith ?_
    split
    · exact hs.clearBitmap.putJournal.ckptCopy
    · exact hs
  · split
    · exact hs.clearBitmap.putJournal.ckptCopy
    · exact hs

theorem State.Canon.snapSend {r c} (hs : s.Canon) : OptCanon (s.snapSend r c) :=
  .ite .none (.bind fun _ => .ite .none (hs.gateTxns (.some hs.sendContrib)))

theorem State.Canon.snapCombine {c} (hs : s.Canon) : OptCanon (s.snapCombine c) := by
  refine .findSome fun _ => ?_
  split
  · exact .none
  · exact .bind fun _ => .map fun _ => hs.setSlot

theorem State.Canon.stripePlaced {c n y} (hs : s.Canon) : (s.stripePlaced c n y).Canon :=
  .foldl_snd hs.setSlot.setColl fun ht => (Canon.ite ht.count ht).ackArrival.dropArrival

theorem State.Canon.finishStripe {c n y} (hs : s.Canon) : (s.finishStripe c n y).Canon :=
  .ite hs (.ite hs.poolWrite.stripePlaced hs.poolWrite.addWrites.setSlot)

theorem State.Canon.snapRetire {r c} (hs : s.Canon) : OptCanon (s.snapRetire r c) := by
  unfold State.snapRetire
  split
  · exact .none
  · refine .findSome fun _ => ?_
    split
    · exact .ite (.some hs.stripePlaced) .none
    · exact .none

theorem State.Canon.snapPrepare {r c} (hs : s.Canon) : OptCanon (s.snapPrepare r c) := by
  dsimp only [State.snapPrepare]
  split
  · exact .none
  · refine .some ?_
    split
    · exact hs.setColl.putJournal
    · exact hs.setColl

theorem State.Canon.snapDecide {c} (hs : s.Canon) : (s.snapDecide c).Canon := (Canon.ite hs hs.keepXfer).commitStep
theorem State.Canon.snapVote {c} (hs : s.Canon) : OptCanon (s.snapVote c) := .ite .none (.some (.ite hs.setColl.snapDecide hs.setColl.keepXfer))

theorem State.Canon.snapArrivals {c} (hs : s.Canon) : OptCanon (s.snapArrivals c) := by
  refine .map fun a => ?_
  have ht : ((s.ackArrival a).dropArrival a).Canon := hs.ackArrival.dropArrival
  exact .ite ht.count (.ite (.ite ht.count ht.setColl) ht.snapDecide)

theorem State.Canon.snapStep {r} (hs : s.Canon) : OptCanon (s.snapStep r) := by
  unfold State.snapStep
  split
  · exact .none
  · exact .orElse hs.digestStep <| .orElse hs.staleStep <| .orElse hs.snapArrivals <| .orElse hs.snapSend <|
      .orElse hs.snapCombine <| .orElse hs.snapRetire <| .orElse hs.snapPrepare hs.snapVote

theorem State.Canon.slotFinish {n} (hs : s.Canon) : (s.slotFinish n).Canon := by
  unfold State.slotFinish
  split
  · exact hs
  · split
    · exact hs
    · split
      · exact hs.finishStripe
      · split
        · exact hs
        · exact .ite hs hs.finishSlot

end Sys2Proof.Machine
end

section
/-! PROOFS. Canonical form: starts, frogs, key slots and settling (R287, R408) -/

namespace Sys2Proof.Machine
variable {s : State}

theorem State.Canon.readMore {rid reads keeps} (hs : s.Canon) : (s.readMore rid reads keeps).Canon := by
  unfold State.readMore
  extract_lets u
  have hu : u.Canon := .foldl hs fun ht => by
    split
    · exact ht
    · exact ht.readOpnd.setRun
  split
  · exact hu
  · exact hu.setRun

theorem State.Canon.setJob {j x} (hs : s.Canon) : (s.setJob j x).Canon := hs.frame rfl
theorem State.Canon.admitColl {r comm x} (hs : s.Canon) : (s.admitColl r comm x).Canon := hs.frame rfl

theorem State.Canon.probeOpnd {rid o write} (hs : s.Canon) : (s.probeOpnd rid o write).Canon := by
  dsimp only [State.probeOpnd]
  split
  · exact .elim hs.xlateAll fun _ => hs.xlateAll.setRun
  · exact hs

theorem State.Canon.collRead {r c} (hs : s.Canon) : (s.collRead r c).Canon := by
  dsimp only [State.collRead]
  split
  · exact hs.completeWith
  · exact hs.orLocalFail fun ht => .ite ht.completeWith (.ite ht.setColl.setRun.probeOpnd.probeOpnd ht.setColl.setRun)

theorem State.Canon.startColl {r} (hs : s.Canon) : (s.startColl r).Canon := by
  refine hs.chargeStart.orMalformed fun ht => .ite ht.completeWith ?_
  split
  · exact ht
  · exact .ite ht.completeWith (.ite (ht.admitColl.orLocalFail fun hu => hu.setRun.readMore.probeOpnd)
      (.ite (ht.admitColl.orLocalFail fun hu => hu.setRun.readMore) ht.admitColl.collRead))

theorem State.Canon.tellMap {comm cseq op q node reply} (hs : s.Canon) : (s.tellMap comm cseq op q node reply).Canon := hs.sendCollF

theorem State.Canon.collBegin {r c} (hs : s.Canon) : (s.collBegin r c).Canon :=
  .foldl (.foldl hs.setColl.setRun fun ht => ht.tellMap) fun ht => ht.keepXfer

theorem State.Canon.arraysRead {r c} (hs : s.Canon) : (s.arraysRead r c).Canon := .ite hs.completeWith (.ite hs.completeWith hs.setColl.collRead)

theorem State.Canon.collReadOver {r} (hs : s.Canon) : (s.collReadOver r).Canon := by
  dsimp only [State.collReadOver]
  split
  · exact hs
  · exact .ite hs.collBegin (.ite hs.arraysRead (.ite hs.completeWith hs.collRead))

theorem State.Canon.startSnap {r} (hs : s.Canon) : (s.startSnap r).Canon := by
  refine hs.chargeStart.orMalformed fun ht => ?_
  split
  · exact ht
  · refine .ite ht.completeWith (ht.admitColl.setColl.setJob.orLocalFail fun hu => ?_)
    exact State.Canon.setRun (State.Canon.poolWrite (.ite hu.putJournal.raise hu.putJournal))

theorem State.Canon.setTobj {o} (hs : s.Canon) : (s.setTobj o).Canon := hs.frame rfl
theorem State.Canon.persVersion {r} (hs : s.Canon) : (s.persVersion r).Canon := hs.frame rfl

theorem State.Canon.startPers {r} (hs : s.Canon) : (s.startPers r).Canon :=
  hs.chargeStart.orMalformed fun ht => ht.orLocalFail fun hu => .ite hu.completeWith (.ite hu.readOpnd.persVersion hu.readOpnd.setRun)

theorem State.Canon.startDigest {r} (hs : s.Canon) : (s.startDigest r).Canon :=
  hs.chargeStart.orMalformed fun ht => ht.orLocalFail fun hu => hu.setRun.readMore

theorem State.Canon.placeOut {r o bs result} (hs : s.Canon) : (s.placeOut r o bs result).Canon := hs.writeLocal.setRun
theorem State.Canon.digestOver {r} (hs : s.Canon) : (s.digestOver r).Canon := hs.count.placeOut
theorem State.Canon.setKslot {n k} (hs : s.Canon) : (s.setKslot n k).Canon := hs.frame rfl

theorem State.Canon.startTag {upset r} (hs : s.Canon) : (s.startTag upset r).Canon := by
  refine hs.chargeStart.orMalformed fun ht => ?_
  split
  · exact ht.completeWith
  · exact .ite ht.completeWith (.ite ht.setKslot.raise.count.completeWith (ht.orLocalFail fun hu => hu.setRun.readMore))

theorem State.Canon.tagOver {r} (hs : s.Canon) : (s.tagOver r).Canon := by
  unfold State.tagOver
  extract_lets e f k a u v why
  have hv : v.Canon := .ite hs.count.count hs.count
  exact .ite hv.raise.count.completeWith (.ite (.ite hv.completeWith hv.completeWith) hv.placeOut)

theorem State.Canon.startUprog {r} (hs : s.Canon) : (s.startUprog r).Canon :=
  hs.chargeStart.orMalformed fun ht => ht.orLocalFail fun hu => hu.setRun.readMore

theorem State.Canon.uprogOver {r} (hs : s.Canon) : OptCanon (s.uprogOver r) := by
  dsimp only [State.uprogOver]
  split
  · exact .some hs.completeWith
  · split
    · exact .some hs.completeWith
    · split
      · exact .none
      · exact .some (hs.frame (by rfl)).complete

theorem State.Canon.orMapFail {r os k} (hs : s.Canon) (hk : ∀ {u}, u.Canon → (k u).Canon) : (s.orMapFail r os k).Canon :=
  .ite hs.completeWith (hs.orLocalFail hk)

theorem State.Canon.startComm {r} (hs : s.Canon) : (s.startComm r).Canon :=
  hs.chargeStart.orMalformed fun ht => .ite ht.setRun (ht.orMapFail fun hu => hu.setRun.readMore)

theorem State.Canon.unprepare {comm} (hs : s.Canon) : (s.unprepare comm).Canon := by
  unfold State.unprepare
  split
  · exact .ite hs.putJournal hs
  · exact hs

theorem State.Canon.endStopped {j was} (hs : s.Canon) : (s.endStopped j was).Canon := .ite (Canon.elim hs fun _ => hs.unprepare).setJob.count hs
theorem State.Canon.showClaiming (hs : s.Canon) : s.showClaiming.Canon := .ite hs hs.setFld.bumpSeq

theorem State.Canon.mapClaims {h n} (hs : s.Canon) : (s.mapClaims h n).Canon := by
  unfold State.mapClaims
  extract_lets stands t job rank u
  have ht : t.Canon := hs.frame rfl
  have hu : u.Canon := .ite ht ht.setJob
  exact .ite hs hu.showClaiming

theorem State.Canon.commApply {r bs} (hs : s.Canon) : (s.commApply r bs).Canon := by
  dsimp only [State.commApply]
  split
  · exact hs.completeWith
  · split
    · exact hs.completeWith
    · split
      · exact .ite hs.completeWith hs.setComm.complete
      · split
        · exact hs.completeWith
        · exact hs.setComm.endStopped.mapClaims.complete

theorem State.Canon.commReadOver {r} (hs : s.Canon) : (s.commReadOver r).Canon :=
  .ite (.ite hs.completeWith (.ite hs.completeWith (hs.orMapFail fun ht => ht.setRun.readMore))) hs.commApply

theorem State.Canon.dropParked {h} (hs : s.Canon) : (s.dropParked h).Canon := .foldl hs fun ht => ht.count.sendColl.dropArrival

theorem State.Canon.tryDestroy {r} (hs : s.Canon) : OptCanon (s.tryDestroy r) := by
  unfold State.tryDestroy
  extract_lets h t
  refine .ite .none ?_
  split
  · exact .some hs.completeWith
  · extract_lets _ u v
    have ht : t.Canon := hs.dropParked.setComm
    have hu : u.Canon := .ite ht.setJob ht
    have hv : v.Canon := hu.frame rfl
    exact .some hv.completeWith

theorem State.Canon.advanceSetup {r} (hs : s.Canon) : OptCanon (s.advanceSetup r) := by
  dsimp only [State.advanceSetup]
  split
  · exact .ite (.some hs.complete) .none
  · split
    · split
      · exact .none
      · split
        · exact .some hs.persVersion
        · split
          · exact .some hs.digestOver
          · exact .ite (.some hs.tagOver) (.ite hs.uprogOver (.ite (.some hs.commReadOver) (.some hs.collReadOver)))
    · exact .ite (.ite hs.tryDestroy (.ite hs.snapStep hs.collStep)) .none

theorem State.Canon.frogRuns {j} (hs : s.Canon) : (s.frogRuns j).Canon := by
  refine State.Canon.frame (State.Canon.foldl hs fun ht => ?_) rfl
  split
  · exact ht.completeWith
  · exact ht

theorem State.Canon.frogDone {j f} (hs : s.Canon) : (s.frogDone j f).Canon := hs.frame rfl
theorem State.Canon.sendDarning {c x} (hs : s.Canon) : (s.sendDarning c x).Canon := .foldl hs fun ht => ht.originate
theorem State.Canon.setClaim {x} (hs : s.Canon) : (s.setClaim x).Canon := hs.frame rfl

theorem State.Canon.startDarning {x t} (hs : s.Canon) : (s.startDarning x t).Canon := by
  dsimp only [State.startDarning]
  split
  · exact hs
  · exact .ite hs.setClaim.engineWrite.raise (.ite hs.setClaim hs.setClaim.sendDarning)

theorem State.Canon.voteOver {j comm rank f t} (hs : s.Canon) : (s.voteOver j comm rank f t).Canon := by
  unfold State.voteOver
  extract_lets p kids u _ _ v
  have hu : u.Canon := .ite hs hs.keepXfer
  have hv : v.Canon := by
    dsimp only [v]
    split
    · exact .ite hu.putJournal hu
    · exact hu
  exact .ite (.foldl hu.setJob fun ht => .ite ht.startDarning ht.setClaim) hv.setJob

theorem State.Canon.voteSend {j comm rank f} (hs : s.Canon) : OptCanon (s.voteSend j comm rank f) :=
  .ite .none (.some (.ite hs.setJob.voteOver hs.setJob.keepXfer))

theorem State.Canon.tryVote (hs : s.Canon) : OptCanon s.tryVote := by
  refine .findSome fun a => .ite .none ?_
  split
  · exact .none
  · refine .ite (.some hs.ackArrival.dropArrival) ?_
    split
    · extract_lets t f
      have ht : t.Canon := .ite hs.setJob hs
      exact .ite .none (.ite (.some ht.setJob.ackArrival.dropArrival) (.ite (.some ht.voteOver.ackArrival.dropArrival)
        (.ite .none (.some ht.ackArrival.dropArrival))))
    · exact .none

theorem State.Canon.endKept {j} (hs : s.Canon) : OptCanon (s.endKept j) := .bind fun _ => .map fun _ => hs.completeWith

theorem State.Canon.frogStep {j} (hs : s.Canon) : OptCanon (s.frogStep j) := by
  refine .bind fun f => ?_
  have hgo : ∀ c, OptCanon (match s.rankHere c with
      | some _ => some (s.setJob j { s.job j with frog := some { f with phase := .vote } })
      | none => some (s.frogDone j f)) := fun c => by
    split
    · exact .some hs.setJob
    · exact .some hs.frogDone
  split
  · refine .ite hs.endKept (.ite .none ?_)
    split
    · exact hgo _
    · exact .some hs.setJob
  · exact .bind hgo
  · exact .bind fun _ => .bind fun _ => hs.voteSend
  · exact .none

theorem State.Canon.darnAnswer {p bytes} (hs : s.Canon) : (s.darnAnswer p bytes).Canon := by
  dsimp only [State.darnAnswer]
  split
  · exact .foldl hs fun ht => ht.originate
  · exact hs

theorem State.Canon.serveDarning {p r c j me} (hs : s.Canon) : (s.serveDarning p r c j me).Canon :=
  .ite hs.darnAnswer (.foldl (hs.frame rfl) fun ht => ht.originate)

theorem State.Canon.tryDarnServe (hs : s.Canon) : OptCanon s.tryDarnServe := by
  refine .map fun p => ?_
  extract_lets u
  have hu : u.Canon := hs.frame rfl
  split
  · split
    · exact .ite hu.serveDarning hu.darnAnswer
    · exact hu
  · exact hu

theorem State.Canon.darnReadOver {q src} (hs : s.Canon) : (s.darnReadOver q src).Canon := by
  unfold State.darnReadOver
  split
  · exact hs.packetOver
  · exact hs

theorem State.Canon.darnPiece {q src roff bytes} (hs : s.Canon) : (s.darnPiece q src roff bytes).Canon := by
  dsimp only [State.darnPiece]
  split
  · exact hs
  · exact .ite hs (.ite hs.engineWrite.count.setClaim.darnReadOver hs.engineWrite.count.setClaim)

theorem State.Canon.darnUnit {q src roff bytes} (hs : s.Canon) : (s.darnUnit q src roff bytes).Canon := by
  unfold State.darnUnit
  extract_lets want m
  split
  · exact hs
  · extract_lets e t all
    have ht : t.Canon := .ite hs hs.darnReadOver
    exact .ite (ht.frame (by rfl)).darnAnswer (ht.frame rfl)

theorem State.Canon.tryDarnIn (hs : s.Canon) : OptCanon s.tryDarnIn := by
  dsimp only [State.tryDarnIn]
  split
  · exact .none
  · exact .some (.ite (hs.frame (by rfl)).darnPiece (hs.frame (by rfl)).darnUnit)

theorem State.Canon.recreateKey {comm rank f desc key} (hs : s.Canon) : (s.recreateKey comm rank f desc key).Canon :=
  .ite hs (.ite hs.raise (.ite hs (hs.setKey.frame rfl)))

theorem State.Canon.recreateKeys {comm rank f bs} (hs : s.Canon) : (s.recreateKeys comm rank f bs).Canon := .foldl hs fun ht => ht.recreateKey

theorem State.Canon.tryRekey (hs : s.Canon) : OptCanon s.tryRekey :=
  .map fun _ => .foldl (hs.frame rfl) fun ht => by
    split
    · exact .ite ht.recreateKeys ht
    · exact ht

theorem State.Canon.askRestore {x} (hs : s.Canon) : (s.askRestore x).Canon := by
  dsimp only [State.askRestore]
  split
  · exact (hs.frame (by rfl)).restoreOver
  · exact (hs.frame (by rfl)).originate

theorem State.Canon.tryRestores (hs : s.Canon) : OptCanon s.tryRestores := by
  refine .map fun _ => .ite hs.askRestore (Canon.setFld ?_).setResult
  split
  · exact (hs.frame (by rfl)).setReg64
  · exact hs.frame rfl

theorem State.Canon.tryRecovery (hs : s.Canon) : OptCanon s.tryRecovery :=
  .orElse hs.tryDarnIn (.orElse hs.tryDarnServe (.orElse hs.tryVote (.orElse (.findSome fun _ => hs.frogStep) (.orElse hs.tryRestores hs.tryRekey))))

theorem State.Canon.keyslotDone {f res kcv} (hs : s.Canon) : (s.keyslotDone f res kcv).Canon :=
  (Canon.foldl hs fun ht => ht.setReg).setFld.setReg64.setResult

theorem State.Canon.keyslotAct {f op} (hs : s.Canon) : (s.keyslotAct f op).Canon := by
  dsimp only [State.keyslotAct]
  split
  · exact hs.keyslotDone
  · exact .ite hs.setKslot.keyslotDone hs.setKslot.keyslotDone

theorem State.Canon.keyslotCmd {f op k} (hs : s.Canon) (hk : ∀ {u x1}, u.Canon → (k u x1).Canon) : (s.keyslotCmd f op k).Canon := by
  dsimp only [State.keyslotCmd]
  split
  · exact hs.count
  · split
    · exact hs.setFld.keyslotDone
    · exact hk hs.setFld

theorem State.Canon.keyslotWait {f op n} (hs : s.Canon) : (s.keyslotWait f op n).Canon := .ite hs.keyslotAct (hs.setFld.frame rfl)

theorem State.Canon.execKeyslotQuery {f} (hs : s.Canon) : NextCanon (execKeyslotQuery f s) :=
  .next (hs.keyslotCmd fun ht => .ite ht.keyslotDone ht.keyslotDone)

theorem State.Canon.execKeyslotLoad {f} (hs : s.Canon) : NextCanon (execKeyslotLoad f s) :=
  .next (hs.keyslotCmd fun ht => .ite ht.keyslotDone ht.keyslotWait)

theorem State.Canon.execKeyslotClear {f} (hs : s.Canon) : NextCanon (execKeyslotClear f s) := .next (hs.keyslotCmd fun ht => ht.keyslotWait)
theorem State.Canon.trySlots (hs : s.Canon) : OptCanon s.trySlots := .map fun _ => .ite (hs.frame (by rfl)).setKslot ((hs.frame (by rfl)).frame rfl)
theorem State.Canon.tryKeyCmds (hs : s.Canon) : OptCanon s.tryKeyCmds := .map fun _ => (hs.frame (by rfl)).keyslotAct
theorem State.Canon.allocate (hs : s.Canon) : s.allocate.Canon := hs.frame rfl

theorem State.Canon.tryReserved {g} (hs : s.Canon) : OptCanon (s.tryReserved g) :=
  .bind fun _ => .ite (hs.startOp? fun ht => ht.chargeStart.completeWith) (.ite (hs.startOp? fun ht => ht.startComm) .none)

theorem State.Canon.tryPaused (hs : s.Canon) : OptCanon s.tryPaused := .map fun _ => hs.setFld.bumpSeq
theorem State.Canon.tryLost (hs : s.Canon) : OptCanon s.tryLost := .map fun _ => hs.failHead

theorem State.Canon.tryInject (hs : s.Canon) : OptCanon s.tryInject := by
  dsimp only [State.tryInject]
  split
  · exact .some hs.injectHead
  · exact .findSome fun _ => .map fun _ => hs.joinRings.pick.injectHead

theorem State.Canon.advance {r} (hs : s.Canon) : OptCanon (s.advance r) :=
  .ite (.ite .none (.some hs.completeNow)) (.ite (.ite (.some hs.checkOver) .none) (.ite hs.advanceMove hs.advanceSetup))

theorem State.Canon.tryFaultRecs (hs : s.Canon) : OptCanon s.tryFaultRecs := .ite (.some hs.recPump) .none

theorem State.Canon.internal (hs : s.Canon) : OptCanon s.internal :=
  .orElse hs.trySlots <| .orElse (.findSome fun _ => hs.advance) <| .orElse (.findSome fun _ => hs.tryRecord) <|
  .orElse hs.tryFaultRecs <| .orElse hs.tryDeferred <| .orElse hs.tryEndColl <| .orElse hs.tryOldArrival <|
  .orElse hs.tryRecovery <| .orElse hs.tryKeyCmds <| .orElse hs.tryWinWaits <| .orElse hs.tryUnitWaits <|
  .orElse hs.tryPoolWaits <| .orElse hs.tryParks <| .orElse (.findSome fun _ => hs.tryHeld) <|
  .orElse (.findSome fun _ => hs.tryDue) <| .orElse (.findSome fun _ => hs.tryWaitq) <| .orElse hs.tryLost <|
  .orElse hs.tryInject <| .orElse (.findSome fun _ => hs.tryReserved) hs.tryPaused

theorem State.Canon.settleN {n} (hs : s.Canon) : (s.settleN n).Canon := by
  induction n generalizing s with
  | zero => exact hs
  | succ n ih =>
    unfold State.settleN
    split
    · exact hs
    next t ht => exact ih (hs.internal t ht)

theorem State.Canon.noteHolds (hs : s.Canon) : s.noteHolds.Canon :=
  .foldl hs fun ht => .ite ht ht.noteHold

theorem State.Canon.settle (hs : s.Canon) : s.settle.Canon := hs.settleN.noteHolds.allocate

end Sys2Proof.Machine
end

section
/-! PROOFS. Canonical form: routing and links (R287, R408) -/

namespace Sys2Proof.Machine
variable {s : State}

theorem State.Canon.showApex {n} (hs : s.Canon) : (s.showApex n).Canon := by
  dsimp only [State.showApex]
  split
  · exact hs.setFld.setFld
  · exact .ite hs.setFld.setFld hs.setFld.setFld.raise

theorem State.Canon.rowsChanged (hs : s.Canon) : s.rowsChanged.Canon := Canon.frame (.foldl hs fun ht => ht.showApex) rfl
theorem State.Canon.transmit {p e} (hs : s.Canon) : (s.transmit p e).Canon := hs.setPort.emit.freePkt

theorem State.Canon.drainN {n p} (hs : s.Canon) : (s.drainN n p).Canon := by
  induction n generalizing s with
  | zero => exact hs
  | succ n ih =>
    refine .ite ?_ hs
    split
    · exact ih hs.transmit
    · exact hs

theorem State.Canon.drainAtt {p} (hs : s.Canon) : (s.drainAtt p).Canon := by
  refine .foldl hs fun ht => .ite ?_ ht
  split
  next u hu => exact (ht.attachWire u hu).frame rfl
  next => exact ht

theorem State.Canon.drain {p} (hs : s.Canon) : (s.drain p).Canon := hs.drainN.drainAtt
theorem State.Canon.enqueue {p e} (hs : s.Canon) : (s.enqueue p e).Canon := hs.modPort.drain
theorem State.Canon.sendCtl {p src body} (hs : s.Canon) : (s.sendCtl p src body).Canon := hs.enqueue
theorem State.Canon.nextFseq {k} (hs : s.Canon) : (s.nextFseq k).2.Canon := hs.frame rfl
theorem State.Canon.announce {k n ports} (hs : s.Canon) : (s.announce k n ports).Canon := .foldl hs.nextFseq fun ht => ht.sendCtl
theorem State.Canon.noteFseq {k src n} (hs : s.Canon) : (s.noteFseq k src n).Canon := hs.frame rfl

theorem State.Canon.takeNotice {kind h n k} (hs : s.Canon) (hk : ∀ {u}, u.Canon → (k u).Canon) : (s.takeNotice kind h n k).Canon :=
  .ite hs.consume (.ite hs.consume.count (.ite hs.consume (hk hs.consume.noteFseq)))

theorem State.Canon.announceLink {k n v} (hs : s.Canon) : (s.announceLink k n v).Canon := hs.announce

theorem State.Canon.applyLink {p k h n} (hs : s.Canon) : (s.applyLink p k h n).Canon := by
  dsimp only [State.applyLink]
  split
  · exact hs
  · exact .foldl (hs.frame (by rfl)).rowsChanged fun ht => ht.sendCtl

theorem State.Canon.execLinkDownNotice {p h n} (hs : s.Canon) : NextCanon (execLinkDownNotice p h n s) := .next (hs.takeNotice fun ht => ht.applyLink)
theorem State.Canon.execLinkUpNotice {p h n} (hs : s.Canon) : NextCanon (execLinkUpNotice p h n s) := .next (hs.takeNotice fun ht => ht.applyLink)
theorem State.Canon.execLinkReannounce (hs : s.Canon) : NextCanon (execLinkReannounce s) := .next (.ite hs (.foldl hs fun ht => ht.announceLink))

theorem State.Canon.valiantChoice {pkt} (hs : s.Canon) : (s.valiantChoice pkt).2.Canon := by
  dsimp only [State.valiantChoice]
  split
  · exact hs
  · split <;> exact hs.frame rfl

theorem State.Canon.nextHop {x} (hs : s.Canon) : (s.nextHop x).2.Canon := by
  unfold State.nextHop
  extract_lets h h' x' v u
  have hu : u.Canon := .ite_snd hs.valiantChoice hs
  refine .ite_snd hs ?_
  split
  · exact hu
  · split <;> exact hu

theorem State.Canon.hop {x} (hs : s.Canon) : (s.hop x).Canon := by
  unfold State.hop
  split
  · exact hs.enqueue
  · exact hs.frame rfl

theorem State.Canon.escape {x} (hs : s.Canon) : (s.escape x).Canon := hs.hop
theorem State.Canon.routeOn {x} (hs : s.Canon) : (s.routeOn x).Canon := .ite hs.count.freePkt hs.nextHop.hop

theorem State.Canon.execPacketRoute (hs : s.Canon) : NextCanon (execPacketRoute s) := by
  refine .next ?_
  split
  · exact hs
  · exact .ite (hs.frame (by rfl)).freePkt (.ite ((hs.frame (by rfl)).frame rfl) (hs.frame (by rfl)).routeOn)

theorem State.Canon.execEscapeTimeout {p} (hs : s.Canon) : NextCanon (execEscapeTimeout p s) := by
  refine .next ?_
  split
  · exact hs
  · exact .ite hs hs.modPort.escape

theorem State.Canon.updateGauge {n} (hs : s.Canon) : (s.updateGauge n).Canon := .ite hs.setPath hs.setPath
theorem State.Canon.execGaugeUpdate {node} (hs : s.Canon) : NextCanon (execGaugeUpdate node s) := .next (.ite hs hs.updateGauge)
theorem State.Canon.execGaugeIdle {node} (hs : s.Canon) : NextCanon (execGaugeIdle node s) := .next (.ite hs.setPath hs)
theorem State.Canon.sampleOne {p stall} (hs : s.Canon) : (s.sampleOne p stall).Canon := hs.setFld.setFld.setFld.setFld.setReg.setReg.setReg.setPort
theorem State.Canon.execTelemetrySample {stall} (hs : s.Canon) : NextCanon (execTelemetrySample stall s) := .next (.foldl hs fun ht => ht.sampleOne)
theorem State.Canon.zeroCredits {p} (hs : s.Canon) : (s.zeroCredits p).Canon := hs.frame rfl
theorem State.Canon.abortPartial {p} (hs : s.Canon) : (s.abortPartial p).Canon := .ite hs hs.count
theorem State.Canon.setRetrain {p v} (hs : s.Canon) : (s.setRetrain p v).Canon := hs.setFld
theorem State.Canon.setSwatchSc {p v} (hs : s.Canon) : (s.setSwatchSc p v).Canon := hs.setFld
theorem State.Canon.startedDone {p} (hs : s.Canon) : (s.startedDone p).Canon := hs.setRetrain.setSwatchSc

theorem State.Canon.leaveGroups {p} (hs : s.Canon) : (s.leaveGroups p).Canon :=
  .foldl hs fun ht => .ite (ht.setAccel.setFld.frame rfl) ht

theorem State.Canon.portDown {p cause held} (hs : s.Canon) : (s.portDown p cause held).Canon := by
  unfold State.portDown
  extract_lets was u back v w x y n b
  have hx : x.Canon := (hs.abortPartial.modPort.zeroCredits.frame (by rfl)).setFld.setFld.setPstate
  have hy : y.Canon := .ite hx hx.startedDone
  exact .ite hy.leaveGroups (.ite (.ite hy.rowsChanged hy.rowsChanged.announceLink) hy)

theorem State.Canon.attachPortDown {p} (hs : s.Canon) : (s.attachPortDown p).Canon := hs.portDown

theorem State.Canon.fastRetrain {p why cause} (hs : s.Canon) : (s.fastRetrain p why cause).Canon :=
  .ite hs.setPort.portDown hs.abortPartial.setPort.zeroCredits.count.setPstate

theorem State.Canon.disagree {p k diff} (hs : s.Canon) : (s.disagree p k diff).Canon := hs.count.raise.fastRetrain
theorem State.Canon.loseLock {p} (hs : s.Canon) : (s.loseLock p).Canon := .ite hs.fastRetrain hs
theorem State.Canon.execLockLost {p} (hs : s.Canon) : NextCanon (execLockLost p s) := .next hs.loseLock
theorem State.Canon.errorLimit {p} (hs : s.Canon) : (s.errorLimit p).Canon := .ite hs (.ite hs.setPort.portDown hs.setPort.fastRetrain)
theorem State.Canon.execErrorRate {p} (hs : s.Canon) : NextCanon (execErrorRate p s) := .next hs.errorLimit
theorem State.Canon.setLanes {p x} (hs : s.Canon) : (s.setLanes p x).Canon := hs.setFld.setFld

theorem State.Canon.execLaneLos {p lanes} (hs : s.Canon) : NextCanon (execLaneLos p lanes s) := by
  refine .next (.ite hs.setFld ?_)
  split
  · exact hs.setFld.count.raise.setLanes.fastRetrain
  · exact hs.setFld.portDown

theorem State.Canon.startTraining {p} (hs : s.Canon) : (s.startTraining p).Canon := .ite hs.setPstate hs

theorem State.Canon.trainFails {p cause} (hs : s.Canon) : (s.trainFails p cause).Canon :=
  .ite hs.setPort.count.setFld.setPstate.modPort.raise hs.setPort.count.setFld.setPstate

theorem State.Canon.sendIdent {p fast} (hs : s.Canon) : (s.sendIdent p fast).Canon := hs.frame rfl
theorem State.Canon.sendLimits {p} (hs : s.Canon) : (s.sendLimits p).Canon := .foldl hs fun ht => ht.emit
theorem State.Canon.sendSwatch {p phase pass} (hs : s.Canon) : (s.sendSwatch p phase pass).Canon := hs.frame rfl
theorem State.Canon.startSwatch {p} (hs : s.Canon) : (s.startSwatch p).Canon := .ite hs.modPort.setPstate.sendSwatch hs.modPort.setPstate
theorem State.Canon.detected {p signal} (hs : s.Canon) : (s.detected p signal).Canon := .ite hs.setFld.setPstate hs.setFld
theorem State.Canon.lockFound {p found} (hs : s.Canon) : (s.lockFound p found).Canon := hs.modPort.setPstate.sendIdent.sendLimits

theorem State.Canon.execTrainStateDone {found} (hs : s.Canon) : NextCanon (execTrainStateDone found s) :=
  .next (.ite hs.lockFound (.ite hs (.ite hs.detected (.ite hs.setPstate (.ite hs.startSwatch hs)))))

theorem State.Canon.swatchFails {p own partner} (hs : s.Canon) : (s.swatchFails p own partner).Canon := hs.setFld.setSwatchSc.raise.trainFails

theorem State.Canon.execTrainTimeout {p} (hs : s.Canon) : NextCanon (execTrainTimeout p s) := by
  refine .next (.ite ?_ hs)
  split
  · exact hs.swatchFails
  · exact hs.trainFails

theorem State.Canon.execTrainRetry {p} (hs : s.Canon) : NextCanon (execTrainRetry p s) := .next hs.startTraining

theorem State.Canon.showPresent {p} (hs : s.Canon) : (s.showPresent p).Canon :=
  .foldl hs fun ht => .ite ht.setFld ht

theorem State.Canon.comeUp {p} (hs : s.Canon) : (s.comeUp p).Canon :=
  (Canon.ite (hs.modPort.setPstate.startedDone.frame (by rfl)).rowsChanged.announceLink hs.modPort.setPstate.startedDone.showPresent).drain

theorem State.Canon.execTsReady {p} (hs : s.Canon) : NextCanon (execTsReady p s) := by
  refine .next ?_
  split
  · exact .ite hs.comeUp hs
  · exact hs

theorem State.Canon.execFastRetrainEnd {p} (hs : s.Canon) : NextCanon (execFastRetrainEnd p s) := .next (.ite hs.comeUp hs)

theorem State.Canon.joinGroup {p i} (hs : s.Canon) : OptCanon (s.joinGroup p i) := by
  dsimp only [State.joinGroup]
  split
  · exact .ite .none (.ite (.some hs) (.some hs.setAccel.setFld))
  · exact .some hs.setAccel.setFld.setFld.setFld

theorem State.Canon.execTsIdent {p i} (hs : s.Canon) : NextCanon (execTsIdent p i s) := by
  refine .next (.ite hs ?_)
  extract_lets u pass want
  have hu : u.Canon := hs.setFld.setFld
  refine .ite (.ite hu.modPort hu.portDown.raise) ?_
  split
  next t ht => exact (hu.joinGroup t ht).modPort
  next => exact hu.portDown.raise

theorem State.Canon.execTsCredit {p cls a0 a1 e} (hs : s.Canon) : NextCanon (execTsCredit p cls a0 a1 e s) := .next (.ite hs.modPort hs)

theorem State.Canon.chooseSet {p w partner} (hs : s.Canon) : (s.chooseSet p w partner).Canon := by
  dsimp only [State.chooseSet]
  split
  · exact hs.setFld.swatchFails
  · exact .ite hs.setFld.modPort hs.setFld.setFld.setLanes.setSwatchSc.modPort.sendLimits.emit

theorem State.Canon.execSwatchPhase {p m} (hs : s.Canon) : NextCanon (execSwatchPhase p m s) := by
  refine .next ?_
  split
  · exact hs
  · split
    · exact .ite hs.modPort.sendSwatch hs.modPort
    · extract_lets w u
      have hu : u.Canon := hs.modPort.sendSwatch
      split
      · exact hu.chooseSet
      · exact hu
    · exact hs

theorem State.Canon.abortSwatch {p} (hs : s.Canon) : (s.abortSwatch p).Canon := hs.modPort.setFld.setSwatchSc

theorem State.Canon.execTsSwatch {p msg lanePass duration} (hs : s.Canon) : NextCanon (execTsSwatch p msg lanePass duration s) := by
  refine .next ?_
  split
  · exact hs
  next w _ =>
    have ht {w'} : (s.modPort p fun y => { y with sw := some w' }).Canon := hs.modPort
    cases msg with
    | startA => exact .ite (.ite ht ht.sendSwatch) hs
    | startB => exact .ite ht (.ite ht.sendSwatch hs)
    | result => exact .ite ht.chooseSet ht
    | abort => exact hs.abortSwatch.trainFails

theorem State.Canon.execPortLinkEnable {p on} (hs : s.Canon) : NextCanon (execPortLinkEnable p on s) :=
  .next (.ite hs.setFld.startTraining (.ite hs.setFld.startedDone hs.setFld.startedDone.portDown))

theorem State.Canon.execPortRetrain {p} (hs : s.Canon) : NextCanon (execPortRetrain p s) :=
  .next (.ite hs (.ite hs.setRetrain.startTraining hs.setRetrain.portDown))

theorem State.Canon.execPortSwatch {p} (hs : s.Canon) : NextCanon (execPortSwatch p s) :=
  .next (.ite hs (.ite hs.setSwatchSc hs.setSwatchSc.portDown))

theorem State.Canon.execPortHoldDown {p on} (hs : s.Canon) : NextCanon (execPortHoldDown p on s) := by
  unfold Machine.execPortHoldDown
  extract_lets was t u
  have ht : t.Canon := hs.setFld
  have hu : u.Canon := .ite ht.sendSwatch.abortSwatch ht
  exact .next (.ite (.ite hu hu.portDown) (.ite ht.modPort.setPstate.startTraining ht))

theorem State.Canon.execPartnerSignalDetected {p} (hs : s.Canon) : NextCanon (execPartnerSignalDetected p s) :=
  .next (.ite hs.modPort.setPstate.startTraining hs)

theorem State.Canon.creditOne {p e} (hs : s.Canon) : (s.creditOne p e).Canon := .ite hs (.ite hs (.ite hs.disagree hs.setPort))
theorem State.Canon.execCredit {p es} (hs : s.Canon) : NextCanon (execCredit p es s) := .next (Canon.foldl hs fun ht => ht.creditOne).drain
theorem State.Canon.execCreditReportTimer {p} (hs : s.Canon) : NextCanon (execCreditReportTimer p s) := .next (.ite hs.reportPairs hs)
theorem State.Canon.auditOne {p k used} (hs : s.Canon) : (s.auditOne p k used).Canon := .ite hs (.ite hs.disagree (.ite hs hs.setPort.count))

theorem State.Canon.execAudit {p cls usedA0 usedA1 usedE} (hs : s.Canon) : NextCanon (execAudit p cls usedA0 usedA1 usedE s) :=
  .next (.ite (.ite hs.auditOne.auditOne.auditOne.reportPairs hs.auditOne.auditOne.auditOne) hs)

theorem State.Canon.execAuditSend {p} (hs : s.Canon) : NextCanon (execAuditSend p s) := .next (.ite (.foldl hs fun ht => ht.emit) hs)
theorem State.Canon.execKeepalive {p k} (hs : s.Canon) : NextCanon (execKeepalive p k s) := .next (.ite hs.modPort hs)
theorem State.Canon.execKeepaliveSend {p} (hs : s.Canon) : NextCanon (execKeepaliveSend p s) := .next (.ite hs.modPort.emit hs)

theorem State.Canon.execKeepaliveTimeout {p} (hs : s.Canon) : NextCanon (execKeepaliveTimeout p s) := by
  refine .next ?_
  split
  · exact hs.portDown
  · exact .ite hs.portDown hs

theorem State.Canon.dropRx {p head body} (hs : s.Canon) : (s.dropRx p head body).Canon := .ite hs.freeSlots hs

theorem State.Canon.execAbort {p} (hs : s.Canon) : NextCanon (execAbort p s) := by
  refine .next ?_
  split
  · exact hs
  · exact hs.modPort.dropRx.count

end Sys2Proof.Machine
end

section
/-! PROOFS. Canonical form: queues, attached memory and the host link (R287, R408) -/

namespace Sys2Proof.Machine
variable {s : State}

theorem State.Canon.setQueueDesc {f d} (hs : s.Canon) : (s.setQueueDesc f d).Canon := .foldl hs fun ht => ht.setReg
theorem State.Canon.queueCmd {f q op} (hs : s.Canon) : (s.queueCmd f q op).Canon := hs.setFld.setFld.setFld
theorem State.Canon.fillQuery {f g} (hs : s.Canon) : (s.fillQuery f g).Canon := hs.setQueueDesc.setReg.setReg.setReg.setReg.setReg.setReg
theorem State.Canon.queueDone {f res} (hs : s.Canon) : (s.queueDone f res).Canon := hs.setResult

theorem State.Canon.execQueueQuery {f q} (hs : s.Canon) : NextCanon (execQueueQuery f q s) :=
  .next (Canon.ite hs.queueCmd.fillQuery hs.queueCmd).queueDone

theorem State.Canon.execQueueCreate {f q reachable} (hs : s.Canon) : NextCanon (execQueueCreate f q reachable s) :=
  .next (Canon.ite hs.queueCmd.setQueue hs.queueCmd).queueDone

theorem State.Canon.execQueueModify {f q} (hs : s.Canon) : NextCanon (execQueueModify f q s) :=
  .next (Canon.ite hs.queueCmd.modQueue hs.queueCmd).queueDone

theorem State.Canon.execQueueDestroy {f q} (hs : s.Canon) : NextCanon (execQueueDestroy f q s) :=
  .next (Canon.ite hs.queueCmd.setQueue.monUnbind hs.queueCmd).queueDone

theorem State.Canon.bellPi {f g pi} (hs : s.Canon) : (s.bellPi f g pi).Canon := .ite hs.count (.ite hs.count.raise hs.setQueue)
theorem State.Canon.bellCci {f g cci} (hs : s.Canon) : (s.bellCci f g cci).Canon := .ite hs.count (.ite hs.count.raise hs.setQueue)

theorem State.Canon.bell {f q k} (hs : s.Canon) (hk : ∀ {u x1}, u.Canon → (k u x1).Canon) : (s.bell f q k).Canon := by
  unfold State.bell
  split
  · exact hs.count
  · exact .ite hs.count (.ite hs.count (hk hs))

theorem State.Canon.execDbPi {f q pi} (hs : s.Canon) : NextCanon (execDbPi f q pi s) := .next (hs.bell fun ht => ht.bellPi)
theorem State.Canon.execDbCci {f q cci} (hs : s.Canon) : NextCanon (execDbCci f q cci s) := .next (hs.bell fun ht => ht.bellCci).settle
theorem State.Canon.touchRing {g p} (hs : s.Canon) : (s.touchRing g p).Canon := .ite hs (.elim hs fun _ => hs.touchXlate)
theorem State.Canon.parkRing {g va} (hs : s.Canon) : (s.parkRing g va).Canon := .ite hs hs.park

theorem State.Canon.ringRead {g n r k} (hs : s.Canon) : (s.ringRead g n r k).Canon := by
  dsimp only [State.ringRead]
  split
  · exact hs.ringFails
  · exact .ite hs.parkRing hs
  · split
    · exact (Canon.ite hs hs.touchRing.setQueue).settle
    · exact hs.ringFails

theorem State.Canon.execEntryFetch {g r} (hs : s.Canon) : NextCanon (execEntryFetch g r s) := .next (.ite hs.ringRead hs)
theorem State.Canon.execOwnReread {g r} (hs : s.Canon) : NextCanon (execOwnReread g r s) := .next (.ite hs.ringRead hs)

theorem State.Canon.execStaleEntry {g} (hs : s.Canon) : NextCanon (execStaleEntry g s) := by
  refine .next ?_
  split
  · exact .ite hs.setQueue.raise hs
  · exact hs

theorem State.Canon.execRingRetry {g completion r} (hs : s.Canon) : NextCanon (execRingRetry g completion r s) := by
  refine .next (.ite (.ite ?_ hs) (.ite hs.ringRead hs))
  split
  · split
    next t ht => exact Canon.settle (hs.tryRecord t ht)
    next => exact hs
  · exact hs

theorem State.Canon.execCringStall {g} (hs : s.Canon) : NextCanon (execCringStall g s) := .next (.ite hs.setQueue.raise hs)

theorem State.Canon.slotWrite {f c h} (hs : s.Canon) : (s.slotWrite f c h).Canon := by
  unfold State.slotWrite
  split
  · exact hs.count
  · exact hs.setRowc.settle

theorem State.Canon.execCntWrite {f c part v} (hs : s.Canon) : NextCanon (execCntWrite f c part v s) := .next hs.slotWrite
theorem State.Canon.slotReserved {v rsv} (hs : s.Canon) : (s.slotReserved v rsv).Canon := .ite hs hs.count
theorem State.Canon.execCntAdd {f c part v} (hs : s.Canon) : NextCanon (execCntAdd f c part v s) := .next hs.slotReserved.slotWrite
theorem State.Canon.slotMark {f c v} (hs : s.Canon) : (s.slotMark f c v).Canon := .ite hs.slotReserved.count hs.slotReserved.slotWrite
theorem State.Canon.execCntSeterr {f c v} (hs : s.Canon) : NextCanon (execCntSeterr f c v s) := .next hs.slotMark
theorem State.Canon.execCntClrerr {f c v} (hs : s.Canon) : NextCanon (execCntClrerr f c v s) := .next hs.slotMark

theorem State.Canon.bar2Write {f off v} (hs : s.Canon) : (s.bar2Write f off v).Canon := by
  unfold State.bar2Write
  extract_lets run o c high
  have hrun : ∀ {o}, NextCanon o → (run o).Canon := fun ho => ho.after hs
  refine .ite hs.count (.ite (.ite (hrun hs.execDbPi) (.ite (hrun hs.execDbCci) hs.count)) ?_)
  split
  · exact hrun hs.execCntWrite
  · exact hrun hs.execCntWrite
  · exact hrun hs.execCntAdd
  · exact hrun hs.execCntAdd
  · exact hs.slotMark
  · exact .ite hs hs.count

theorem State.Canon.aopDone {a op} (hs : s.Canon) : (s.aopDone a op).Canon := by
  dsimp only [State.aopDone]
  split
  · exact hs.setAccel.setAccel.attachSend
  · exact hs.setAccel

theorem State.Canon.aopFails {a op poison} (hs : s.Canon) : (s.aopFails a op poison).Canon :=
  (Canon.ite hs.aopDone.count.raise hs.aopDone.count).ticketFail

theorem State.Canon.execPlaceRsp {a tag status} (hs : s.Canon) : NextCanon (execPlaceRsp a tag status s) := by
  refine .next ?_
  split
  · exact hs
  · split
    · exact hs.aopDone.ticketPlaced.settle
    · exact hs.aopFails.settle
    · exact hs.aopFails.settle

theorem State.Canon.execArdData {a tag roff bytes status} (hs : s.Canon) : NextCanon (execArdData a tag roff bytes status s) := by
  refine .next ?_
  split
  · exact hs
  · split
    · exact .ite hs.setAccel hs.aopDone.ticketData.settle
    · exact hs.aopFails.settle
    · exact hs.aopFails.settle

theorem State.Canon.atomicAnswered {t old} (hs : s.Canon) : (s.atomicAnswered t old).Canon := by
  dsimp only [State.atomicAnswered]
  split
  · split
    · exact hs
    · split
      · exact (hs.frame (by rfl)).unadmit.respond
      · split
        · exact (hs.frame (by rfl)).unadmit.respond
        · exact (hs.frame (by rfl)).unadmit
  · exact hs

theorem State.Canon.execAatomRsp {a tag old status} (hs : s.Canon) : NextCanon (execAatomRsp a tag old status s) := by
  refine .next ?_
  split
  · exact hs
  · split
    · exact hs.aopDone.atomicAnswered.settle
    · exact hs.aopFails.settle
    · exact hs.aopFails.settle

theorem State.Canon.execDoorbell {a q slotOff v} (hs : s.Canon) : NextCanon (execDoorbell a q slotOff v s) := by
  unfold Machine.execDoorbell
  extract_lets f lo
  have hpi : (s.bell f q.toNat fun s g => s.bellPi f g lo).Canon := hs.bell fun ht => ht.bellPi
  have hcci {t : State} {x} (ht : t.Canon) : (t.bell f q.toNat fun s g => s.bellCci f g x).settle.Canon :=
    (ht.bell fun hu => hu.bellCci).settle
  exact .next (.ite hs.count (.ite (hcci hpi) (.ite hpi (.ite (hcci hs) hs.count))))

theorem State.Canon.execCounter {a cnt op v} (hs : s.Canon) : NextCanon (execCounter a cnt op v s) := by
  refine .next (.ite hs.count ?_)
  split <;> exact hs.slotWrite

theorem State.Canon.execCntRd {a tag cnt} (hs : s.Canon) : NextCanon (execCntRd a tag cnt s) := by
  refine .next ?_
  split
  · exact hs.count.attachSend
  · exact hs.attachSend

theorem State.Canon.serveLrd {a tag addr len key} (hs : s.Canon) : (s.serveLrd a tag addr len key).Canon := .ite (hs.frame rfl) hs.attachSend

theorem State.Canon.execLrd {a tag addr len key} (hs : s.Canon) : NextCanon (execLrd a tag addr len key s) := by
  refine .next ?_
  split
  · exact hs.attachSend
  · exact hs.serveLrd

theorem State.Canon.execLwr {a tag addr key payload} (hs : s.Canon) : NextCanon (execLwr a tag addr key payload s) := by
  refine .next ?_
  split
  · exact hs.attachSend
  · exact .ite hs.poolWrite.ticketPlaced hs.poolWrite

theorem State.Canon.serveLatom {a tag addr key cas size operand swap} (hs : s.Canon) : (s.serveLatom a tag addr key cas size operand swap).Canon :=
  .ite (hs.snoopRange.frame rfl) hs.poolAtomic.attachSend

theorem State.Canon.execLatom {a tag addr key cas size operand swap} (hs : s.Canon) :
    NextCanon (execLatom a tag addr key cas size operand swap s) := by
  refine .next ?_
  split
  · exact hs.attachSend
  · exact .ite hs.attachSend hs.serveLatom

theorem State.Canon.attachAcked {a base map} (hs : s.Canon) : (s.attachAcked a base map).Canon := .foldl hs.setAccel fun ht => ht.attachSend

theorem State.Canon.execAttachMessage {i} (hs : s.Canon) : NextCanon (Machine.execAttachMessage i s) := by
  unfold Machine.execAttachMessage
  split
  · exact hs.execPlaceRsp
  · exact hs.execArdData
  · exact hs.execAatomRsp
  · exact hs.execDoorbell
  · exact hs.execCounter
  · exact hs.execCntRd
  · exact hs.execLrd
  · exact hs.execLwr
  · exact hs.execLatom
  · exact .next hs

theorem State.Canon.afterMessage {i} (hs : s.Canon) : (s.afterMessage i).Canon := hs.execAttachMessage.after hs

theorem State.Canon.retryLatoms (hs : s.Canon) : s.retryLatoms.Canon := by
  refine .foldl hs fun ht => ?_
  split
  · exact .ite ht (ht.frame (by rfl)).serveLatom
  · exact .ite ht (ht.frame (by rfl)).serveLrd
  · exact ht

theorem State.Canon.attachArrive {a psn lup i} (hs : s.Canon) : (s.attachArrive a psn lup i).Canon := by
  refine .ite hs.setAccel.count (.ite hs.setAccel.count.emit ?_)
  extract_lets u
  have hu : u.Canon := hs.setAccel.emit
  split
  · exact hu.afterMessage
  · exact hu

theorem State.Canon.execRequest {h r payload} (hs : s.Canon) : NextCanon (execRequest h r payload s) :=
  .next (.ite hs.noteBorrow (hs.consume.arrive fun ht => ht.takeReq).settle)

theorem State.Canon.execResponse {h r payload} (hs : s.Canon) : NextCanon (execResponse h r payload s) := by
  refine .next (State.Canon.settle (hs.consume.arrive fun {u} hu => ?_))
  have ht : (u.takeResponse h r payload).Canon := hu.takeResponse
  exact .ite (ht.frame rfl) ht.delivered

theorem State.Canon.answerPlacement {p r} (hs : s.Canon) : (s.answerPlacement p r).Canon :=
  (Canon.ite hs (.ite hs.signalCounter hs.applyWrite)).respond

theorem State.Canon.execPlacementAnswer {src psn} (hs : s.Canon) : NextCanon (execPlacementAnswer src psn s) := by
  refine .next ?_
  split
  · exact hs
  · refine .ite ?_ hs
    split
    · exact (hs.frame (by rfl)).answerPlacement.settle
    · exact hs

theorem State.Canon.execContextFetchDone {src psn} (hs : s.Canon) : NextCanon (execContextFetchDone src psn s) := by
  refine .next (.ite (State.Canon.settle (.foldl hs fun ht => ht.touchHalf)) ?_)
  split
  · exact hs
  · split
    · exact .ite hs.noteBorrow (hs.frame (by rfl)).acceptReq.settle
    · exact hs

theorem State.Canon.execDeliveryAck {h a} (hs : s.Canon) : NextCanon (execDeliveryAck h a s) := by
  unfold Machine.execDeliveryAck
  extract_lets t src u v
  have ht : t.Canon := hs.consume
  have hu : u.Canon := .foldl ht fun hw => hw.ackOne
  have hv : v.Canon := .ite hu hu.ackOne
  exact .next (.ite ht (.ite ht.count hv.modPath.settle))

theorem State.Canon.execAckTimer {node} (hs : s.Canon) : NextCanon (execAckTimer node s) := .next hs.flushAcks

theorem State.Canon.execE2eRetransmit {node psn} (hs : s.Canon) : NextCanon (execE2eRetransmit node psn s) := by
  refine .next ?_
  split
  · exact hs
  next x _ =>
    have hover {st} : (s.packetOver node.toNat x st 0).settle.Canon := hs.packetOver.settle
    exact .ite hs (.ite hover (.ite (.ite hs.retransmit hover) (State.Canon.retransmit (.ite hs.modPath.raise hs))))

theorem State.Canon.execE2eRespAbandon {node psn} (hs : s.Canon) : NextCanon (execE2eRespAbandon node psn s) := .next (.ite hs hs.setPath.count)
theorem State.Canon.cacheXlate {x} (hs : s.Canon) : (s.cacheXlate x).Canon := hs.frame rfl

theorem State.Canon.execTranslationAnswer {f pasid pg ans} (hs : s.Canon) : NextCanon (execTranslationAnswer f pasid pg ans s) := by
  refine .next ?_
  cases ans with
  | translation =>
    exact State.Canon.settle (.foldl (.ite hs hs.cacheXlate) fun ht => .ite ht.pageOrFail ht.resumePark)
  | noTranslation => exact State.Canon.settle (.foldl hs fun ht => ht.pageOrFail)
  | error => exact State.Canon.settle (.foldl hs fun ht => ht.failPark)

theorem State.Canon.execPrgResponse {f pasid pg code} (hs : s.Canon) : NextCanon (execPrgResponse f pasid pg code s) := by
  refine .next ?_
  cases code with
  | success => exact State.Canon.settle (.foldl hs fun ht => ht.setPark)
  | invalidRequest => exact State.Canon.settle (.foldl hs fun ht => ht.failPark)
  | responseFailure => exact State.Canon.settle (.foldl hs.setFunc fun ht => ht.failPark)

theorem State.Canon.execPriTimeout {f pasid pg} (hs : s.Canon) : NextCanon (execPriTimeout f pasid pg s) :=
  .next (Canon.foldl hs fun ht => ht.failPark).settle

theorem State.Canon.execAtsInvalidate {f pasid pg log2 itag} (hs : s.Canon) : NextCanon (execAtsInvalidate f pasid pg log2 itag s) :=
  .next (.ite (hs.count.frame (by rfl)).emit ((hs.count.frame (by rfl)).frame rfl))

theorem State.Canon.execHostReadCompletion {tag bytes} (hs : s.Canon) : NextCanon (execHostReadCompletion tag bytes s) := by
  refine .next ?_
  split
  · exact hs
  · exact hs.readEnded.ticketData.settle

theorem State.Canon.execHostReadError {tag why} (hs : s.Canon) : NextCanon (execHostReadError tag why s) := by
  refine .next ?_
  split
  · exact hs
  · exact hs.readEnded.count.ticketFail.settle

theorem State.Canon.setDirEmpty (hs : s.Canon) : s.setDirEmpty.Canon := hs.setFld

theorem State.Canon.winLine {line bs u} (hs : s.Canon) (h : s.winLine line = some (bs, u)) : u.Canon := by
  unfold State.winLine at h
  split at h
  · obtain ⟨-, rfl⟩ := Prod.mk.inj (Option.some.inj h)
    exact hs
  · split at h
    · obtain ⟨-, rfl⟩ := Prod.mk.inj (Option.some.inj h)
      exact hs
    · obtain ⟨-, rfl⟩ := Prod.mk.inj (Option.some.inj h)
      exact hs.drawBytes.frame rfl
  · nomatch h

theorem State.Canon.winRead {line} (hs : s.Canon) : (s.winRead line).Canon := by
  unfold State.winRead
  split
  · exact hs.count.emit
  next bs u hu => exact Canon.setDirEmpty (Canon.frame (Canon.emit (Canon.count (hs.winLine hu))) rfl)

theorem State.Canon.winWrite {line bs} (hs : s.Canon) : (s.winWrite line bs).Canon := by
  dsimp only [State.winWrite]
  split
  · exact .ite hs.pwrite (hs.frame rfl)
  · exact hs.frame rfl

theorem State.Canon.winStoreLine {line bytes} (hs : s.Canon) : (s.winStoreLine line bytes).Canon := .ite hs.count hs.count.winWrite

theorem State.Canon.takeWindow {i} (hs : s.Canon) : (s.takeWindow i).Canon := by
  unfold State.takeWindow
  split
  · exact .ite (hs.frame rfl) hs.winRead
  · exact .ite (hs.frame rfl) hs.winStoreLine
  · exact hs

theorem State.Canon.execWindowRead {line} (hs : s.Canon) : NextCanon (execWindowRead line s) := .next (.ite hs.takeWindow hs)
theorem State.Canon.execWindowWrite {line bytes} (hs : s.Canon) : NextCanon (execWindowWrite line bytes s) := .next (.ite hs.takeWindow hs)
theorem State.Canon.winRelease (hs : s.Canon) : s.winRelease.Canon := .foldl (hs.frame rfl) fun ht => ht.takeWindow

theorem State.Canon.execBirsp {line dirty} (hs : s.Canon) : NextCanon (execBirsp line dirty s) := by
  refine .next (.ite ?_ hs)
  extract_lets u v w
  have hu : u.Canon := .elim hs fun _ => hs.winWrite
  have hw : w.Canon := (hu.frame (by rfl)).setDirEmpty
  exact Canon.retryLatoms (Canon.settle (.ite hw.setFld hw))

theorem State.Canon.execHostWinFlush (hs : s.Canon) : NextCanon (execHostWinFlush s) :=
  .next (.ite hs.setFld (.foldl hs.setFld fun ht => ht.emit.count))

theorem State.Canon.execHdmDecoderCommit (hs : s.Canon) : NextCanon (execHdmDecoderCommit s) := .next hs.setFld
theorem State.Canon.execH2dSnoop {addr} (hs : s.Canon) : NextCanon (execH2dSnoop addr s) := .next hs.emit

theorem State.Canon.execHostDlogEnable {f on} (hs : s.Canon) : NextCanon (execHostDlogEnable f on s) :=
  .next (.ite hs.setFld.setReg.setFunc hs.setFld)

theorem State.Canon.execHostDlogRound {f} (hs : s.Canon) : NextCanon (execHostDlogRound f s) := .next hs.setFunc

theorem State.Canon.execHostDlogPause {f on} (hs : s.Canon) : NextCanon (execHostDlogPause f on s) :=
  .next (.ite hs.setFld.settle hs.setFld.setFld.settle)

theorem State.Canon.execHostRetrain {rateChange rate width} (hs : s.Canon) : NextCanon (execHostRetrain rateChange rate width s) :=
  .next hs.setFld.setFld.setFld.setFld.bumpSeq.count.settle

theorem State.Canon.execBusMasterClear {f} (hs : s.Canon) : NextCanon (execBusMasterClear f s) := .next hs.setFunc
theorem State.Canon.execBusMasterEnableSet {f} (hs : s.Canon) : NextCanon (execBusMasterEnableSet f s) := .next (.ite hs hs.setFunc.settle)

theorem State.Canon.execHostLinkUp {rate width} (hs : s.Canon) : NextCanon (execHostLinkUp rate width s) :=
  .next (.ite hs (.foldl hs.setFld.setFld.setFld.setFld fun ht => ht.setFunc))

end Sys2Proof.Machine
end

section
/-! PROOFS. Canonical form: keys, resets and recovery (R287, R408) -/

namespace Sys2Proof.Machine
variable {s : State}

theorem State.Canon.setKeyDesc {f d} (hs : s.Canon) : (s.setKeyDesc f d).Canon := .foldl hs fun ht => ht.setReg
theorem State.Canon.freeKey {idx} (hs : s.Canon) : (s.freeKey idx).Canon := hs.frame rfl
theorem State.Canon.keyDone {f res st} (hs : s.Canon) : (s.keyDone f res st).Canon := hs.setFld.setFld.setResult
theorem State.Canon.keyCmd {f op k} (hs : s.Canon) (hk : ∀ {u}, u.Canon → (k u).Canon) : (s.keyCmd f op k).Canon := .ite hs.count (hk hs.setFld)
theorem State.Canon.makeKey {f idx d} (hs : s.Canon) : (s.makeKey f idx d).Canon := hs.frame rfl

theorem State.Canon.registerKey {f d} (hs : s.Canon) : (s.registerKey f d).Canon := by
  dsimp only [State.registerKey]
  split
  · exact hs.makeKey.setReg.keyDone
  · exact hs.keyDone

theorem State.Canon.execKeyQuery {f} (hs : s.Canon) : NextCanon (execKeyQuery f s) := by
  refine .next (hs.keyCmd fun ht => ?_)
  split
  · exact ht.keyDone
  · exact ht.setKeyDesc.keyDone

theorem State.Canon.execKeyRegister {f} (hs : s.Canon) : NextCanon (execKeyRegister f s) :=
  .next (hs.keyCmd fun ht => .ite ht.setFld.setFunc ht.registerKey)

theorem State.Canon.poolComesReady (hs : s.Canon) : s.poolComesReady.Canon := by
  refine .ite hs (.foldl hs.setFld.bumpSeq fun ht => ?_)
  split
  · exact ht.setFld.setFunc.registerKey
  · exact ht

theorem State.Canon.revokeKey {i} (hs : s.Canon) : (s.revokeKey i).Canon := hs.frame rfl

theorem State.Canon.execKeyRevoke {f} (hs : s.Canon) : NextCanon (execKeyRevoke f s) := by
  refine .next (hs.keyCmd fun ht => ?_)
  split
  · exact ht.keyDone
  · exact .ite ht.revokeKey.keyDone ht.keyDone

theorem State.Canon.execKeyRelease {f} (hs : s.Canon) : NextCanon (execKeyRelease f s) := by
  refine .next (hs.keyCmd fun ht => ?_)
  split
  · exact ht.keyDone
  · split
    · exact ht.freeKey.keyDone
    · exact ht.keyDone
    · exact ht.keyDone

theorem State.Canon.execKeyDrained {index} (hs : s.Canon) : NextCanon (execKeyDrained index s) := .next (.ite (.ite hs.freeKey hs.setKey) hs)

theorem State.Canon.revokeWhere {p} (hs : s.Canon) : (s.revokeWhere p).Canon :=
  .foldl hs fun ht => .ite ht.setKey ht.setKey.freeKey

theorem State.Canon.endWrite {g r} (hs : s.Canon) : (s.endWrite g r).Canon := .ite hs.setQueue.awr hs.setQueue.hostWriteAll
theorem State.Canon.orphanTxns {g} (hs : s.Canon) : (s.orphanTxns g).Canon := hs.frame rfl
theorem State.Canon.dropTickets {g} (hs : s.Canon) : (s.dropTickets g).Canon := hs.frame rfl

theorem State.Canon.endQueue {g st host} (hs : s.Canon) : (s.endQueue g st host).Canon :=
  (Canon.foldl (hs.frame (by rfl)).orphanTxns.dropTickets.modQueue fun ht => ht.endWrite).count

theorem State.Canon.dropHost {f} (hs : s.Canon) : (s.dropHost f).Canon := hs.frame rfl

theorem State.Canon.resetFunction {f cause st host revoke} (hs : s.Canon) : (s.resetFunction f cause st host revoke).Canon := by
  unfold State.resetFunction
  extract_lets a told qs ended emptied zeroed revoked regs fields t
  have htold : told.Canon := .ite hs.setFld hs.setFld.setFld.bumpSeq
  have hended : ended.Canon := .foldl htold.dropHost.dropRecs.dropRecs fun ht => ht.endQueue
  have hemptied : emptied.Canon := .foldl hended fun ht => ht.setQueue
  have hzeroed : zeroed.Canon := .foldl hemptied fun ht => ht.setRowc
  have hregs : regs.Canon := .foldl hzeroed.revokeWhere fun ht => ht.setReg
  exact hregs.setReg.setFld.setFld.dropRecs.dropRecs.setFunc

theorem State.Canon.bindOff {cause} (hs : s.Canon) : (s.bindOff cause).Canon := by
  dsimp only [State.bindOff]
  split
  · exact hs
  · split
    · exact (Canon.foldl hs.setFld.setFld.bumpSeq.setFld.bumpSeq fun ht => ht.emit.emit.emit.emit).emit
    · exact .foldl (Canon.foldl hs.setFld.setFld.bumpSeq.setFld.bumpSeq fun ht => ht.emit.emit.emit.emit).emit.raise fun ht => ht.endQueue

theorem State.Canon.execBindOffSquelch (hs : s.Canon) : NextCanon (execBindOffSquelch s) :=
  .next (.ite (.foldl hs fun ht => .ite ht.modPort ht.portDown) hs)

theorem State.Canon.loseAccel {a} (hs : s.Canon) : (s.loseAccel a).Canon := by
  unfold State.loseAccel
  extract_lets b group t u ops v w x y
  have hw : w.Canon := hs.setFld.setFld.setFld.count.raise.revokeWhere.setAccel.frame rfl
  have hx : x.Canon := .foldl hw fun hz => by
    split
    · exact hz.completeWith
    · exact hz
  have hy : y.Canon := .foldl hx fun hz => by
    split
    · exact hz.count
    · exact hz.ticketFail
  exact .foldl hy fun hz => hz.endQueue.setQueue

theorem State.Canon.execAttachRetransmit {a psn} (hs : s.Canon) : NextCanon (execAttachRetransmit a psn s) := by
  refine .next ?_
  split
  · exact hs
  · exact .ite hs.setAccel.count.attachXmit (Canon.foldl hs fun ht => ht.attachPortDown).loseAccel.settle

theorem State.Canon.execAccelLost {a} (hs : s.Canon) : NextCanon (execAccelLost a s) := .next (.ite hs.loseAccel.settle hs)

theorem State.Canon.sendFrog {j number comm except} (hs : s.Canon) : (s.sendFrog j number comm except).Canon :=
  .foldl (hs.frame rfl) fun ht => ht.sendCtl

theorem State.Canon.dropVotes {j number} (hs : s.Canon) : (s.dropVotes j number).Canon := hs.frame rfl

theorem State.Canon.frogCause {j cause comm num} (hs : s.Canon) : (s.frogCause j cause comm num).Canon := by
  unfold State.frogCause
  extract_lets job flood claimant
  have hflood : ∀ {t n}, t.Canon → (flood t n).Canon := fun ht => .ite ht ht.sendFrog
  refine .ite hs.setJob ?_
  split
  · refine .ite hs.dropVotes.setJob (.ite ?_ (.ite hs (hflood hs.dropVotes.setJob)))
    split
    · exact .ite hs hs.setJob
    · exact hs.setJob
  · exact .ite hs (.ite (hflood hs.setJob.frogRuns.raise)
      (.ite (.ite (hflood (hs.frame (by rfl)).setJob) (hs.frame (by rfl)).setJob) (.ite (hflood hs.setJob) hs.setJob)))

theorem State.Canon.floodClaim {comm rank cgen} (hs : s.Canon) : (s.floodClaim comm rank cgen).Canon := hs.announce

theorem State.Canon.setRank {comm rank h} (hs : s.Canon) : (s.setRank comm rank h).Canon := by
  dsimp only [State.setRank]
  split
  · exact hs
  · exact hs.setComm

theorem State.Canon.abandon {comm rank} (hs : s.Canon) : (s.abandon comm rank).Canon := hs.setRank.raise

theorem State.Canon.claimRank {j comm rank g} (hs : s.Canon) : (s.claimRank j comm rank g).Canon := by
  dsimp only [State.claimRank]
  split
  · exact hs.abandon
  · exact (hs.setRank.count.frame (by rfl)).floodClaim

theorem State.Canon.makeClaims {j} (hs : s.Canon) : (s.makeClaims j).Canon := by
  dsimp only [State.makeClaims]
  split
  · exact hs
  · split
    · exact hs
    · exact (Canon.ite (Canon.foldl hs fun ht => ht.claimRank).setJob (.foldl hs fun ht => ht.claimRank)).showClaiming

theorem State.Canon.releaseXfers {comm rank} (hs : s.Canon) : (s.releaseXfers comm rank).Canon :=
  .foldl hs fun ht => by
    split
    · exact ht
    · split
      · exact (ht.frame (by rfl)).sendXfer
      · exact ht

theorem State.Canon.applyClaim {comm rank subject g} (hs : s.Canon) : (s.applyClaim comm rank subject g).Canon := by
  unfold State.applyClaim
  split
  · exact hs
  · split
    · exact hs
    · refine .ite ?_ hs
      extract_lets mine u _ v w
      have hv : v.Canon := .ite hs.setRank.setJob hs.setRank
      have hw : w.Canon := .ite (hv.frame (by rfl)).count.makeClaims.showClaiming hv
      exact hw.releaseXfers

theorem State.Canon.dropToward {n} (hs : s.Canon) : (s.dropToward n).Canon := Canon.frame (.foldl hs fun ht => ht.packetOver) rfl

theorem State.Canon.actLost {n} (hs : s.Canon) : (s.actLost n).Canon := by
  dsimp only [State.actLost]
  split
  · exact hs
  · split
    · exact hs.bindOff
    · exact .foldl (.foldl (hs.frame (by rfl)).count.rowsChanged.dropToward fun ht => ht.frogCause) fun ht => ht.makeClaims

theorem State.Canon.declareLost {n reason} (hs : s.Canon) : (s.declareLost n reason).Canon := .ite hs hs.announce.actLost.settle

theorem State.Canon.execDeadConfirm {x} (hs : s.Canon) : NextCanon (execDeadConfirm x s) := by
  refine .next ?_
  split
  · exact hs
  · exact .ite hs.declareLost hs

theorem State.Canon.forwardNotice {p k h n} (hs : s.Canon) : (s.forwardNotice p k h n).Canon := .foldl hs fun ht => ht.sendCtl

theorem State.Canon.execDeadNode {p h n} (hs : s.Canon) : NextCanon (execDeadNode p h n s) :=
  .next (hs.takeNotice fun ht => .ite ht ht.forwardNotice.actLost.settle)

theorem State.Canon.execRankClaim {p h n} (hs : s.Canon) : NextCanon (execRankClaim p h n s) :=
  .next (hs.takeNotice fun ht => ht.forwardNotice.applyClaim.settle)

theorem State.Canon.execClaimSettle {job shard units} (hs : s.Canon) : NextCanon (execClaimSettle job shard units s) :=
  .next (hs.setJob.frame (by rfl)).settle

theorem State.Canon.execRankAbandoned {comm rank} (hs : s.Canon) : NextCanon (execRankAbandoned comm rank s) := by
  refine .next ?_
  split
  · exact hs
  · split
    · exact hs
    · exact .ite hs.abandon.settle hs

theorem State.Canon.takeFrog {p h c} (hs : s.Canon) : (s.takeFrog p h c).Canon := by
  unfold State.takeFrog
  extract_lets comm n j t u
  have ht : t.Canon := hs.frame rfl
  have hu : u.Canon := .foldl ht fun hv => hv.sendCtl
  refine .ite hs (.ite ht ?_)
  split
  · exact hu
  · extract_lets _ v _ w
    have hv : v.Canon := .ite hu.setJob hu
    have hw : w.Canon := by
      dsimp only [w]
      split
      · exact .ite hv.setJob hv
      · exact hv
    exact hw.frogCause

theorem State.Canon.execFrogRequest {p h c} (hs : s.Canon) : NextCanon (execFrogRequest p h c s) :=
  .next (.ite hs.consume (.ite hs.consume.count hs.consume.takeFrog.settle))

theorem State.Canon.execFrogVoteWait {job} (hs : s.Canon) : NextCanon (execFrogVoteWait job s) := by
  refine .next ?_
  split
  · exact .ite hs.frogDone.settle hs
  · exact hs

theorem State.Canon.undo {j} (hs : s.Canon) : (s.undo j).Canon := .foldl hs fun ht => ht.pwrite.count

theorem State.Canon.frogRestore {comm rank t} (hs : s.Canon) : (s.frogRestore comm rank t).Canon := by
  dsimp only [State.frogRestore]
  split
  · exact hs
  · split
    · split
      · exact hs.undo.clearBitmap.putJournal.completeWith
      · exact hs.undo.clearBitmap.putJournal
    · split
      · exact hs.commitStep
      · split
        · exact hs.putJournal.completeWith
        · exact hs.putJournal

theorem State.Canon.needRestore {comm} (hs : s.Canon) : (s.needRestore comm).Canon := by
  dsimp only [State.needRestore]
  split
  · exact hs
  · exact .foldl hs fun ht => ht.raise

theorem State.Canon.rebuildLines {comm rank} (hs : s.Canon) : (s.rebuildLines comm rank).Canon := by
  unfold State.rebuildLines
  extract_lets ls grp t u
  have ht : t.Canon := hs.frame rfl
  have hu : u.Canon := .ite (.foldl ht fun hv => hv.drawBytes.engineWrite) ht
  exact .ite hs hu.winRelease

theorem State.Canon.snoopLines {ls} (hs : s.Canon) : (s.snoopLines ls).Canon := .foldl hs fun ht => ht.emit.count

theorem State.Canon.execFrogRestoreDone {job} (hs : s.Canon) : NextCanon (execFrogRestoreDone job s) := by
  unfold Machine.execFrogRestoreDone
  refine .next ?_
  split
  · split
    · extract_lets t u v again w _ x
      have hw : w.Canon := hs.frogRestore.needRestore.rebuildLines.frogDone
      have hx : x.Canon := .ite hw.setJob.frogCause hw
      exact .ite hs.snoopLines hx.settle.retryLatoms
    · exact hs
  · exact hs

theorem State.Canon.execUnitSaveDone {comm unit} (hs : s.Canon) : NextCanon (execUnitSaveDone comm unit s) := by
  refine .next ?_
  split
  · exact hs
  · exact .ite hs (.ite hs.snoopLines hs.saveUnit.settle.retryLatoms)

theorem State.Canon.takeDarning {h r payload} (hs : s.Canon) : (s.takeDarning h r payload).Canon :=
  .ite (hs.failOutcome id) (.ite (hs.failOutcome id) (hs.frame (by rfl)).outcome)

theorem State.Canon.execDarningRead {h r} (hs : s.Canon) : NextCanon (execDarningRead h r s) :=
  .next (hs.consume.arrive fun ht => ht.takeDarning).settle

theorem State.Canon.finishClaim {x} (hs : s.Canon) : (s.finishClaim x).Canon := by
  unfold State.finishClaim
  extract_lets j jm _ jr t u g v _ w
  have hu : u.Canon := .ite hs.clearBitmap.putJournal.recreateKeys hs
  have hw : w.Canon := hu.setRank.setComm.frame rfl
  exact hw.floodClaim.releaseXfers.showClaiming

theorem State.Canon.frogAfter {j comm} (hs : s.Canon) : (s.frogAfter j comm).Canon := .ite hs.setJob.frogCause hs

theorem State.Canon.execDarningDone {job} (hs : s.Canon) : NextCanon (execDarningDone job s) :=
  .next (.ite (Canon.foldl hs fun ht => ht.finishClaim).frogAfter.settle hs)

theorem State.Canon.execAccountingSweep {found} (hs : s.Canon) : NextCanon (execAccountingSweep found s) := by
  refine .next ?_
  split
  · exact hs.count
  · exact hs.count.count.raise
  · exact hs.count.bindOff

theorem State.Canon.jobCmd {f op k} (hs : s.Canon) (hk : ∀ {u}, u.Canon → (k u).Canon) : (s.jobCmd f op k).Canon := .ite hs.count (hk hs.setFld)
theorem State.Canon.jobDone {f res} (hs : s.Canon) : (s.jobDone f res).Canon := hs.setFld.setResult

theorem State.Canon.execJobFrog {f} (hs : s.Canon) : NextCanon (execJobFrog f s) := by
  refine .next (hs.jobCmd fun ht => ?_)
  split
  · exact ht.jobDone
  · exact ht.frogCause.jobDone.settle

theorem State.Canon.setStep {h c step} (hs : s.Canon) : (s.setStep h c step).Canon := hs.setJob.clearBitmap.putJournal

theorem State.Canon.execJobSetStep {f} (hs : s.Canon) : NextCanon (execJobSetStep f s) := by
  refine .next (hs.jobCmd fun ht => ?_)
  split
  · exact ht.jobDone
  · exact .ite ht.jobDone (.ite ht.jobDone ht.setStep.jobDone)

theorem State.Canon.execFailRetire {f code} (hs : s.Canon) : NextCanon (execFailRetire f code s) := .next (.ite hs.bindOff hs.count)

theorem State.Canon.emptySlots {f} (hs : s.Canon) : (s.emptySlots f).Canon := by
  unfold State.emptySlots
  extract_lets
  exact hs.setFld.frame rfl

theorem State.Canon.frogFunction {f} (hs : s.Canon) : (s.frogFunction f).Canon :=
  .ite hs (.foldl_snd (hs.frame rfl) fun ht => .ite_snd ht ht.frogCause)

theorem State.Canon.functionReset {f cause host} (hs : s.Canon) : (s.functionReset f cause host).Canon := hs.resetFunction.emptySlots.frogFunction

theorem State.Canon.execFlr {f} (hs : s.Canon) : NextCanon (execFlr f s) :=
  .next (Canon.ite (Canon.foldl hs fun ht => ht.functionReset).functionReset hs.functionReset).settle

theorem State.Canon.execVfEnableClear (hs : s.Canon) : NextCanon (execVfEnableClear s) :=
  .next (Canon.foldl hs fun ht => ht.functionReset.setFunc).settle

theorem State.Canon.execD3hotToD0 {f} (hs : s.Canon) : NextCanon (execD3hotToD0 f s) := .next hs.functionReset.settle
theorem State.Canon.crossingFlush (hs : s.Canon) : s.crossingFlush.Canon := hs.frame rfl

theorem State.Canon.clearHostDomain (hs : s.Canon) : s.clearHostDomain.Canon := by
  unfold State.clearHostDomain
  extract_lets t u
  have ht : t.Canon := hs.frame rfl
  have hu : u.Canon := .foldl ht fun hv => hv.setFld.setReg.setFunc
  exact hu.setFld.setFld.setDirEmpty

theorem State.Canon.hostDomainReset {cause st} (hs : s.Canon) : (s.hostDomainReset cause st).Canon := by
  unfold State.hostDomainReset
  exact .foldl (State.Canon.clearHostDomain (.foldl hs.crossingFlush fun ht => ht.resetFunction.emptySlots)) fun ht => ht.frogFunction

theorem State.Canon.execCxlReset (hs : s.Canon) : NextCanon (execCxlReset s) := .next hs.setFld.bumpSeq.hostDomainReset.settle.retryLatoms

theorem State.Canon.execHostLinkDown {ev} (hs : s.Canon) : NextCanon (execHostLinkDown ev s) :=
  .next (Canon.foldl hs.setFld.setFld.setFld.setFld.bumpSeq.count.hostDomainReset fun ht => ht.setFunc).settle.retryLatoms

theorem State.Canon.execFuncResetCmd {f} (hs : s.Canon) : NextCanon (execFuncResetCmd f s) :=
  .next (.ite hs.setFld.setFld.functionReset.settle hs.count)

theorem State.Canon.execFuncResetEnd {f} (hs : s.Canon) : NextCanon (execFuncResetEnd f s) :=
  .next (.ite (Canon.ite hs.setFld.bumpSeq.setFld hs.setFld.bumpSeq).settle hs)

end Sys2Proof.Machine
end

section
/-! PROOFS. Canonical form: security, bringup and codewords (R287, R408) -/

namespace Sys2Proof.Machine
variable {s : State}

theorem State.Canon.extendMr {i d} (hs : s.Canon) : (s.extendMr i d).Canon := hs.frame rfl

theorem State.Canon.bootSlot {readable b} (hs : s.Canon) : (s.bootSlot readable b).2.Canon :=
  .ite_snd (Canon.extendMr (.foldl hs.extendMr fun ht => ht.extendMr)) hs.extendMr.setFld.count

theorem State.Canon.deriveKeys (hs : s.Canon) : s.deriveKeys.Canon := hs.frame rfl
theorem State.Canon.booted {b} (hs : s.Canon) : (s.booted b).Canon := .foldl (hs.deriveKeys.frame (by rfl)).setFld fun ht => ht.setReg
theorem State.Canon.enterRecovery (hs : s.Canon) : s.enterRecovery.Canon := .foldl hs.deriveKeys.setFld.setFld.bumpSeq fun ht => ht.modPort.setPstate

theorem State.Canon.romBoot {r} (hs : s.Canon) : (s.romBoot r).2.Canon :=
  .ite_snd hs.setFld.extendMr.enterRecovery
    (.ite_snd hs.setFld.bootSlot.booted (.ite_snd hs.setFld.bootSlot.bootSlot.booted hs.setFld.bootSlot.bootSlot.enterRecovery))

theorem State.Canon.secAttest {nonce len ok} (hs : s.Canon) : (s.secAttest nonce len ok).2.2.Canon := by
  unfold State.secAttest
  split <;> exact hs

theorem State.Canon.secCerts {len ok} (hs : s.Canon) : (s.secCerts len ok).2.2.Canon := by
  unfold State.secCerts
  split
  · exact hs
  · split <;> exact hs

theorem State.Canon.secExtend {mr d} (hs : s.Canon) : (s.secExtend mr d).2.2.Canon := by
  unfold State.secExtend
  split
  · exact hs
  · split
    · exact hs.extendMr
    · exact hs

theorem State.Canon.writeSlot {img} (hs : s.Canon) : (s.writeSlot img).Canon := hs.frame rfl
theorem State.Canon.secUpdate {img ok} (hs : s.Canon) : (s.secUpdate img ok).2.2.Canon := .ite_snd_snd hs (.ite_snd_snd hs.writeSlot hs.setFld)

theorem State.Canon.secAdvance (hs : s.Canon) : (s.secAdvance).2.2.Canon := by
  unfold State.secAdvance
  split
  · exact hs
  · split
    · exact (hs.frame (by rfl)).setFld
    · exact hs

theorem State.Canon.secCmd {op k} (hs : s.Canon) (hk : ∀ {u}, u.Canon → (k u).2.2.Canon) : (s.secCmd op k).Canon := by
  refine .ite hs.count ?_
  extract_lets r
  have hr : r.2.2.Canon := hk hs.setFld
  exact Canon.setResult (.ite hr hr.emit)

theorem State.Canon.execAttest {bufferOk} (hs : s.Canon) : NextCanon (execAttest bufferOk s) := .next (hs.secCmd fun ht => ht.secAttest)
theorem State.Canon.execCerts {bufferOk} (hs : s.Canon) : NextCanon (execCerts bufferOk s) := .next (hs.secCmd fun ht => ht.secCerts)
theorem State.Canon.execExtend {mr} (hs : s.Canon) : NextCanon (execExtend mr s) := .next (hs.secCmd fun ht => ht.setFld.secExtend)
theorem State.Canon.execUpdate {image bufferOk} (hs : s.Canon) : NextCanon (execUpdate image bufferOk s) := .next (hs.secCmd fun ht => ht.secUpdate)
theorem State.Canon.execAdvanceSvn (hs : s.Canon) : NextCanon (execAdvanceSvn s) := .next (hs.secCmd fun ht => ht.secAdvance)
theorem State.Canon.coldState : s.coldState.Canon := Canon.reset.frame rfl
theorem State.Canon.keepFilters {old : State} (hs : s.Canon) : (s.keepFilters old).Canon := .foldl hs fun hu => hu.setReg

theorem State.Canon.powerUp {old : State} {cause} (hs : s.Canon) : (s.powerUp old cause).Canon := by
  unfold State.powerUp
  extract_lets u v w x
  have hu : u.Canon := .ite hs.keepFilters hs
  exact (hu.setReg.setFld.frame (by rfl)).setFld.setFld.setReg.setFld

theorem State.Canon.coldReset {cause boot} (_ : s.Canon) : (s.coldReset cause boot).Canon :=
  .ite Canon.coldState.powerUp.romBoot.setFld.bumpSeq.setFld.bumpSeq Canon.coldState.powerUp.romBoot

theorem State.Canon.execColdReset {cause boot} (hs : s.Canon) : NextCanon (execColdReset cause boot s) := .next hs.coldReset
theorem State.Canon.execNodeResetN {boot} (hs : s.Canon) : NextCanon (execNodeResetN boot s) := .next (.ite hs hs.coldReset)
theorem State.Canon.execPoolReady (hs : s.Canon) : NextCanon (execPoolReady s) := .next (.ite hs hs.poolComesReady.winRelease.settle)

theorem State.Canon.execCastOnSend (hs : s.Canon) : NextCanon (execCastOnSend s) :=
  .next (.ite (Canon.frame (.foldl hs fun ht => ht.sendCtl) rfl).setFld.bumpSeq hs)

theorem State.Canon.freshPath {x} (hs : s.Canon) : (s.freshPath x).Canon := hs.dropToward.modPath.setPath

theorem State.Canon.actCastOn {x} (hs : s.Canon) : (s.actCastOn x).Canon := by
  unfold State.actCastOn
  extract_lets u
  have hu : u.Canon := .foldl hs fun ht => ht.frame rfl
  exact (hu.frame (by rfl)).freshPath.rowsChanged

theorem State.Canon.execCastOn {p h n} (hs : s.Canon) : NextCanon (execCastOn p h n s) :=
  .next (.ite hs.consume hs.consume.noteFseq.actCastOn.forwardNotice.settle)

theorem State.Canon.dieDown {n} (hs : s.Canon) : (s.dieDown n).Canon :=
  .foldl hs fun ht => .ite ht ht.portDown

theorem State.Canon.execPllLockLoss {lost} (hs : s.Canon) : NextCanon (Machine.execPllLockLoss lost s) := by
  unfold Machine.execPllLockLoss
  extract_lets u
  have hu : u.Canon := hs.count
  split
  · exact .next hu.setFld.bindOff
  · exact .next (.ite hu.setFld.dieDown hu)
  · split
    · exact hu.setFld.execHostLinkDown
    · exact .next hu.setFld
  · exact .next hu.setFld.bindOff

theorem State.Canon.execPllLockReturn {die} (hs : s.Canon) : NextCanon (execPllLockReturn die s) :=
  .next (.ite (.foldl hs.setFld fun ht => ht.startTraining) hs)

theorem State.Canon.execWatchdogExpire (hs : s.Canon) : NextCanon (execWatchdogExpire s) := .next hs.bindOff
theorem State.Canon.after {o} (hs : s.Canon) (ho : NextCanon o) : (s.after o).Canon := ho.after hs
theorem State.Canon.slotIn {p h} (hs : s.Canon) : (s.slotIn p h).Canon := hs.frame rfl
theorem State.Canon.rxDiscard {p x} (hs : s.Canon) : (s.rxDiscard p x).Canon := hs.dropRx

theorem State.Canon.attachPacket {p x} (hs : s.Canon) : (s.attachPacket p x).Canon := by
  dsimp only [State.attachPacket]
  split
  · exact hs.rxDiscard
  · split
    · exact hs.rxDiscard.attachAcked
    · split
      · exact hs.rxDiscard.count
      · exact hs.rxDiscard.attachArrive

theorem State.Canon.fabricPacket {p h b payload x} (hs : s.Canon) : (s.fabricPacket p h b payload x).Canon :=
  .ite (hs.frame rfl) (.ite hs.rxDiscard.count (.ite (hs.frame rfl) (hs.frame rfl)))

theorem State.Canon.poison {x} (hs : s.Canon) : (s.poison x).Canon := by
  dsimp only [State.poison]
  split
  · exact .ite hs.nextHop.transmit.emit hs.freePkt
  · exact hs.freePkt

theorem State.Canon.crcFails {p x} (hs : s.Canon) : (s.crcFails p x).Canon := by
  dsimp only [State.crcFails]
  split
  · split
    · split
      · exact (hs.count.frame (by rfl)).poison
      · exact (hs.count.frame (by rfl)).freePkt
    · exact hs.count.rxDiscard
  · exact hs.count.rxDiscard

theorem State.Canon.release {p} (hs : s.Canon) : (s.release p).Canon := by
  dsimp only [State.release]
  split
  · exact hs
  · split
    · exact hs.modPort.rxDiscard.count
    · split
      · exact hs.modPort.crcFails
      · split
        · exact hs.modPort.attachPacket
        · split
          · exact hs.modPort.rxDiscard.count
          · exact hs.modPort.fabricPacket

theorem State.Canon.complete1 {p x} (hs : s.Canon) : (s.complete1 p x).Canon := hs.frame rfl

theorem State.Canon.abortRx {p} (hs : s.Canon) : (s.abortRx p).Canon := by
  dsimp only [State.abortRx]
  split
  · refine (Canon.rxDiscard ?_).count
    split
    · exact hs.modPort.rxDiscard.count
    · exact hs.modPort
  · split
    · exact hs.modPort.rxDiscard.count
    · exact hs.modPort

theorem State.Canon.bindOffHeard {p node} (hs : s.Canon) : (s.bindOffHeard p node).Canon :=
  .ite (Canon.ite hs.setFld.modPort hs.portDown).declareLost (.ite hs.setFld.modPort hs.portDown)

theorem State.Canon.execBindOffSymbol {p node cause} (hs : s.Canon) : NextCanon (execBindOffSymbol p node cause s) :=
  .next (.ite hs.count hs.bindOffHeard)

theorem State.Canon.symbolIn {p b} (hs : s.Canon) : (s.symbolIn p b).Canon := by
  dsimp only [State.symbolIn]
  split
  · exact hs.count
  · split
    · exact hs
    · exact hs.after hs.execCredit
    · exact hs.after hs.execKeepalive
    · exact hs.after hs.execAudit
    · exact hs.after hs.execBindOffSymbol
    · exact hs
    · exact hs.after hs.execTsIdent
    · exact hs.after hs.execTsCredit
    · split
      · exact hs.after hs.execTsSwatch
      · exact hs.after hs.execTsSwatch
      · exact hs.after hs.execTsSwatch
      · exact hs.after hs.execTsSwatch
      · exact hs
    · exact hs.after hs.execTsReady
    · exact hs.count

theorem State.Canon.slot {p x} (hs : s.Canon) : (s.slot p x).Canon := by
  dsimp only [State.slot]
  split
  · exact hs.release
  · exact .foldl (.ite (hs.after hs.execAbort) hs.release) fun ht => ht.symbolIn
  · split
    · exact hs.release
    · refine (Canon.slotIn ?_).complete1
      split
      · exact hs.release.modPort.rxDiscard.count
      · exact hs.release
  · split
    · exact hs.release
    · exact hs.release.slotIn.complete1

theorem State.Canon.badCodeword {p} (hs : s.Canon) : (s.badCodeword p).Canon := .ite hs.setPort.loseLock (.ite hs.setPort.errorLimit hs.setPort)

theorem State.Canon.useCodeword {p n slots} (hs : s.Canon) : (s.useCodeword p n slots).Canon :=
  .ite (.ite hs.count hs.count.count.count) (.foldl (.ite hs.count hs.count.count.count) fun ht => ht.slot)

theorem State.Canon.codeword {p r} (hs : s.Canon) : (s.codeword p r).Canon := by
  dsimp only [State.codeword]
  split
  · exact hs.modPort
  · split
    · exact hs.count.count.abortRx.badCodeword
    · exact hs.count.modPort.useCodeword

theorem State.Canon.execCodewordRx {p cw} (hs : s.Canon) : NextCanon (execCodewordRx p cw s) := .next (.ite hs hs.modPort.codeword)

end Sys2Proof.Machine
end

section
/-! PROOFS. Canonical form: collective messages, commits and the tier (R287, R408) -/

namespace Sys2Proof.Machine
variable {s : State}

theorem State.Canon.startCollective {g op} (hs : s.Canon) : (s.startCollective g op).Canon := (hs.startOp fun ht => ht.startColl).settle
theorem State.Canon.execRdsc {g} (hs : s.Canon) : NextCanon (execRdsc g s) := .next hs.startCollective
theorem State.Canon.execAgth {g} (hs : s.Canon) : NextCanon (execAgth g s) := .next hs.startCollective
theorem State.Canon.execAred {g} (hs : s.Canon) : NextCanon (execAred g s) := .next hs.startCollective
theorem State.Canon.execA2a {g} (hs : s.Canon) : NextCanon (execA2a g s) := .next hs.startCollective
theorem State.Canon.execA2av {g} (hs : s.Canon) : NextCanon (execA2av g s) := .next hs.startCollective
theorem State.Canon.execDisp {g} (hs : s.Canon) : NextCanon (execDisp g s) := .next hs.startCollective
theorem State.Canon.execComb {g} (hs : s.Canon) : NextCanon (execComb g s) := .next hs.startCollective
theorem State.Canon.execRug {g} (hs : s.Canon) : NextCanon (execRug g s) := .next hs.startCollective
theorem State.Canon.execSnap {g} (hs : s.Canon) : NextCanon (execSnap g s) := .next (hs.startOp fun ht => ht.startSnap).settle
theorem State.Canon.execPers {g} (hs : s.Canon) : NextCanon (execPers g s) := .next (hs.startOp fun ht => ht.startPers).settle
theorem State.Canon.execDigest {g} (hs : s.Canon) : NextCanon (execDigest g s) := .next (hs.startOp fun ht => ht.startDigest).settle
theorem State.Canon.execTag {g upset} (hs : s.Canon) : NextCanon (execTag g upset s) := .next (hs.startOp fun ht => ht.startTag).settle
theorem State.Canon.execUprog {g} (hs : s.Canon) : NextCanon (execUprog g s) := .next (hs.startOp fun ht => ht.startUprog).settle

theorem State.Canon.startCommAction {g act} (hs : s.Canon) : (s.startCommAction g act).Canon := by
  unfold State.startCommAction
  split
  · exact .ite (hs.startOp fun ht => ht.startComm).settle hs
  · exact hs

theorem State.Canon.execCommCreate {g} (hs : s.Canon) : NextCanon (execCommCreate g s) := .next hs.startCommAction
theorem State.Canon.execCommReplace {g} (hs : s.Canon) : NextCanon (execCommReplace g s) := .next hs.startCommAction
theorem State.Canon.execCommDestroy {g} (hs : s.Canon) : NextCanon (execCommDestroy g s) := .next hs.startCommAction

theorem State.Canon.takePkt {pkt} (hs : s.Canon) : (s.takePkt pkt).2.Canon := by
  unfold State.takePkt
  split
  · exact hs.frame rfl
  · exact hs

theorem State.Canon.takeColl {h kind c payload k} (hs : s.Canon) (hk : ∀ {u x}, u.Canon → (k u x).Canon) :
    (s.takeColl h kind c payload k).Canon := by
  unfold State.takeColl
  extract_lets t x u
  have hu : u.Canon := hs.takePkt
  exact .ite hu.freePkt (.ite hu.count.freePkt
    (.ite (Canon.settle (hu.arrive fun ht => hk (.ite ht ht.delivered))) (Canon.freePkt (hu.arrive id))))

theorem State.Canon.knownHandle {h c x k} (hs : s.Canon) (hk : ∀ {u}, u.Canon → (k u).Canon) : (s.knownHandle h c x k).Canon := by
  dsimp only [State.knownHandle]
  split
  · exact hs.sendColl.freePkt
  · split
    · exact hk hs
    · split
      · exact hs.count.freePkt
      · exact (hs.count.freePkt.frame (by rfl)).raise

theorem State.Canon.takeTransfer {h kind c payload} (hs : s.Canon) : (s.takeTransfer h kind c payload).Canon :=
  hs.takeColl fun ht => ht.knownHandle fun hu => hu.storePacket

theorem State.Canon.execContrib {h c payload} (hs : s.Canon) : NextCanon (execContrib h c payload s) := .next hs.takeTransfer
theorem State.Canon.execResult {h c payload} (hs : s.Canon) : NextCanon (execResult h c payload s) := .next hs.takeTransfer
theorem State.Canon.execData {h c payload} (hs : s.Canon) : NextCanon (execData h c payload s) := .next hs.takeTransfer
theorem State.Canon.execCount {h c payload} (hs : s.Canon) : NextCanon (execCount h c payload s) := .next hs.takeTransfer
theorem State.Canon.execGrant {h c payload} (hs : s.Canon) : NextCanon (execGrant h c payload s) := .next hs.takeTransfer

theorem State.Canon.takeAnswer {h kind c k} (hs : s.Canon) (hk : ∀ {u}, u.Canon → (k u).Canon) : (s.takeAnswer h kind c k).Canon :=
  hs.takeColl fun ht => ht.knownHandle fun hu => hk hu.freePkt

theorem State.Canon.peerAcked {c result} (hs : s.Canon) : (s.peerAcked c result).Canon := by
  dsimp only [State.peerAcked]
  split
  · exact hs.frame rfl
  · exact (hs.frame (by rfl)).ackTicket

theorem State.Canon.sendLoss {dst tag c} (hs : s.Canon) : (s.sendLoss dst tag c).Canon := hs.escape

theorem State.Canon.loseChunk {comm cseq op chunk kin from_} (hs : s.Canon) : (s.loseChunk comm cseq op chunk kin from_).Canon := by
  unfold State.loseChunk
  extract_lets e u rank _ f to_ v w
  have hu : u.Canon := hs.frame rfl
  have hv : v.Canon := .ite hu (.foldl hu fun ht => ht.sendLoss)
  have hw : w.Canon := by
    dsimp only [w]
    split
    · exact .ite hv hv.completeWith
    · exact hv
  refine .ite hs ?_
  split
  · exact hw.frogCause
  · exact hw

theorem State.Canon.tryAgain {x p} (hs : s.Canon) : (s.tryAgain x p).Canon := by
  dsimp only [State.tryAgain]
  split
  · exact hs.loseChunk
  · split
    · exact hs.frame rfl
    · exact (hs.frame (by rfl)).count.sendXfer

theorem State.Canon.resendNamed {c result} (hs : s.Canon) : (s.resendNamed c result).Canon := by
  unfold State.resendNamed
  split
  · exact hs
  · split
    · exact hs.tryAgain
    · exact hs

theorem State.Canon.takeMap {c} (hs : s.Canon) : (s.takeMap c).Canon := by
  unfold State.takeMap
  extract_lets comm own ahead t silent
  have ht : t.Canon := .ite (hs.frame rfl) hs
  exact .ite ht (.elim ht fun _ => ht.tellMap)

theorem State.Canon.takeNak {c} (hs : s.Canon) : (s.takeNak c).Canon := .ite hs.takeMap (.ite hs.resendNamed (.ite (hs.frame rfl) hs))
theorem State.Canon.execAcceptAck {h c} (hs : s.Canon) : NextCanon (execAcceptAck h c s) := .next (hs.takeAnswer fun ht => ht.peerAcked)
theorem State.Canon.execResultAck {h c} (hs : s.Canon) : NextCanon (execResultAck h c s) := .next (hs.takeAnswer fun ht => ht.peerAcked)
theorem State.Canon.execNak {h c} (hs : s.Canon) : NextCanon (execNak h c s) := .next (hs.takeAnswer fun ht => ht.takeNak)
theorem State.Canon.execResendReq {h c} (hs : s.Canon) : NextCanon (execResendReq h c s) := .next (hs.takeAnswer fun ht => ht.resendNamed)
theorem State.Canon.holdPeers {p node held} (hs : s.Canon) : (s.holdPeers p node held).Canon := hs.frame rfl
theorem State.Canon.execNotReady {h c} (hs : s.Canon) : NextCanon (execNotReady h c s) := .next (hs.takeColl fun ht => ht.freePkt.holdPeers)

theorem State.Canon.execNotReadyRetry {comm node} (hs : s.Canon) : NextCanon (execNotReadyRetry comm node s) :=
  .next (Canon.foldl hs fun ht => ht.holdPeers.sendXfer).settle

theorem State.Canon.execHandleTimeout {comm node} (hs : s.Canon) : NextCanon (execHandleTimeout comm node s) := by
  refine .next (Canon.settle (.foldl hs fun {t} q ht => ?_))
  extract_lets u
  have hu : u.Canon := ht.frame rfl
  split
  · exact hu.completeWith
  · exact hu

theorem State.Canon.execChunkLoss {p h c} (hs : s.Canon) : NextCanon (execChunkLoss p h c s) := by
  unfold Machine.execChunkLoss
  extract_lets t
  have ht : t.2.Canon := hs.takePkt
  exact .next (.ite ht.freePkt (.ite ht.freePkt.count (.ite ht.freePkt.takeFrog.settle
    (ht.knownHandle fun hu => hu.freePkt.loseChunk).settle)))

theorem State.Canon.execSlotGrant (hs : s.Canon) : NextCanon (execSlotGrant s) := .next hs.slotGrant.settle
theorem State.Canon.execSlotFinish {slot} (hs : s.Canon) : NextCanon (execSlotFinish slot s) := .next hs.slotFinish.settle

theorem State.Canon.execQueueSched {f} (hs : s.Canon) : NextCanon (execQueueSched f s) := by
  refine .next (.ite hs.count ?_)
  split
  · exact hs.setFld.setResult
  · exact .ite hs.setFld.setResult hs.setQueue.setFld.setResult.settle

theorem State.Canon.execTokenBucketRefill {b bytes} (hs : s.Canon) : NextCanon (execTokenBucketRefill b bytes s) := by
  refine .next ?_
  split
  · exact hs.modPath.settle
  · exact hs.setFunc.settle
  · exact hs.modQueue.settle

theorem State.Canon.execSampleEnable {f on} (hs : s.Canon) : NextCanon (execSampleEnable f on s) :=
  .next (.ite (.ite hs.count hs.dropRecs.setFld.setReg.setFunc) hs.setRecs.setFld)

theorem State.Canon.sampleAll {f snum gs} (hs : s.Canon) : (s.sampleAll f snum gs).Canon := by
  induction gs generalizing s with
  | nil => exact hs
  | cons g gs ih => exact .ite hs.setFld.bumpSeq.count (ih hs.recPush)

theorem State.Canon.execSamplePeriod {f} (hs : s.Canon) : NextCanon (execSamplePeriod f s) := .next (.ite hs.setFunc.sampleAll hs)

theorem State.Canon.execFaultqEnable {f on} (hs : s.Canon) : NextCanon (execFaultqEnable f on s) :=
  .next (.ite (.ite hs.count hs.dropRecs.setFld.setReg.setFunc) (.foldl hs.setRecs.setFld fun ht => ht.faultLost))

theorem State.Canon.candidate (hs : s.Canon) : s.candidate.Canon := .foldl hs fun ht => ht.setReg
theorem State.Canon.commitStatus {res blk} (hs : s.Canon) : (s.commitStatus res blk).Canon := hs.setFld.setFld.bumpSeq

theorem State.Canon.commitRoute {old : State} (hs : s.Canon) : (s.commitRoute old).Canon := by
  unfold State.commitRoute
  extract_lets staged t u v
  have hu : u.Canon := .ite (.ite hs.extendMr.setFld.bumpSeq hs.extendMr) hs
  have hv : v.Canon := .ite (hu.frame rfl) hu
  exact hv.rowsChanged

theorem State.Canon.commitStore {old : State} (hs : s.Canon) : (s.commitStore old).Canon := .ite hs (hs.frame rfl)
theorem State.Canon.commitShaper {old : State} {f} (hs : s.Canon) : (s.commitShaper old f).Canon := .ite hs.setFunc hs
theorem State.Canon.commitSlots {old : State} {f} (hs : s.Canon) : (s.commitSlots old f).Canon := hs.frame rfl

theorem State.Canon.commitFunc {old : State} {f} (hs : s.Canon) : (s.commitFunc old f).Canon :=
  (Canon.foldl hs fun hu => hu.setRowc).commitSlots.commitShaper

theorem State.Canon.commitApply {t} (ht : t.Canon) : (s.commitApply t).Canon := by
  unfold State.commitApply
  extract_lets u v w x
  have hu : u.Canon := ht.frame rfl
  have hv : v.Canon := hu.setFld.commitStatus
  have hw : w.Canon := .ite hv.commitRoute hv
  exact .foldl hw.commitStore fun hy => hy.commitFunc

theorem State.Canon.blockStatus {bs} (hs : s.Canon) : (s.blockStatus bs).Canon := .foldl hs fun ht => ht.setFld.setFld.bumpSeq

theorem State.Canon.commit (hs : s.Canon) : s.commit.Canon := by
  dsimp only [State.commit]
  split
  · exact hs.blockStatus.count.commitStatus
  · exact hs.candidate.commitApply.blockStatus.settle

theorem State.Canon.commitWrite {gen k} (hs : s.Canon) (hk : ∀ {u}, u.Canon → (k u).Canon) : (s.commitWrite gen k).Canon :=
  .ite hs.count (.ite hs.count.commitStatus (hk hs))

theorem State.Canon.execGlobalCommit {gen} (hs : s.Canon) : NextCanon (execGlobalCommit gen s) := .next (hs.commitWrite fun ht => ht.commit)

theorem State.Canon.execGlobalDiscard {gen} (hs : s.Canon) : NextCanon (execGlobalDiscard gen s) :=
  .next (hs.commitWrite fun ht => (ht.frame (by rfl)).commitStatus)

theorem State.Canon.showGov (hs : s.Canon) : s.showGov.Canon := hs.setFld.setFld
theorem State.Canon.media {n} (hs : s.Canon) : (s.media n).Canon := hs.frame rfl

theorem State.Canon.execPersDurable {obj} (hs : s.Canon) : NextCanon (execPersDurable obj s) := by
  refine .next (.ite hs ?_)
  split
  · exact hs
  · split
    · exact hs
    · extract_lets u v w
      have hw : w.Canon := (hs.setTobj.frame (by rfl)).media.showGov
      split
      · exact hw.complete.settle
      · exact hw

theorem State.Canon.execGovernorTick {now24hMedia now24hHost} (hs : s.Canon) : NextCanon (execGovernorTick now24hMedia now24hHost s) := by
  unfold Machine.execGovernorTick
  extract_lets now age left rate t
  have ht : t.Canon := .ite hs.count hs
  exact .next (ht.frame (by rfl)).showGov

theorem State.Canon.execRetentionScan {block refresh} (hs : s.Canon) : NextCanon (execRetentionScan block refresh s) :=
  .next (.ite hs.count.media hs)

theorem State.Canon.loseVersion {f obj} (hs : s.Canon) : (s.loseVersion f obj).Canon := by
  unfold State.loseVersion
  split
  · exact hs
  · split
    · exact hs
    · exact hs.setTobj.count.raise

theorem State.Canon.execNandBlockFail {block page availGib} (hs : s.Canon) : NextCanon (execNandBlockFail block page availGib s) := by
  unfold Machine.execNandBlockFail
  extract_lets t u v
  have hu : u.Canon := hs.count.setFld
  have hv : v.Canon := by
    cases page with
    | staged => exact hu
    | rebuilt => exact hu.count
    | lost => exact hu.loseVersion
  exact .next (.ite hv.setFld.raise hv)

theorem State.Canon.nvCmd {f op k} (hs : s.Canon) (hk : ∀ {u}, u.Canon → (k u).Canon) : (s.nvCmd f op k).Canon :=
  .ite hs.count (.ite (hk hs.setFld) hs.setFld.setFld)

theorem State.Canon.nvDone {f res} (hs : s.Canon) : (s.nvDone f res).Canon := hs.setFld.setResult

theorem State.Canon.nvQueryAct {f} (hs : s.Canon) : (s.nvQueryAct f).Canon := by
  unfold State.nvQueryAct
  split
  · exact hs.nvDone
  · exact hs.setReg64.setReg64.nvDone

theorem State.Canon.execNvQuery {f} (hs : s.Canon) : NextCanon (execNvQuery f s) := .next (hs.nvCmd fun ht => ht.nvQueryAct)

theorem State.Canon.nvRestore {f v} (hs : s.Canon) : (s.nvRestore f v).Canon := by
  dsimp only [State.nvRestore]
  split
  · exact .foldl (hs.frame (by rfl)).setFld fun ht => ht.originate
  · exact hs.setReg64.nvDone

theorem State.Canon.nvRestoreAct {f} (hs : s.Canon) : (s.nvRestoreAct f).Canon := by
  dsimp only [State.nvRestoreAct]
  split
  · exact hs.nvDone
  · exact .ite hs.nvDone hs.nvRestore.settle

theorem State.Canon.execNvRestore {f} (hs : s.Canon) : NextCanon (execNvRestore f s) := .next (hs.nvCmd fun ht => ht.nvRestoreAct)

theorem State.Canon.nvDeleteAct {f} (hs : s.Canon) : (s.nvDeleteAct f).Canon := by
  unfold State.nvDeleteAct
  split
  · exact hs.nvDone
  · exact .ite hs.nvDone (.ite hs.nvDone hs.setTobj.nvDone)

theorem State.Canon.execNvDelete {f} (hs : s.Canon) : NextCanon (execNvDelete f s) := .next (hs.nvCmd fun ht => ht.nvDeleteAct)

theorem State.Canon.execNvReady (hs : s.Canon) : NextCanon (execNvReady s) :=
  .next (.ite hs (State.Canon.settle (.foldl hs.setFld.bumpSeq fun ht =>
    .ite (.ite ht.setFld.nvQueryAct (.ite ht.setFld.nvRestoreAct ht.setFld.nvDeleteAct)) ht)))

theorem State.Canon.dropTransit {psn src} (hs : s.Canon) : (s.dropTransit psn src).Canon := by
  dsimp only [State.dropTransit]
  split
  · exact (hs.frame (by rfl)).freePkt
  · exact (hs.frame (by rfl)).freePkt
  · exact (hs.frame (by rfl)).freePkt
  · split
    · exact hs
    · exact .foldl hs.modPort fun ht => ht.freePkt

theorem State.Canon.rebuildPut {node x} (hs : s.Canon) : (s.rebuildPut node x).Canon := by
  dsimp only [State.rebuildPut]
  split
  · exact hs
  · split
    · exact hs
    · exact .ite hs.modPath.readOpnd.ticketData hs.modPath.readOpnd

theorem State.Canon.cellLost {use} (hs : s.Canon) : (s.cellLost use).Canon := by
  unfold State.cellLost
  split
  · exact hs.dropTransit.count
  · exact .elim hs fun _ => hs.rebuildPut.settle
  · exact .ite hs (.ite hs.bindOff hs.count)
  · exact hs.modPath.forgetPsn
  · split
    · exact hs.loseChunk.settle
    · exact hs
  · exact (hs.frame (by rfl)).forgetPsn
  · exact .ite hs.bindOff hs.count
  · exact hs
  · exact hs.frame rfl

theorem State.Canon.execStoreSweep {found} (hs : s.Canon) : NextCanon (execStoreSweep found s) := by
  refine .next ?_
  split
  · exact hs
  · exact hs.count
  · exact hs.count.cellLost

theorem State.Canon.loseLine {off} (hs : s.Canon) : (s.loseLine off).Canon := .ite hs (hs.frame rfl)

theorem State.Canon.execPoolScrub {off found} (hs : s.Canon) : NextCanon (execPoolScrub off found s) := by
  unfold Machine.execPoolScrub
  extract_lets u v
  have hu : u.Canon := .ite hs.count hs
  refine .next ?_
  split
  · exact hu
  · exact hu.count
  · split
    · split
      · exact hu.count.loseLine.frogCause.settle
      · exact hu.count
    · exact .ite hu.count hu.count.bindOff

end Sys2Proof.Machine
end

section
/-! PROOFS. Canonical form: registers, management, Pliok and power (R287, R408) -/

namespace Sys2Proof.Machine
variable {s : State}

theorem State.Canon.execCntSnap {f} (hs : s.Canon) : NextCanon (execCntSnap f s) := .next (hs.frame (by rfl)).setFld

theorem State.Canon.execCntFreeze {on} (hs : s.Canon) : NextCanon (execCntFreeze on s) :=
  .next (.ite (.ite hs.setFld.setFld (hs.setFld.setFld.frame rfl)) (hs.setFld.frame rfl))

theorem State.Canon.execFreezeExpire (hs : s.Canon) : NextCanon (execFreezeExpire s) := .next (.ite (hs.setFld.setFld.frame rfl) hs)
theorem State.Canon.noteReserved {a v m} (hs : s.Canon) : (s.noteReserved a v m).Canon := .ite hs hs.count

theorem State.Canon.seqWrite {a v} (hs : s.Canon) : (s.seqWrite a v).Canon := by
  unfold State.seqWrite
  split
  · exact hs
  · exact .ite hs.setReg hs

theorem State.Canon.execStatusSeqWrite {f addr v} (hs : s.Canon) : NextCanon (execStatusSeqWrite f addr v s) :=
  .next (.ite hs.noteReserved.seqWrite hs)

theorem State.Canon.execRstCtl {f code} (hs : s.Canon) : NextCanon (execRstCtl f code s) := .next (.ite hs.coldReset hs.count)

theorem State.Canon.execMgtKeyLoad (hs : s.Canon) : NextCanon (execMgtKeyLoad s) := by
  unfold Machine.execMgtKeyLoad
  extract_lets _ t
  have ht : t.Canon := hs.frame rfl
  exact .next (State.Canon.setFld (.foldl ht fun hu => hu.setReg))

theorem State.Canon.execMgtKeyErase (hs : s.Canon) : NextCanon (execMgtKeyErase s) := .next (hs.frame (by rfl)).setFld

theorem State.Canon.plainWrite {a v m} (hs : s.Canon) : (s.plainWrite a v m).Canon :=
  (Canon.ite hs.noteReserved (hs.noteReserved.frame (by rfl))).setReg

theorem State.Canon.guardedWrite {a v m prot c} (hs : s.Canon) : (s.guardedWrite a v m prot c).Canon := .ite hs.plainWrite hs.plainWrite.count

theorem State.Canon.commandWrite {f a v m k} (hs : s.Canon) (hk : ∀ {u}, u.Canon → (k u).Canon) : (s.commandWrite f a v m k).Canon :=
  .ite hs.count (.ite (hk hs.plainWrite) hs.plainWrite)

theorem State.Canon.queueGo {s' : State} {f} (hs : s'.Canon) : (s.queueGo f s').Canon := by
  dsimp only [State.queueGo]
  split
  · exact hs.after hs.execQueueQuery
  · exact hs.after hs.execQueueCreate
  · exact hs.after hs.execQueueModify
  · exact hs.after hs.execQueueDestroy
  · exact hs.queueDone

theorem State.Canon.keyGo {f} (hs : s.Canon) : (s.keyGo f).Canon := by
  unfold State.keyGo
  split
  · exact hs.after hs.execKeyQuery
  · exact hs.after hs.execKeyRegister
  · exact hs.after hs.execKeyRevoke
  · exact hs.after hs.execKeyRelease
  · exact hs.keyDone

theorem State.Canon.jobGo {f} (hs : s.Canon) : (s.jobGo f).Canon := by
  unfold State.jobGo
  split
  · exact hs.after hs.execJobFrog
  · exact hs.after hs.execJobSetStep
  · exact hs.jobDone

theorem State.Canon.nvGo {f} (hs : s.Canon) : (s.nvGo f).Canon := by
  unfold State.nvGo
  split
  · exact hs.after hs.execNvQuery
  · exact hs.after hs.execNvRestore
  · exact hs.after hs.execNvDelete
  · exact hs.nvDone

theorem State.Canon.keyslotGo {f} (hs : s.Canon) : (s.keyslotGo f).Canon := by
  unfold State.keyslotGo
  split
  · exact hs.after hs.execKeyslotQuery
  · exact hs.after hs.execKeyslotLoad
  · exact hs.after hs.execKeyslotClear
  · exact hs.keyslotDone

theorem State.Canon.monWrite {f mon o a v m} (hs : s.Canon) : (s.monWrite f mon o a v m).Canon := by
  dsimp only [State.monWrite]
  split
  · exact .ite hs.count (.ite hs.plainWrite (.ite hs.count (hs.plainWrite.after hs.plainWrite.execMonEnable)))
  · exact .ite hs.count (.ite hs.plainWrite.setFld hs.plainWrite)

theorem State.Canon.recCtlWrite {f a v m bad enable} (hs : s.Canon) (hk : ∀ {x0 u1}, u1.Canon → (enable x0 u1).Canon) :
    (s.recCtlWrite f a v m bad enable).Canon := by
  unfold State.recCtlWrite
  extract_lets t
  have ht : t.Canon := .ite hs.guardedWrite hs.plainWrite
  exact .ite hs.count (.ite (hk ht) ht)

theorem State.Canon.operandWrite {f o a v m} (hs : s.Canon) : (s.operandWrite f o a v m).Canon := .ite hs.count hs.plainWrite

theorem State.Canon.pageWrite {f o a v m} (hs : s.Canon) : (s.pageWrite f o a v m).Canon := by
  have ht : (s.plainWrite a v m).Canon := hs.plainWrite
  refine .ite (hs.commandWrite .queueGo) (.ite (hs.commandWrite fun hu => hu.after hu.execQueueSched) (.ite (hs.commandWrite .keyGo)
    (.ite (hs.commandWrite .jobGo) (.ite (hs.commandWrite .nvGo) (.ite (hs.commandWrite .keyslotGo) (.ite hs.monWrite
    (.ite (hs.recCtlWrite fun hu => hu.after hu.execSampleEnable) (.ite (.ite hs.count ht) (.ite (.ite (ht.after ht.execCntSnap) ht)
    (.ite (hs.recCtlWrite fun hu => hu.after hu.execFaultqEnable) (.ite (.ite hs.count ht) (.ite ht.setFunc hs.operandWrite))))))))))))

theorem State.Canon.secGo (hs : s.Canon) : s.secGo.Canon := by
  unfold State.secGo
  split
  · exact hs.after hs.execAttest
  · exact hs.after hs.execCerts
  · exact hs.after hs.execExtend
  · exact hs.after hs.execUpdate
  · exact hs.after hs.execAdvanceSvn
  · exact hs.setResult

theorem State.Canon.portCtl {p a v m} (hs : s.Canon) : (s.portCtl p a v m).Canon := by
  unfold State.portCtl
  extract_lets t enabled held trained
  have ht : t.Canon := hs.plainWrite
  have henabled : enabled.Canon := .ite (ht.after ht.execPortLinkEnable) ht
  have hheld : held.Canon := .ite (henabled.after henabled.execPortHoldDown) henabled
  have htrained : trained.Canon := .ite (hheld.after hheld.execPortRetrain) hheld
  exact .ite (htrained.after htrained.execPortSwatch) htrained

theorem State.Canon.dlogCtl {f a v m} (hs : s.Canon) : (s.dlogCtl f a v m).Canon := by
  unfold State.dlogCtl
  extract_lets keep t enabled paused
  have ht : t.Canon := .ite hs.guardedWrite hs.plainWrite
  have henabled : enabled.Canon := .ite (ht.after ht.execHostDlogEnable) ht
  have hpaused : paused.Canon := .ite (henabled.after henabled.execHostDlogPause) henabled
  exact .ite (hpaused.after hpaused.execHostDlogRound) hpaused

theorem State.Canon.globalWrite {a v m} (hs : s.Canon) : (s.globalWrite a v m).Canon := by
  unfold State.globalWrite
  extract_lets w n t
  have hn : n.Canon := hs.noteReserved
  have ht : (s.plainWrite a v m).Canon := hs.plainWrite
  have hkey : t.Canon := .ite (hn.after hn.execMgtKeyLoad) hn
  exact .ite (.ite (hn.after hn.execGlobalDiscard) (hn.after hn.execGlobalCommit)) (.ite (.ite (hn.after hn.execCntFreeze) hn)
    (.ite (hs.after hs.execRstCtl) (.ite (.ite (hkey.after hkey.execMgtKeyErase) hkey) (.ite ht.setReg
    (.ite (.ite hs.count (.ite ht.secGo ht)) (.ite hs.portCtl (.ite (hs.after hs.execFailRetire)
    (.ite (.ite (hn.after hn.execHostWinFlush) hn) (.ite hs.dlogCtl (.ite (.ite hs.count ht)
    (.ite (.ite (ht.after ht.execFuncResetCmd) ht) ht)))))))))))

theorem State.Canon.wordWrite {f a v m} (hs : s.Canon) : (s.wordWrite f a v m).Canon :=
  .ite hs (.ite hs.count (.ite (.ite hs hs.count) (.ite hs.noteReserved.seqWrite (.ite hs.pageWrite hs.globalWrite))))

/-- Read as an equation of functions: applied to an address, the unfolding would have the kernel compute the address of the bit. -/
theorem State.Canon.aliasWrite {addr v} (hs : s.Canon) : (s.aliasWrite addr v).Canon := by
  have h : ∀ F, F = State.aliasWrite → (F s addr v).Canon := by
    delta State.aliasWrite
    rintro _ rfl
    beta_reduce
    split
    · exact hs.count
    · exact .ite hs.wordWrite hs.count
  exact h _ rfl

theorem State.Canon.regWrite {f a v} (hs : s.Canon) : (s.regWrite f a v).Canon := .ite hs.bar2Write (.ite hs.count (.ite hs.aliasWrite hs.wordWrite))
theorem State.Canon.execAliasWrite {addr v} (hs : s.Canon) : NextCanon (execAliasWrite addr v s) := .next (.ite hs.aliasWrite hs.count)
theorem State.Canon.execRegisterWrite {f addr v} (hs : s.Canon) : NextCanon (execRegisterWrite f addr v s) := .next hs.regWrite
theorem State.Canon.frameOut {bs} (hs : s.Canon) : (s.frameOut bs).Canon := hs.frame rfl

theorem State.Canon.sendFrame {bs} (hs : s.Canon) : (s.sendFrame bs).Canon := by
  unfold State.sendFrame
  split
  · exact hs.frame rfl
  · exact (hs.frame (by rfl)).frameOut

theorem State.Canon.opportunity (hs : s.Canon) : s.opportunity.Canon := .foldl (hs.frame rfl) fun ht => ht.frameOut

theorem State.Canon.execPlcaCycle (hs : s.Canon) : NextCanon (execPlcaCycle s) := by
  unfold Machine.execPlcaCycle
  extract_lets _ u _ v w
  have hu : u.Canon := (hs.frame (by rfl)).setFld.setFld
  have hv : v.Canon := hs.frame rfl
  have hw : w.Canon := .ite hv.emit hv
  exact .next (.ite hs (.ite (.foldl (hu.frame rfl) fun ht => ht.sendFrame) hw.setFld.setFld.opportunity))

theorem State.Canon.execPlcaFallback (hs : s.Canon) : NextCanon (execPlcaFallback s) :=
  .next (.ite hs (.foldl (hs.setFld.setFld.bumpSeq.count.frame rfl) fun ht => ht.sendFrame))

theorem State.Canon.execCsmaCdCollision (hs : s.Canon) : NextCanon (execCsmaCdCollision s) := by
  refine .next ?_
  split
  · exact hs
  · exact .ite (hs.frame (by rfl)).emit (hs.frame (by rfl)).count

theorem State.Canon.authFails (hs : s.Canon) : s.authFails.Canon := hs.setFld.bumpSeq.count

theorem State.Canon.serve {op m keyed k} (hs : s.Canon) (hk : ∀ {u}, u.Canon → (k u).2.2.Canon) : (s.serve op m keyed k).Canon := by
  unfold State.serve
  extract_lets t _ u r
  have hu : u.Canon := .ite (hs.count.frame rfl) hs.count
  have hr : r.2.2.Canon := .ite_snd_snd hu (hk hu)
  exact .ite hs (.ite hs.count (.ite hs.count.authFails hr.sendFrame))

theorem State.Canon.execIdent {m} (hs : s.Canon) : NextCanon (execIdent m s) := by
  refine .next (hs.serve fun ht => ?_)
  split <;> exact ht

theorem State.Canon.execRegRead {m} (hs : s.Canon) : NextCanon (execRegRead m s) := .next (hs.serve fun hu => .ite_snd_snd hu (.ite_snd_snd hu hu))

theorem State.Canon.execRegWrite {m} (hs : s.Canon) : NextCanon (execRegWrite m s) :=
  .next (hs.serve fun hu => .ite_snd_snd hu (.ite_snd_snd hu (.foldl hu fun hv => hv.regWrite)))

theorem State.Canon.bufPut {o bs opens} (hs : s.Canon) : (s.bufPut o bs opens).Canon := hs.frame rfl

theorem State.Canon.execBufWrite {m} (hs : s.Canon) : NextCanon (execBufWrite m s) :=
  .next (hs.serve fun hu => .ite_snd_snd hu (.ite_snd_snd hu hu.bufPut))

theorem State.Canon.execBufRead {m} (hs : s.Canon) : NextCanon (execBufRead m s) := by
  refine .next (hs.serve fun ht => ?_)
  split
  · exact ht
  · split <;> exact ht

theorem State.Canon.secPort {op mr arg o n} (hs : s.Canon) : (s.secPort op mr arg o n).2.2.Canon := by
  unfold State.secPort
  split
  · exact hs.secAttest
  · exact hs.secCerts
  · exact hs.secExtend
  · exact hs.secUpdate
  · exact hs.secAdvance
  · exact hs

theorem State.Canon.execSec {m} (hs : s.Canon) : NextCanon (execSec m s) := by
  refine .next (hs.serve fun ht => ?_)
  split
  · exact ht
  · split
    · exact ht
    · exact .ite ht.secPort ht.secPort.bufPut

theorem State.Canon.standby (_ : s.Canon) : s.standby.Canon := (Canon.coldState.frame (by rfl)).keepFilters.setReg

theorem State.Canon.execPowerActive {m} (hs : s.Canon) : NextCanon (execPowerActive m s) := by
  refine .next (hs.serve fun ht => ?_)
  split <;> exact ht

theorem State.Canon.execPowerStandby {m} (hs : s.Canon) : NextCanon (execPowerStandby m s) := by
  unfold Machine.execPowerStandby
  extract_lets t
  have ht : t.Canon := hs.serve fun hu => .ite_snd_snd hu (.ite_snd_snd hu hu)
  exact .next (.ite (State.Canon.standby (.foldl ht fun hu => hu.frameOut)) ht)

theorem State.Canon.execPowerColdReset {m boot} (hs : s.Canon) : NextCanon (execPowerColdReset m boot s) := by
  unfold Machine.execPowerColdReset
  extract_lets t
  have ht : t.Canon := hs.serve fun hu => .ite_snd_snd hu hu
  exact .next (.ite (State.Canon.coldReset (.foldl ht fun hu => hu.frameOut)) ht)

theorem State.Canon.execWakeMatch {frame boot} (hs : s.Canon) : NextCanon (execWakeMatch frame boot s) := .next (.ite hs.coldReset hs)

theorem State.Canon.execManagementFrame {f} (hs : s.Canon) : NextCanon (execManagementFrame f s) := by
  refine .next (.ite hs ?_)
  split
  · exact hs.count
  · exact hs.count
  · exact hs.count
  · exact hs.count
  · exact hs.setFld.bumpSeq.count
  · exact hs.count.sendFrame

theorem State.Canon.execNop {g} (hs : s.Canon) : NextCanon (execNop g s) := .next (hs.startOp fun ht => ht.startNop).settle
theorem State.Canon.execPut {g} (hs : s.Canon) : NextCanon (execPut g s) := .next (hs.startOp fun ht => ht.startPut).settle
theorem State.Canon.execPuti {g} (hs : s.Canon) : NextCanon (execPuti g s) := .next (hs.startOp fun ht => ht.startPuti).settle
theorem State.Canon.execGet {g} (hs : s.Canon) : NextCanon (execGet g s) := .next (hs.startOp fun ht => ht.startGet).settle
theorem State.Canon.execCopy {g} (hs : s.Canon) : NextCanon (execCopy g s) := .next (hs.startOp fun ht => ht.startCopy).settle
theorem State.Canon.execFlush {g} (hs : s.Canon) : NextCanon (execFlush g s) := .next (hs.startOp fun ht => ht.startFlush).settle
theorem State.Canon.execFadd {g} (hs : s.Canon) : NextCanon (execFadd g s) := .next (hs.startOp fun ht => ht.startAtomic).settle
theorem State.Canon.execCas {g} (hs : s.Canon) : NextCanon (execCas g s) := .next (hs.startOp fun ht => ht.startAtomic).settle
theorem State.Canon.execWait {g} (hs : s.Canon) : NextCanon (execWait g s) := .next (hs.startOp fun ht => ht.startWait).settle
theorem State.Canon.execSignal {g} (hs : s.Canon) : NextCanon (execSignal g s) := .next (hs.startOp fun ht => ht.startSignal).settle
theorem State.Canon.execMark {g} (hs : s.Canon) : NextCanon (execMark g s) := .next (hs.startOp fun ht => ht.startMark).settle
theorem State.Canon.execFence {g} (hs : s.Canon) : NextCanon (execFence g s) := .next (hs.startOp fun ht => ht.startFence).settle
theorem State.Canon.execCheck {g} (hs : s.Canon) : NextCanon (execCheck g s) := .next (hs.startOp fun ht => ht.startCheck).settle
theorem State.Canon.execRepeat {g} (hs : s.Canon) : NextCanon (execRepeat g s) := .next (hs.startOp fun ht => ht.startRepeat).settle
theorem State.Canon.showSensors {x} (hs : s.Canon) : (s.showSensors x).Canon := hs.setFld.setFld.setFld.setFld.setFld.setFld
theorem State.Canon.setThrottle {step cause} (hs : s.Canon) : (s.setThrottle step cause).Canon := hs.setFld.setFld.bumpSeq

theorem State.Canon.execThrottleEval {x} (hs : s.Canon) : NextCanon (execThrottleEval x s) := by
  unfold Machine.execThrottleEval
  extract_lets t u _ v p th w y
  have hu : u.Canon := .ite hs.showSensors.count hs.showSensors
  have hv : v.Canon := hu.frame rfl
  have hy : y.Canon := .ite hv.setThrottle.count hv.setThrottle
  exact .next (.ite (.ite hy.count hy) (.ite hv.setThrottle hv))

theorem State.Canon.powerOff : s.powerOff.Canon := ⟨Canon.reset.1, Tab.wf_put _ _ _ _ Canon.reset.2⟩
theorem State.Canon.envLimit {off} (hs : s.Canon) : (s.envLimit off).Canon := .ite hs (.ite (hs.bindOff.frame rfl) hs.bindOff)
theorem State.Canon.execVinOvervoltage (hs : s.Canon) : NextCanon (execVinOvervoltage s) := .next hs.envLimit
theorem State.Canon.execOverTemperature {what} (hs : s.Canon) : NextCanon (execOverTemperature what s) := .next hs.envLimit
theorem State.Canon.execPowerOverlimit (hs : s.Canon) : NextCanon (execPowerOverlimit s) := .next hs.envLimit
theorem State.Canon.execVinUndervoltage (_ : s.Canon) : NextCanon (execVinUndervoltage s) := .next Canon.powerOff
theorem State.Canon.execPrsntBreak (hs : s.Canon) : NextCanon (execPrsntBreak s) := .next (hs.envLimit.frame rfl)
theorem State.Canon.execRegulatorsOff (hs : s.Canon) : NextCanon (execRegulatorsOff s) := .next (.ite Canon.powerOff hs)
theorem State.Canon.execPrsntNMade (hs : s.Canon) : NextCanon (execPrsntNMade s) := .next (.ite hs (hs.frame rfl))
theorem State.Canon.execPowerOn {boot} (hs : s.Canon) : NextCanon (execPowerOn boot s) := .next (.ite hs.coldReset hs)
theorem State.Canon.execTestReset (hs : s.Canon) : NextCanon (execTestReset s) := .next (hs.frame rfl)

end Sys2Proof.Machine
end

section
/-! PROOFS. Canonical form: commands and steps (R287, R408) -/

namespace Sys2Proof.Machine
variable {s : State}

theorem State.Canon.exec {i} (hs : s.Canon) : NextCanon (exec i s) :=
  match i with
  | .nop _ => hs.execNop | .put _ => hs.execPut | .puti _ => hs.execPuti | .get _ => hs.execGet | .copy _ => hs.execCopy
  | .flush _ => hs.execFlush | .fadd _ => hs.execFadd | .cas _ => hs.execCas | .wait _ => hs.execWait | .signal _ => hs.execSignal
  | .mark _ => hs.execMark | .fence _ => hs.execFence | .repeat_ _ => hs.execRepeat | .rdsc _ => hs.execRdsc | .agth _ => hs.execAgth
  | .ared _ => hs.execAred | .a2a _ => hs.execA2a | .a2av _ => hs.execA2av | .disp _ => hs.execDisp | .comb _ => hs.execComb
  | .rug _ => hs.execRug | .snap _ => hs.execSnap | .pers _ => hs.execPers | .digest _ => hs.execDigest | .check _ => hs.execCheck
  | .tag _ _ => hs.execTag | .uprog _ => hs.execUprog | .commCreate _ => hs.execCommCreate | .commReplace _ => hs.execCommReplace
  | .commDestroy _ => hs.execCommDestroy | .queueQuery _ _ => hs.execQueueQuery | .queueCreate _ _ _ => hs.execQueueCreate
  | .queueModify _ _ => hs.execQueueModify | .queueDestroy _ _ => hs.execQueueDestroy | .dbPi _ _ _ => hs.execDbPi
  | .dbCci _ _ _ => hs.execDbCci | .entryFetch _ _ => hs.execEntryFetch | .ownReread _ _ => hs.execOwnReread
  | .staleEntry _ => hs.execStaleEntry | .ringRetry _ _ _ => hs.execRingRetry | .cringStall _ => hs.execCringStall
  | .cntWrite _ _ _ _ => hs.execCntWrite | .cntAdd _ _ _ _ => hs.execCntAdd | .cntSeterr _ _ _ => hs.execCntSeterr
  | .cntClrerr _ _ _ => hs.execCntClrerr | .flr _ => hs.execFlr | .vfEnableClear => hs.execVfEnableClear | .d3hotToD0 _ => hs.execD3hotToD0
  | .cxlReset => hs.execCxlReset | .hostLinkDown _ => hs.execHostLinkDown | .hostRetrain _ _ _ => hs.execHostRetrain
  | .busMasterClear _ => hs.execBusMasterClear | .funcResetCmd _ => hs.execFuncResetCmd | .funcResetEnd _ => hs.execFuncResetEnd
  | .keyQuery _ => hs.execKeyQuery | .keyRegister _ => hs.execKeyRegister | .keyRevoke _ => hs.execKeyRevoke
  | .keyRelease _ => hs.execKeyRelease | .keyDrained _ => hs.execKeyDrained | .request _ _ _ => hs.execRequest
  | .response _ _ _ => hs.execResponse | .placementAnswer _ _ => hs.execPlacementAnswer | .contextFetchDone _ _ => hs.execContextFetchDone
  | .deliveryAck _ _ => hs.execDeliveryAck | .ackTimer _ => hs.execAckTimer | .e2eRetransmit _ _ => hs.execE2eRetransmit
  | .e2eRespAbandon _ _ => hs.execE2eRespAbandon | .packetRoute => hs.execPacketRoute | .escapeTimeout _ => hs.execEscapeTimeout
  | .linkDownNotice _ _ _ => hs.execLinkDownNotice | .linkUpNotice _ _ _ => hs.execLinkUpNotice | .linkReannounce => hs.execLinkReannounce
  | .gaugeUpdate _ => hs.execGaugeUpdate | .gaugeIdle _ => hs.execGaugeIdle | .telemetrySample _ => hs.execTelemetrySample
  | .codewordRx _ _ => hs.execCodewordRx | .lockLost _ => hs.execLockLost | .errorRate _ => hs.execErrorRate
  | .laneLos _ _ => hs.execLaneLos | .fastRetrainEnd _ => hs.execFastRetrainEnd | .credit _ _ => hs.execCredit
  | .creditReportTimer _ => hs.execCreditReportTimer | .audit _ _ _ _ _ => hs.execAudit | .auditSend _ => hs.execAuditSend
  | .keepalive _ _ => hs.execKeepalive | .keepaliveSend _ => hs.execKeepaliveSend | .keepaliveTimeout _ => hs.execKeepaliveTimeout
  | .bindOffSymbol _ _ _ => hs.execBindOffSymbol | .abort _ => hs.execAbort | .tsIdent _ _ => hs.execTsIdent
  | .tsCredit _ _ _ _ _ => hs.execTsCredit | .tsSwatch _ _ _ d => hs.execTsSwatch (duration := d) | .tsReady _ => hs.execTsReady
  | .trainStateDone _ => hs.execTrainStateDone | .trainTimeout _ => hs.execTrainTimeout | .trainRetry _ => hs.execTrainRetry
  | .swatchPhase _ _ => hs.execSwatchPhase | .portLinkEnable _ _ => hs.execPortLinkEnable | .portRetrain _ => hs.execPortRetrain
  | .portSwatch _ => hs.execPortSwatch | .portHoldDown _ _ => hs.execPortHoldDown | .contrib _ _ _ => hs.execContrib
  | .result _ _ _ => hs.execResult | .data _ _ _ => hs.execData | .count _ _ _ => hs.execCount | .grant _ _ _ => hs.execGrant
  | .resendReq _ _ => hs.execResendReq | .acceptAck _ _ => hs.execAcceptAck | .nak _ _ => hs.execNak | .resultAck _ _ => hs.execResultAck
  | .notReady _ _ => hs.execNotReady | .notReadyRetry _ _ => hs.execNotReadyRetry | .handleTimeout _ _ => hs.execHandleTimeout
  | .chunkLoss _ _ _ => hs.execChunkLoss | .slotGrant => hs.execSlotGrant | .slotFinish _ => hs.execSlotFinish
  | .accountingSweep _ => hs.execAccountingSweep | .bindOffSquelch => hs.execBindOffSquelch | .deadConfirm _ => hs.execDeadConfirm
  | .deadNode _ _ _ => hs.execDeadNode | .rankClaim _ _ _ => hs.execRankClaim | .claimSettle _ _ _ => hs.execClaimSettle
  | .rankAbandoned _ _ => hs.execRankAbandoned | .frogRequest _ _ _ => hs.execFrogRequest | .frogVoteWait _ => hs.execFrogVoteWait
  | .frogRestoreDone _ => hs.execFrogRestoreDone | .unitSaveDone _ _ => hs.execUnitSaveDone | .darningRead _ _ => hs.execDarningRead
  | .darningDone _ => hs.execDarningDone | .persDurable _ => hs.execPersDurable | .governorTick _ _ => hs.execGovernorTick
  | .retentionScan b _ => hs.execRetentionScan (block := b) | .nandBlockFail b _ _ => hs.execNandBlockFail (block := b) | .jobFrog _ => hs.execJobFrog
  | .jobSetStep _ => hs.execJobSetStep | .nvQuery _ => hs.execNvQuery | .nvRestore _ => hs.execNvRestore | .nvDelete _ => hs.execNvDelete
  | .failRetire _ _ => hs.execFailRetire | .storeSweep _ => hs.execStoreSweep | .poolScrub _ _ => hs.execPoolScrub
  | .translationAnswer _ _ _ _ => hs.execTranslationAnswer | .prgResponse _ _ _ _ => hs.execPrgResponse
  | .priTimeout _ _ _ => hs.execPriTimeout | .atsInvalidate _ _ _ _ _ => hs.execAtsInvalidate | .hostReadError _ w => hs.execHostReadError (why := w)
  | .windowRead _ => hs.execWindowRead | .windowWrite _ _ => hs.execWindowWrite | .birsp _ _ => hs.execBirsp
  | .hostWinFlush => hs.execHostWinFlush | .hostDlogEnable _ _ => hs.execHostDlogEnable | .hostDlogRound _ => hs.execHostDlogRound
  | .hostDlogPause _ _ => hs.execHostDlogPause | .placeRsp _ _ _ => hs.execPlaceRsp | .ardData _ _ _ _ _ => hs.execArdData
  | .aatomRsp _ _ _ _ => hs.execAatomRsp | .doorbell _ _ _ _ => hs.execDoorbell | .counter _ _ _ _ => hs.execCounter
  | .cntRd _ _ _ => hs.execCntRd | .lrd _ _ _ _ _ => hs.execLrd | .lwr _ _ _ _ _ => hs.execLwr | .latom _ _ _ _ _ _ _ _ => hs.execLatom
  | .attachRetransmit _ _ => hs.execAttachRetransmit | .accelLost _ => hs.execAccelLost | .queueSched _ => hs.execQueueSched
  | .sampleEnable _ _ => hs.execSampleEnable | .samplePeriod _ => hs.execSamplePeriod | .faultqEnable _ _ => hs.execFaultqEnable
  | .monEnable _ _ _ => hs.execMonEnable | .monDrainDone _ _ => hs.execMonDrainDone | .keyslotQuery _ => hs.execKeyslotQuery
  | .keyslotLoad _ => hs.execKeyslotLoad | .keyslotClear _ => hs.execKeyslotClear | .attest _ => hs.execAttest | .certs _ => hs.execCerts
  | .extend _ => hs.execExtend | .update _ _ => hs.execUpdate | .advanceSvn => hs.execAdvanceSvn | .globalCommit _ => hs.execGlobalCommit
  | .globalDiscard _ => hs.execGlobalDiscard | .aliasWrite _ _ => hs.execAliasWrite | .statusSeqWrite _ _ _ => hs.execStatusSeqWrite
  | .cntSnap _ => hs.execCntSnap | .cntFreeze _ => hs.execCntFreeze | .freezeExpire => hs.execFreezeExpire | .rstCtl _ _ => hs.execRstCtl
  | .mgtKeyLoad => hs.execMgtKeyLoad | .mgtKeyErase => hs.execMgtKeyErase | .registerWrite _ _ _ => hs.execRegisterWrite
  | .pllLockLoss _ => hs.execPllLockLoss | .coldReset _ _ => hs.execColdReset | .nodeResetN _ => hs.execNodeResetN
  | .poolReady => hs.execPoolReady | .nvReady => hs.execNvReady | .castOnSend => hs.execCastOnSend | .castOn _ _ _ => hs.execCastOn
  | .watchdogExpire => hs.execWatchdogExpire | .ident _ => hs.execIdent | .regRead _ => hs.execRegRead | .regWrite _ => hs.execRegWrite
  | .bufWrite _ => hs.execBufWrite | .bufRead _ => hs.execBufRead | .sec _ => hs.execSec | .powerActive _ => hs.execPowerActive
  | .powerStandby _ => hs.execPowerStandby | .powerColdReset _ _ => hs.execPowerColdReset | .wakeMatch _ _ => hs.execWakeMatch
  | .plcaFallback => hs.execPlcaFallback | .throttleEval _ => hs.execThrottleEval | .prsntBreak => hs.execPrsntBreak
  | .vinUndervoltage => hs.execVinUndervoltage | .vinOvervoltage => hs.execVinOvervoltage | .overTemperature w => hs.execOverTemperature (what := w)
  | .powerOverlimit => hs.execPowerOverlimit | .powerOn _ => hs.execPowerOn | .hostReadCompletion _ _ => hs.execHostReadCompletion
  | .hostLinkUp _ _ => hs.execHostLinkUp | .h2dSnoop _ => hs.execH2dSnoop | .busMasterEnableSet _ => hs.execBusMasterEnableSet
  | .hdmDecoderCommit => hs.execHdmDecoderCommit | .partnerSignalDetected _ => hs.execPartnerSignalDetected
  | .pllLockReturn _ => hs.execPllLockReturn | .tokenBucketRefill _ _ => hs.execTokenBucketRefill | .regulatorsOff => hs.execRegulatorsOff
  | .prsntNMade => hs.execPrsntNMade | .testReset => hs.execTestReset | .plcaCycle => hs.execPlcaCycle
  | .csmaCdCollision => hs.execCsmaCdCollision | .managementFrame _ => hs.execManagementFrame

theorem State.Canon.step (hs : s.Canon) : NextCanon (step s) := by
  unfold Machine.step
  split
  · exact .next (hs.frame rfl)
  · exact State.Canon.exec (hs.frame rfl)

/-- Settles O5: every operation of the model writes pooled memory and the register file through `setReg` and `pwrite` alone, or empties
them, so that each keeps their form, and with the operations every command. (R287, R408) -/
theorem stepKeepsCanonicalForm : Obligations.StepKeepsCanonicalForm := by
  intro s t hs ht
  exact State.Canon.step hs t ht

/-- Settles O4. (R287, R408, R443) -/
theorem resetIsCanonical : Obligations.ResetIsCanonical := by
  exact State.Canon.reset

end Sys2Proof.Machine
end

section
/-! PROOFS. Sweeps of the store and scrubs of the pool (R279, R280, R289, R290, R291, R292, R297) -/

namespace Sys2Proof.Machine
variable {s : State} {off : Nat}

theorem exec_poolScrub_lastLine_clean : exec (.poolScrub lastLine .clean) s = .next (s.count 0x220050) := rfl

section
variable (hoff : off ≠ lastLine)
include hoff

theorem exec_poolScrub_clean : exec (.poolScrub off .clean) s = .next s := by
  simp only [exec, execPoolScrub, if_neg hoff]

theorem exec_poolScrub_corrected : exec (.poolScrub off .corrected) s = .next (s.count 0x220040) := by
  simp only [exec, execPoolScrub, if_neg hoff]

theorem exec_poolScrub_protected {j : Journal} {c : Comm} (hj : (s.count 0x220048).protectedBy off = some j)
    (hc : (s.count 0x220048).comm j.comm = some c) : exec (.poolScrub off .uncorrectable) s =
      .next (((s.count 0x220048).loseLine (off / 64 * 64)).frogCause c.job 3 j.comm none).settle := by
  simp only [exec, execPoolScrub, if_neg hoff, hj, hc]

theorem exec_poolScrub_unprotected (hj : (s.count 0x220048).protectedBy off = none) : exec (.poolScrub off .uncorrectable) s =
    .next (if (s.count 0x220048).undoNeeded off then s.count 0x220048 else (s.count 0x220048).bindOff 3) := by
  simp only [exec, execPoolScrub, if_neg hoff, hj]

end

theorem State.mem_lostLines_loseLine : off ∈ (s.loseLine off).lostLines := by
  unfold State.loseLine
  split
  next h => exact List.contains_iff_mem.mp h
  next => exact List.mem_append_right _ (List.mem_singleton_self off)

/-- Settles O46: a scrub of a line other than the last acts on its finding alone, and what an uncorrectable line does turns on the
journal whose protected range holds it. (R279, R280, R289, R290, R291, R292, R297) -/
theorem sweepsAndScrubs : Obligations.SweepsAndScrubs := by
  intro s off
  refine ⟨rfl, fun use => rfl, fun hoff => ⟨exec_poolScrub_clean hoff, exec_poolScrub_corrected hoff⟩, exec_poolScrub_lastLine_clean, ?_, ?_⟩
  · intro j c hoff a hj hc
    exact ⟨exec_poolScrub_protected hoff hj hc, State.mem_lostLines_loseLine⟩
  · intro hoff a hj
    rw [exec_poolScrub_unprotected hoff hj]
    exact ⟨fun hundo => congrArg _ (if_neg (Bool.eq_false_iff.mp hundo)), fun hundo => congrArg _ (if_pos hundo)⟩

end Sys2Proof.Machine
end

section
/-! PROOFS. The host window and dirty logging (R294, R295, R345, R350, R351, R357, R358, R359, R371) -/

namespace Sys2Proof.Machine
variable {s : State} {line : Nat}

/-! ### Reads and writes of the window -/

theorem exec_windowRead_served (hpresent : s.winPresent = true) (hfree : s.winHolds line = false) :
    exec (.windowRead line) s = .next (s.winRead line) := by
  simp only [exec, execWindowRead, State.takeWindow, hpresent, hfree, if_true, Bool.false_eq_true, if_false]

theorem exec_windowRead_held (hpresent : s.winPresent = true) (hheld : s.winHolds line = true) :
    exec (.windowRead line) s = .next { s with winHeld := s.winHeld ++ [.windowRead line] } := by
  simp only [exec, execWindowRead, State.takeWindow, hpresent, hheld, if_true]

theorem exec_windowRead_absent (habsent : s.winPresent = false) : exec (.windowRead line) s = .next s := by
  simp only [exec, execWindowRead, habsent, Bool.false_eq_true, if_false]

theorem exec_windowWrite_served (bytes : List Byte) (hpresent : s.winPresent = true) (hfree : s.winHolds line = false) :
    exec (.windowWrite line bytes) s = .next (s.winStoreLine line bytes) := by
  simp only [exec, execWindowWrite, State.takeWindow, hpresent, hfree, if_true, Bool.false_eq_true, if_false]

theorem exec_windowWrite_held (bytes : List Byte) (hpresent : s.winPresent = true) (hheld : s.winHolds line = true) :
    exec (.windowWrite line bytes) s = .next { s with winHeld := s.winHeld ++ [.windowWrite line bytes] } := by
  simp only [exec, execWindowWrite, State.takeWindow, hpresent, hheld, if_true]

theorem exec_windowWrite_absent (bytes : List Byte) (habsent : s.winPresent = false) : exec (.windowWrite line bytes) s = .next s := by
  simp only [exec, execWindowWrite, habsent, Bool.false_eq_true, if_false]

/-- A read of a line that stands tells the line's bytes and its poison, marks it, and leaves pooled memory to the line. -/
theorem State.winRead_stands {bs : List Byte} {u : State} (h : s.winLine line = some (bs, u)) :
    (s.winRead line).out = u.out ++ [.windowData line bs (u.winPoison.contains line)] ∧ line ∈ (s.winRead line).winDir
    ∧ (s.winRead line).pool = u.pool := by
  have hread : s.winRead line = State.setDirEmpty { (u.count 0x220058).emit (.windowData line bs (u.winPoison.contains line)) with
      winDir := if u.winDir.contains line then u.winDir else u.winDir ++ [line] } := by
    rw [State.winRead, h]
  rw [hread]
  refine ⟨rfl, ?_, rfl⟩
  show line ∈ if u.winDir.contains line then u.winDir else u.winDir ++ [line]
  split
  next hmarked => exact List.contains_iff_mem.mp hmarked
  next => exact List.mem_append_right _ (List.mem_singleton_self line)

theorem State.winStoreLine_stands (bytes : List Byte) (h : s.fld 0x150050 0 2 = 1 ∨ s.fld 0x150050 0 2 = 2) :
    s.winStoreLine line bytes = (s.count 0x220058).winWrite line bytes :=
  if_neg (by omega)

/-! ### Snoops -/

theorem State.winWrite_winDir (bytes : List Byte) : (s.winWrite line bytes).winDir = s.winDir := by
  dsimp only [State.winWrite]
  split
  · split <;> rfl
  · rfl

/-- The answer to the snoop of the one marked line leaves none marked, and with that the flush has ended. -/
theorem exec_birsp_last (dirty : Option (List Byte)) (hdir : s.winDir = [line]) : let u := dirty.elim s (fun bs => s.winWrite line bs)
    exec (.birsp line dirty) s = .next ((({ u with winDir := [] } : State).setDirEmpty).setFld 0x190008 0 1 0).settle.retryLatoms := by
  intro u
  have hu : u.winDir = [line] := by
    cases dirty with
    | none => exact hdir
    | some bs => exact (s.winWrite_winDir bs).trans hdir
  have hmarked : s.winDir.contains line = true := by simp [hdir]
  have hrest : u.winDir.filter (· != line) = [] := by simp [hu]
  have hlast : (u.winDir.filter (· != line)).isEmpty = true := by rw [hrest]; rfl
  show Host.Outcome.next (if s.winDir.contains line then
    (if (u.winDir.filter (· != line)).isEmpty then
        (State.setDirEmpty { u with winDir := u.winDir.filter (· != line) }).setFld 0x190008 0 1 0
      else State.setDirEmpty { u with winDir := u.winDir.filter (· != line) }).settle.retryLatoms else s) = _
  rw [if_pos hmarked, if_pos hlast, hrest]

/-- Snooping lines asks the host for each of them and counts each, and changes nothing else. -/
theorem State.snoopLines_frame (ls : List Nat) : ∃ ev, s.snoopLines ls = { s with ev, out := s.out ++ ls.map .biSnp } := by
  induction ls generalizing s with
  | nil => exact ⟨s.ev, by simp [State.snoopLines]⟩
  | cons l ls ih =>
    obtain ⟨ev, hls⟩ := @ih ((s.emit (.biSnp l)).count 0x240048)
    exact ⟨ev, hls.trans (by simp [State.emit, State.count])⟩

theorem exec_hostWinFlush_empty (h : s.winDir = []) : exec .hostWinFlush s = .next (s.setFld 0x190008 0 1 0) := by
  simp only [exec, execHostWinFlush, h, List.isEmpty_nil, if_true]

theorem exec_hostWinFlush_marked (h : s.winDir ≠ []) :
    exec .hostWinFlush s = .next ((s.setFld 0x190008 0 1 1).snoopLines s.winDir) := by
  simp only [exec, execHostWinFlush, List.isEmpty_eq_false_iff.mpr h, Bool.false_eq_true, if_false, State.snoopLines]

/-- Settles O48: a window access is served, held or ignored as a whole, a flush is the snoops of the marked lines, and dirty logging
is switched by the writes of its own fields. (R294, R295, R345, R350, R351, R357, R358, R359, R371) -/
theorem hostWindow : Obligations.HostWindow := by
  intro s line f
  refine ⟨?_, ?_, ?_, ?_, fun dirty hdir => exec_birsp_last dirty hdir, exec_hostWinFlush_empty, ?_, fun a => rfl, rfl, rfl, rfl, rfl, rfl, rfl⟩
  · intro bs u hpresent hfree hline
    exact ⟨_, exec_windowRead_served hpresent hfree, State.winRead_stands hline⟩
  · intro bytes hpresent hfree hmode
    rw [exec_windowWrite_served bytes hpresent hfree, State.winStoreLine_stands bytes hmode]
  · intro bytes hpresent hheld
    exact ⟨exec_windowRead_held hpresent hheld, exec_windowWrite_held bytes hpresent hheld⟩
  · intro bytes habsent
    exact ⟨exec_windowRead_absent habsent, exec_windowWrite_absent bytes habsent⟩
  · intro hdir
    obtain ⟨ev, hsnoop⟩ := State.snoopLines_frame (s := s.setFld 0x190008 0 1 1) s.winDir
    refine ⟨_, exec_hostWinFlush_marked hdir, ?_⟩
    rw [hsnoop]
    refine ⟨rfl, ?_, rfl⟩
    have hbusy : (s.setFld 0x190008 0 1 1).fld 0x190008 0 1 = 1 := s.fld_setFld 0x190008 0 1 1 (by decide)
    exact beq_iff_eq.mpr hbusy

end Sys2Proof.Machine
end

section
/-! PROOFS. Bind-off as a last state, and what a cold reset that ends in RECOVERY does to the ports (R299, R300, R401, R443). -/

namespace Sys2Proof.Machine

variable {s : State}

/-! ## Binding off once (R299, R300) -/

theorem State.bindOff_boundOff (cause : Nat) (h : s.boundOff = true) : s.bindOff cause = s := if_pos h

/-- Bound off before or not, the node is bound off after a cause. -/
theorem State.boundOff_bindOff (s : State) (cause : Nat) : (s.bindOff cause).boundOff = true := by
  by_cases h : s.boundOff = true
  · rwa [State.bindOff_boundOff cause h]
  · exact (State.bindOff_cause cause (Bool.eq_false_iff.2 h)).1

/-- Settles O43: no part of a bind-off clears BOUND_OFF, and a node with it set takes no cause. (R299, R300) -/
theorem bindOffOnce : Obligations.BindOffOnce := by
  intro s cause
  exact ⟨fun _ => s.boundOff_bindOff cause, State.bindOff_boundOff cause, fun c => State.bindOff_boundOff c (s.boundOff_bindOff cause)⟩

/-! ## A cold reset that ends in RECOVERY (R401, R443) -/

/-- Neither boot slot can be read. -/
def noSlot : FlashRead := { slotA := false, slotB := false }

theorem State.bootSlot_unreadable (s : State) (b : Bool) : (s.bootSlot false b).1 = 7 := rfl

/-- No slot that can be read, no boot: step 3 of R401 fails as its step 1 did. -/
theorem State.romBoot_noSlot (s : State) : ∃ u : State, s.romBoot noSlot = (false, u.enterRecovery) := by
  unfold State.romBoot
  extract_lets t readable b x y
  split
  · exact ⟨_, rfl⟩
  · have hreadable : ∀ c, readable c = false := fun c => by cases c <;> rfl
    have hx : x.1 ≠ 0 := by simp only [x, hreadable, State.bootSlot_unreadable]; decide
    have hy : y.1 ≠ 0 := by simp only [y, hreadable, State.bootSlot_unreadable]; decide
    rw [if_neg hx, if_neg hy]
    exact ⟨_, rfl⟩

theorem State.coldReset_noSlot (s : State) (cause : ColdCause) : ∃ u : State, s.coldReset cause noSlot = u.enterRecovery := by
  obtain ⟨u, hboot⟩ := (s.coldState.powerUp s cause).romBoot_noSlot
  refine ⟨u, ?_⟩
  rw [State.coldReset, hboot]
  rfl

theorem State.port_setPstate (s : State) (p st k : Nat) : (s.setPstate p st).port k = s.port k := by
  unfold State.setPstate
  extract_lets t
  have ht : t.port k = s.port k := by
    simp only [t]
    split <;> rfl
  exact ht

/-- What RECOVERY does to one port (R401). -/
def State.recoverPort (s : State) (p : Nat) : State := (s.modPort p (fun x => { x with heldBy := .recovery })).setPstate p psHeld

theorem State.heldBy_recoverPort (s : State) (p k : Nat) :
    ((s.recoverPort p).port k).heldBy = if k = p then .recovery else (s.port k).heldBy := by
  rw [State.recoverPort, State.port_setPstate, State.port_modPort]
  split <;> rfl

theorem State.heldBy_recoverPorts {ps : List Nat} {p : Nat} (h : p ∈ ps ∨ (s.port p).heldBy = .recovery) :
    ((ps.foldl State.recoverPort s).port p).heldBy = .recovery := by
  induction ps generalizing s with
  | nil => exact h.resolve_left List.not_mem_nil
  | cons q qs ih =>
    refine ih ?_
    rw [State.heldBy_recoverPort]
    rcases h with h | h
    · rcases List.mem_cons.1 h with rfl | h
      · exact .inr (if_pos rfl)
      · exact .inl h
    · exact .inr (by rw [h, ite_self])

/-- RECOVERY holds every port (R401, R445). -/
theorem State.heldBy_enterRecovery (s : State) {p : Nat} (hp : p < 36) : (s.enterRecovery.port p).heldBy = .recovery :=
  State.heldBy_recoverPorts (.inl (List.mem_range.2 hp))

/-- Refutes O57: a cold reset of the node at reset whose flash gives no slot that can be read ends in RECOVERY, where every port is held, so
that the ports are not gone. (R401, R443, R445) -/
theorem not_coldResetKeeps : ¬ Obligations.ColdResetKeeps := by
  intro h
  obtain ⟨u, hrecovery⟩ := State.reset.coldReset_noSlot .powerOn
  obtain ⟨-, -, -, -, -, -, hports, -⟩ := h State.reset .powerOn noSlot
  have hheld : ((State.reset.coldReset .powerOn noSlot).port 0).heldBy = .recovery := by
    rw [hrecovery]
    exact u.heldBy_enterRecovery (by decide)
  rw [State.port, hports] at hheld
  exact absurd hheld (by decide)

end Sys2Proof.Machine
end

section
/-! PROOFS. Claims, frogs and darning: the conditions under which each command acts (R309 to R328, R343, R350). -/

namespace Sys2Proof.Machine
open Host (Outcome)

variable {s : State}

/-! ## Claims (R310, R311) -/

theorem exec_rankClaim {p : Nat} {h : Hdr} {n : NoticeF} :
    let a := s.consume { hdr := h, body := .notice .rankClaim n, payload := [] }
    a.boundOff = false → a.isLost h.src.toNat = false → h.src.toNat ≠ a.self → a.noticeFresh .rankClaim h.src n = true →
      exec (.rankClaim p h n) s = .next
        (((a.noteFseq .rankClaim h.src n).forwardNotice p .rankClaim h n).applyClaim n.comm.toNat n.rank.toNat n.subject.toNat n.cgen).settle := by
  intro a hbound hlost hself hfresh
  exact congrArg Outcome.next ((s.takeNotice_spec .rankClaim h n _).2.2 hbound hlost hself hfresh)

@[simp] theorem State.job_setJob (s : State) (j : Nat) (x : Job) (k : Nat) : (s.setJob j x).job k = if k = j then x else s.job k := by
  simp [State.job, State.setJob]

/-- A claim of job j that was sent stands, over the commit area that the spare has learned (R310; log entry 16). -/
def Claim.settleFor (j shard units : Nat) (x : Claim) : Claim :=
  if x.job = j ∧ x.phase = .sent then { x with phase := .settled, base := shard, n := units } else x

theorem Claim.settleFor_not_sent {j shard units : Nat} {x : Claim} (h : (x.settleFor j shard units).job = j) :
    (x.settleFor j shard units).phase ≠ .sent := by
  unfold Claim.settleFor at h ⊢
  split
  next => exact ClaimPhase.noConfusion
  next hnot =>
    rw [if_neg hnot] at h
    exact fun hsent => hnot ⟨h, hsent⟩

/-- The state that settles after CLAIM_SETTLE for job j. -/
def State.settleClaims (s : State) (j shard units : Nat) : State :=
  { s.setJob j { s.job j with settled := true } with claims := s.claims.map (Claim.settleFor j shard units) }

theorem exec_claimSettle (job : BitVec 24) (shard units : Nat) :
    exec (.claimSettle job shard units) s = .next (s.settleClaims job.toNat shard units).settle := rfl

theorem State.settled_settleClaims (j shard units : Nat) : ((s.settleClaims j shard units).job j).settled = true := by
  have hjob : (s.settleClaims j shard units).job j = { s.job j with settled := true } :=
    (State.job_setJob s j _ j).trans (if_pos rfl)
  rw [hjob]

theorem exec_rankAbandoned {comm : BitVec 24} {rank : BitVec 20} {c : Comm} {r : Rank} (hc : s.comm comm.toNat = some c)
    (hr : c.ranks[rank.toNat]? = some r) (hopen : s.openRank r = true) (hnone : s.noSpareLeft c.job = true) :
    exec (.rankAbandoned comm rank) s = .next (s.abandon comm.toNat rank.toNat).settle := by
  simp only [exec, execRankAbandoned, hc, hr, hopen, hnone, Bool.and_self, if_true]

/-! ## Frogs (R321, R322) -/

theorem exec_frogRequest {p : Nat} {h : Hdr} {c : CollF} :
    let a := s.consume { hdr := h, body := .coll .chunkLoss c, payload := [] }
    a.boundOff = false → a.isLost h.src.toNat = false → exec (.frogRequest p h c) s = .next (a.takeFrog p h c).settle := by
  intro a hbound hlost
  simp only [a] at hbound hlost
  simp only [exec, execFrogRequest, hbound, hlost, Bool.false_eq_true, if_false, a]

theorem exec_frogVoteWait {job : BitVec 24} {f : Frog} (hf : (s.job job.toNat).frog = some f) (hphase : f.phase = .noCommit) :
    exec (.frogVoteWait job) s = .next (s.frogDone job.toNat f).settle := by
  simp only [exec, execFrogVoteWait, hf, hphase, if_true]

section Restore

variable {job : BitVec 24} {f : Frog} {comm : Nat} {t : DWord × Word} (hf : (s.job job.toNat).frog = some f)
  (hc : (s.job job.toNat).commit = some comm) (hphase : f.phase = .restore) (ht : f.target = some t)
include hf hc hphase ht

/-- While the host may hold lines of the units that a restore writes, it is not done: they are snooped (R350). -/
theorem exec_frogRestoreDone_marked (hmarked : s.undoMarked comm ≠ []) :
    exec (.frogRestoreDone job) s = .next (s.snoopLines (s.undoMarked comm)) := by
  simp only [exec, execFrogRestoreDone, hf, hc, hphase, ht, List.isEmpty_eq_false_iff.2 hmarked, Bool.not_false, if_true]

/-- A restore ends its frog, and another frog follows where one was asked for meanwhile (R322). -/
theorem exec_frogRestoreDone_restored (hnone : s.undoMarked comm = []) :
    let a := (s.frogRestore comm ((s.rankHere comm).getD 0) t).needRestore comm
    let u := a.rebuildLines comm ((a.rankHere comm).getD 0)
    let v := u.frogDone job.toNat f
    exec (.frogRestoreDone job) s = .next (if (u.job job.toNat).again
      then (v.setJob job.toNat { v.job job.toNat with again := false }).frogCause job.toNat 5 comm none else v).settle.retryLatoms := by
  intro a u v
  simp only [exec, execFrogRestoreDone, hf, hc, hphase, ht, hnone, List.isEmpty_nil, Bool.not_true, Bool.false_eq_true, if_false, a, u, v]

end Restore

section Save

variable {comm : BitVec 24} {unit : Nat} {j : Journal} (hj : s.journal? comm.toNat = some j) (hmode : j.jmode = false) (hcommitted : j.committed = true)
  (hsaved : j.saved.contains unit = false) (hunit : unit < j.n + j.np) (hline : s.lineLost (j.base + unit * UNIT) UNIT = false)
include hj hmode hcommitted hsaved hunit hline

/-- A unit of a committed area that is not yet saved is saved once no line of its undo copy is the host's (R319, R350). -/
theorem exec_unitSaveDone : exec (.unitSaveDone comm unit) s = .next
    (if s.markedLines (j.undo unit) UNIT = [] then (s.saveUnit j unit).settle.retryLatoms
      else s.snoopLines (s.markedLines (j.undo unit) UNIT)) := by
  have hopen : (j.jmode || !j.committed || j.saved.contains unit || decide (j.n + j.np ≤ unit)
      || s.lineLost (j.base + unit * UNIT) UNIT) = false := by
    rw [hmode, hcommitted, hsaved, hline, decide_eq_false (Nat.not_le.2 hunit)]
    rfl
  simp only [exec, execUnitSaveDone, hj, hopen, Bool.false_eq_true, if_false]
  by_cases hmarked : s.markedLines (j.undo unit) UNIT = []
  · simp only [hmarked, List.isEmpty_nil, Bool.not_true, Bool.false_eq_true, if_false, if_true]
  · simp only [List.isEmpty_eq_false_iff.2 hmarked, Bool.not_false, if_true, if_neg hmarked]

end Save

/-! ## Darning (R326, R328) -/

theorem exec_darningRead {h : Hdr} {r : ReqF} :
    let a := s.consume { hdr := h, body := .request r, payload := [] }
    a.boundOff = false → h.src.toNat ≠ a.self → a.lost.contains h.src.toNat = false → (a.rxCheck h.src.toNat h.psn h.lup).1 = .fresh →
      exec (.darningRead h r) s = .next ((a.rxCheck h.src.toNat h.psn h.lup).2.takeDarning h r []).settle := by
  intro a hbound hself hlost hfresh
  obtain ⟨-, -, -, htake⟩ := a.arrive_spec h true fun u => u.takeDarning h r []
  exact congrArg (fun u => Outcome.next (State.settle u)) (htake hbound hself hlost hfresh)

theorem exec_darningDone {job : BitVec 24} (hdarned : s.darned job.toNat = true) :
    let xs := s.claims.filter (fun x => x.job == job.toNat)
    exec (.darningDone job) s = .next ((xs.foldl (fun u x => u.finishClaim x) s).frogAfter job.toNat (xs.head?.elim 0 (fun x => x.comm))).settle :=
  congrArg Outcome.next (if_pos hdarned)

/-! ## Job commands (R343) -/

section JobCommand

variable {f : Nat} {x : Nat × Comm} (hgo : s.bit (page f 0x1140) 31 = false)
include hgo

theorem exec_jobFrog : let a := s.setFld (page f 0x1140) 24 2 0
    a.jobCommOf f = some x → exec (.jobFrog f) s = .next ((a.frogCause x.2.job 5 x.1 none).jobDone f 1).settle := by
  intro a hx
  simp only [a] at hx
  simp only [exec, execJobFrog, (s.jobCmd_spec f 0 _).2 hgo, hx, a]

theorem exec_jobSetStep : let a := s.setFld (page f 0x1140) 24 2 1
    a.jobCommOf f = some x → a.jobBusy x.2.job = false → a.reg64 (page f 0x1148) ≠ BitVec.allOnes 64 →
    ((a.job x.2.job).commit = none ∨ (a.job x.2.job).commit = some x.1) →
      exec (.jobSetStep f) s = .next ((a.setStep x.1 x.2 (a.reg64 (page f 0x1148))).jobDone f 1) := by
  intro a hx hbusy hstep hcommit
  have hother : (a.job x.2.job).commit.elim false (fun y => y != x.1) = false := by
    rcases hcommit with h | h <;> simp [h]
  have hgood : ¬(a.reg64 (page f 0x1148) = BitVec.allOnes 64 ∨ (a.job x.2.job).commit.elim false (fun y => y != x.1) = true) :=
    not_or.2 ⟨hstep, Bool.eq_false_iff.1 hother⟩
  simp only [a] at hx hbusy hgood
  simp only [exec, execJobSetStep, (s.jobCmd_spec f 1 _).2 hgo, hx, hbusy, if_neg hgood, Bool.false_eq_true, if_false, a]

end JobCommand

/-- Settles O44: each command in the one branch of its meaning that its hypotheses select. (R310, R311, R319, R320, R321, R322, R324, R325,
R326, R327, R343, R350; log entries 16, 39, 70) -/
theorem ranksAndFrogs : Obligations.RanksAndFrogs := by
  intro s p h
  refine ⟨fun n => exec_rankClaim, ?settle, fun comm rank c r hc hr hopen hnone => exec_rankAbandoned hc hr hopen hnone, fun c => exec_frogRequest,
    fun job f hf hphase => exec_frogVoteWait hf hphase, ?restore, ?save, fun r => exec_darningRead, fun job hdarned => exec_darningDone hdarned,
    fun f x hgo => exec_jobFrog hgo, fun f x hgo => exec_jobSetStep hgo⟩
  case settle =>
    intro job shard units
    refine ⟨_, exec_claimSettle job shard units, State.settled_settleClaims _ _ _, fun x hx hjob => ?_, rfl, rfl, rfl⟩
    obtain ⟨y, -, rfl⟩ := List.mem_map.1 hx
    exact Claim.settleFor_not_sent hjob
  case restore =>
    intro job f comm t hf hc hphase ht a u v
    refine ⟨fun hnone hagain => ?_, fun hnone hagain => ?_, exec_frogRestoreDone_marked hf hc hphase ht⟩
    · exact (exec_frogRestoreDone_restored hf hc hphase ht hnone).trans
        (congrArg (fun w : State => Outcome.next w.settle.retryLatoms) (if_neg (Bool.eq_false_iff.1 hagain)))
    · exact (exec_frogRestoreDone_restored hf hc hphase ht hnone).trans
        (congrArg (fun w : State => Outcome.next w.settle.retryLatoms) (if_pos hagain))
  case save =>
    intro comm unit j hj hmode hcommitted hsaved hunit hline
    rw [exec_unitSaveDone hj hmode hcommitted hsaved hunit hline]
    exact ⟨fun hfree => congrArg Outcome.next (if_pos hfree), fun hmarked => congrArg Outcome.next (if_neg hmarked)⟩

end Sys2Proof.Machine
end

section
/-! PROOFS. Single bits of registers, status registers and their events, and plain writes: what each leaves in the register file (R5, R408, R409,
R411). -/

namespace Sys2Proof.Machine

variable {s : State}

/-! ## Bits and fields (R408) -/

theorem State.bit_setFld_one (s : State) (a b : Nat) (hb : b < 32) : (s.setFld a b 1 1).bit a b = true :=
  beq_iff_eq.2 (s.fld_setFld a b 1 1 hb)

theorem State.bit_setFld_zero (s : State) (a b : Nat) (hb : b < 32) : (s.setFld a b 1 0).bit a b = false := by
  rw [State.bit, s.fld_setFld a b 1 0 hb]
  rfl

theorem State.bit_setFld_other (s : State) (a b v k : Nat) (hk : k < 32) (hne : k ≠ b) : (s.setFld a b 1 v).bit a k = s.bit a k := by
  rw [State.bit, s.fld_setFld_other a b 1 v k 1 (by omega) hk, State.bit]

/-! ## Writes of the register file alone -/

theorem State.regs_setFld (s : State) (a lo w v : Nat) : ∃ rs, s.setFld a lo w v = { s with regs := rs } :=
  State.setFld_of_regs ⟨s.regs, rfl⟩ a lo w v

theorem State.regs_bumpSeq (s : State) (a : Nat) : ∃ rs, s.bumpSeq a = { s with regs := rs } := s.regs_setFld a 0 8 _

theorem State.regs_setResult (s : State) (a v : Nat) : ∃ rs, s.setResult a v = { s with regs := rs } :=
  State.regs_trans (s.regs_setFld a 8 4 v) (State.regs_bumpSeq _ a)

theorem State.counter_of_regs {s t : State} (h : ∃ rs, t = { s with regs := rs }) (a : Nat) : t.counter a = s.counter a := by
  obtain ⟨_, rfl⟩ := h
  rfl

/-! ## Status registers (R411) -/

/-- A register's event leaves the fields above its SEQ. -/
theorem State.fld_bumpSeq_above (s : State) (a : Nat) {lo w : Nat} (hlo : 8 ≤ lo) (h : lo + w ≤ 32) : (s.bumpSeq a).fld a lo w = s.fld a lo w :=
  s.fld_setFld_other a 0 8 _ lo w (Or.inr hlo) h

/-- What a status register tells is in its word, before and after. -/
theorem State.told_congr {s t s' t' : State} {a v : Nat} (hs : s.reg a = s'.reg a) (ht : t'.reg a = t.reg a) (h : State.told s t a v) :
    State.told s' t' a v := by
  simpa only [State.told, State.fld, hs, ht] using h

/-! ## Plain writes (R5, R409) -/

/-- A bit of a word after a write of some of its bits. -/
theorem merge_getLsbD (w v m : Word) (k : Nat) (hk : k < 32) : (merge w v m).getLsbD k = if m.getLsbD k then v.getLsbD k else w.getLsbD k := by
  simp only [merge, BitVec.getLsbD_or, BitVec.getLsbD_and, BitVec.getLsbD_not, hk, decide_true, Bool.true_and]
  cases m.getLsbD k <;> simp

/-- A field after a write of it. -/
theorem extractBits_merge (w v : Word) (lo n : Nat) (h : lo + n ≤ 32) : extractBits (merge w v (bitMask lo n)) lo n = extractBits v lo n := by
  apply Nat.eq_of_testBit_eq
  intro i
  simp only [extractBits, Nat.testBit_mod_two_pow, Nat.testBit_div_two_pow]
  by_cases hi : i < n
  · have hk : i + lo < 32 := by omega
    have hbit := merge_getLsbD w v (bitMask lo n) (i + lo) hk
    rw [bitMask_getLsbD _ _ _ hk, decide_eq_true (by omega), if_pos rfl] at hbit
    rw [decide_eq_true hi]
    exact congrArg _ hbit
  · simp [hi]

theorem State.noteReserved_reg (a : Nat) (v m : Word) (b : Nat) : (s.noteReserved a v m).reg b = s.reg b := by
  unfold State.noteReserved
  split
  · rfl
  · rw [(s.count_reads _ _).1]

/-- A plain write reaches the RW and the WO bits of the committed word. -/
theorem State.plainWrite_reg (a : Nat) (v m : Word) :
    (s.plainWrite a v m).reg a = merge (s.reg a) v (m &&& accMask (fun x => x == .rw || x == .wo) a) := by
  unfold State.plainWrite
  extract_lets t u
  have hu : u.reg a = s.reg a := by
    simp only [u]
    split <;> exact State.noteReserved_reg a v m a
  rw [State.reg_setReg, if_pos rfl, hu]

end Sys2Proof.Machine
end

section
/-! PROOFS. Translations, page requests and host reads (R348, R349, R353 to R357). -/

namespace Sys2Proof.Machine

variable {s : State} {f : Nat} {pasid : BitVec 20} {pg : DWord} {p : Park}

/-! ## One waiting stream (R354, R355) -/

section
variable (hp : s.parksAt f pasid pg .translating = [p])
include hp

/-- An answer that gives the stream what it needs is cached, and the stream goes on. -/
theorem exec_translationAnswer_resume {pa : DWord} {n : Nat} {w : Bool} (hw : p.write = true → w = true) :
    exec (.translationAnswer f pasid pg (.translation pa n w)) s =
      .next ((s.cacheXlate { f, pasid, va := pg, log2 := n, pa, writable := w }).resumePark p).settle := by
  have hgrants : ¬ (p.write && !w) = true := by simpa using hw
  simp only [exec, execTranslationAnswer, hp, List.isEmpty_cons, Bool.false_and, Bool.false_eq_true, if_false, List.foldl_cons, List.foldl_nil,
    if_neg hgrants]

theorem exec_translationAnswer_noTranslation : exec (.translationAnswer f pasid pg .noTranslation) s = .next (s.pageOrFail p).settle := by
  simp only [exec, execTranslationAnswer, hp, List.foldl_cons, List.foldl_nil]

theorem exec_translationAnswer_error : exec (.translationAnswer f pasid pg .error) s = .next (s.failPark p).settle := by
  simp only [exec, execTranslationAnswer, hp, List.foldl_cons, List.foldl_nil]

end

/-- An answer for a page that a stream asked for ahead of its need is cached, and no stream waits on it. -/
theorem exec_translationAnswer_ahead {pa : DWord} {n : Nat} {w : Bool} (hnone : s.parksAt f pasid pg .translating = [])
    (hahead : s.askedAhead f pasid pg = true) : exec (.translationAnswer f pasid pg (.translation pa n w)) s =
      .next (s.cacheXlate { f, pasid, va := pg, log2 := n, pa, writable := w }).settle := by
  simp only [exec, execTranslationAnswer, hnone, hahead, List.isEmpty_nil, Bool.not_true, Bool.and_false, Bool.false_eq_true, if_false,
    List.foldl_nil]

section
variable (hp : s.parksAt f pasid pg .paging = [p])
include hp

theorem exec_prgResponse_success : exec (.prgResponse f pasid pg .success) s = .next (s.setPark p .waiting).settle := by
  simp only [exec, execPrgResponse, hp, List.foldl_cons, List.foldl_nil]

theorem exec_prgResponse_invalidRequest : exec (.prgResponse f pasid pg .invalidRequest) s = .next (s.failPark p).settle := by
  simp only [exec, execPrgResponse, hp, List.foldl_cons, List.foldl_nil]

theorem exec_prgResponse_responseFailure : exec (.prgResponse f pasid pg .responseFailure) s =
    .next ((s.setFunc f { s.func f with priStopped := true }).failPark p).settle := by
  simp only [exec, execPrgResponse, hp, List.foldl_cons, List.foldl_nil]

theorem exec_priTimeout : exec (.priTimeout f pasid pg) s = .next (s.failPark p).settle := by
  simp only [exec, execPriTimeout, hp, List.foldl_cons, List.foldl_nil]

end

/-! ## Invalidations (R356) -/

/-- The translation is one that an invalidation of function f and a PASID covers. -/
def Xlate.covered (f : Nat) (pasid : BitVec 20) (pg : DWord) (log2 : Nat) (x : Xlate) : Bool :=
  x.f == f && x.pasid == pasid && x.meets pg log2

theorem Xlate.covered_iff {log2 : Nat} {x : Xlate} : x.covered f pasid pg log2 = true ↔ x.f = f ∧ x.pasid = pasid ∧ x.meets pg log2 = true := by
  simp only [Xlate.covered, Bool.and_eq_true, beq_iff_eq, and_assoc]

/-- With no read outstanding an invalidation is answered at once. -/
theorem exec_atsInvalidate_idle {log2 : Nat} {itag : BitVec 5} (h : s.hreads = []) : exec (.atsInvalidate f pasid pg log2 itag) s =
    .next (({ s.count 0x240030 with xlates := s.xlates.filter (fun x => !x.covered f pasid pg log2) } : State).emit (.invalDone f itag)) := by
  simp only [exec, execAtsInvalidate, h, List.filter_nil, List.map_nil, List.isEmpty_nil, if_true, Xlate.covered]

/-! ## Host reads (R349) -/

section
variable {tag : Nat} {r : HRead} (hr : s.hreads.find? (fun r => r.tag == tag) = some r)
include hr

theorem exec_hostReadCompletion (bytes : List Byte) : exec (.hostReadCompletion tag bytes) s =
    .next ((s.readEnded tag).ticketData r.ticket r.off (bytes.take r.len)).settle := by
  simp only [exec, execHostReadCompletion, hr]

theorem exec_hostReadError (why : HostReadFail) : exec (.hostReadError tag why) s =
    .next (((s.readEnded tag).count 0x240038).ticketFail r.ticket stTranslation r.va 3).settle := by
  simp only [exec, execHostReadError, hr]

end

/-- Settles O47: each answer in the branch that what waits for it selects, and an invalidation that meets no read. (R348, R349, R353 to R357) -/
theorem hostMemoryAnswers : Obligations.HostMemoryAnswers := by
  intro s f pasid pg
  refine ⟨fun pa n w p hp => exec_translationAnswer_resume hp, fun pa n w => exec_translationAnswer_ahead, ?asked, ?paged, ?inval, ?read⟩
  case asked =>
    intro p hp
    exact ⟨exec_translationAnswer_noTranslation hp, exec_translationAnswer_error hp⟩
  case paged =>
    intro p hp
    exact ⟨exec_prgResponse_success hp, exec_prgResponse_invalidRequest hp, exec_prgResponse_responseFailure hp, exec_priTimeout hp⟩
  case inval =>
    intro log2 itag hidle
    refine ⟨_, exec_atsInvalidate_idle hidle, rfl, fun x hx => List.mem_of_mem_filter hx, fun x hx hcovered => ?_, rfl⟩
    have hkept : (!x.covered f pasid pg log2) = true := (List.mem_filter.1 hx).2
    rw [Xlate.covered_iff.2 hcovered] at hkept
    cases hkept
  case read =>
    intro tag r hr
    exact ⟨exec_hostReadCompletion hr, exec_hostReadError hr⟩

end Sys2Proof.Machine
end

section
/-! PROOFS. A step of the node: the command in front of the queue, or 1 ns. -/

namespace Sys2Proof.Machine

/-- Settles O1: the queue's front command is the one that `step_cons` runs. -/
theorem stepRunsFrontCommand : Obligations.StepRunsFrontCommand := fun c rest s => step_cons { s with pending := c :: rest } c rest rfl

theorem step_nil {s : State} (h : s.pending = []) : step s = .next { s with time := s.time + 1 } := by
  simp only [step, h]

/-- Settles O2: with no command in front, a step is the passing of 1 ns (log entry 3). -/
theorem emptyQueueIdles : Obligations.EmptyQueueIdles := fun _ h => step_nil h

end Sys2Proof.Machine
end

section
/-! PROOFS. Scheduling, token buckets, and the rings of samples and of faults (R378, R379, R381 to R385, R425 to R427). -/

namespace Sys2Proof.Machine

open Host (Outcome)

variable {s : State} {f g n : Nat}

/-! ## QUEUE_SCHED and buckets (R379, R381, R382) -/

/-- QUEUE_SCHED without a rate sets the weight of a queue that exists. -/
theorem exec_queueSched_weight (hgo : s.bit (page f 0x1060) 31 = false) (hg : s.globalQ f (s.fld (page f 0x1060) 0 14) = some g)
    (hcreated : (s.queue g).created = true) (hweight : s.fld (page f 0x1060) 16 4 ≠ 0) (hrate : s.bit (page f 0x1060) 21 = false) :
    exec (.queueSched f) s = .next ((((s.setQueue g { s.queue g with weight := s.fld (page f 0x1060) 16 4 }).setFld (page f 0x1060) 31 1 0).setResult
      (page f 0x1068) 1)).settle := by
  simp only [exec, execQueueSched, hgo, hg, hcreated, hrate, Bool.false_eq_true, if_false, Bool.not_true, if_neg hweight, Bool.false_and]

theorem exec_tokenBucketRefill_queue (s : State) (g n : Nat) : exec (.tokenBucketRefill (.queue g) n) s =
    .next (s.setQueue g { s.queue g with tokens := min ((s.queue g).tokens + n) (s.bucketDepth (.queue g)) }).settle := rfl

theorem exec_tokenBucketRefill_shaper (s : State) (f n : Nat) : exec (.tokenBucketRefill (.shaper f) n) s =
    .next (s.setFunc f { s.func f with tokens := min ((s.func f).tokens + n) (s.bucketDepth (.shaper f)) }).settle := rfl

/-- The instructions whose starts a bucket without 64 B holds back, as the statement lists them. -/
theorem exec_held (h : s.bucketsAllow g 64 = false) (c : Nat → Instr)
    (hc : c ∈ ([Instr.nop, .put, .puti, .get, .copy, .fadd, .cas, .signal, .mark, .wait, .fence, .flush, .ared, .snap] : List (Nat → Instr))) :
    exec (c g) s = .next s.settle := by
  have hheld := fun op why extra k => congrArg (fun u : State => Outcome.next (φ := Fault) (ρ := Refusal) u.settle)
    (s.startOp_held g op why extra k h)
  simp only [List.mem_cons, List.not_mem_nil, or_false] at hc
  rcases hc with rfl | rfl | rfl | rfl | rfl | rfl | rfl | rfl | rfl | rfl | rfl | rfl | rfl | rfl <;> exact hheld _ _ _ _

/-! ## Records that are dropped (R427) -/

/-- Faults that are lost change registers and counters alone. -/
theorem State.faultLosts_funcs (f : Nat) (l : List (Nat × List Byte)) (s : State) : (l.foldl (fun u x => u.faultLost f x.1) s).funcs = s.funcs := by
  induction l generalizing s with
  | nil => rfl
  | cons x l ih =>
    have hfuncs : (s.faultLost f x.1).funcs = s.funcs := by simp [State.faultLost]
    rw [List.foldl_cons, ih, hfuncs]

theorem State.recs_congr {s t : State} (h : t.funcs = s.funcs) (k : RecRing) (f : Nat) : t.recs k f = s.recs k f := by
  simp only [State.recs, State.func, h]

theorem State.recs_setFld (s : State) (a lo w v : Nat) (k : RecRing) (f : Nat) : (s.setFld a lo w v).recs k f = s.recs k f :=
  State.recs_congr (by simp) k f

theorem State.recs_setRecs (s : State) (k : RecRing) (f : Nat) (l : List (Nat × List Byte)) : (s.setRecs k f l).recs k f = l := by
  cases k <;> simp [State.recs, State.setRecs]

theorem State.recs_dropRecs (s : State) (k : RecRing) (f : Nat) : (s.dropRecs k f).recs k f = [] := by
  refine Eq.trans ?_ (s.recs_setRecs k f [])
  cases k with
  | fault => exact State.recs_congr (State.faultLosts_funcs f _ _) .fault f
  | sample => rfl

theorem State.dropRecs_calm (s : State) (k : RecRing) (f : Nat) : State.Calm s (s.dropRecs k f) := by
  have hforgot : State.Calm s { s.setRecs k f [] with parks := s.parks.filter (fun p => p.ticket != .ringRec k f) } := by
    simp [State.Calm, State.setRecs]
  cases k with
  | fault => exact List.foldlRecOn (motive := State.Calm s) _ _ hforgot fun u hu x _ => hu.trans (u.faultLost_calm f x.1)
  | sample => exact hforgot

/-! ## Rings that are enabled and disabled (R383, R425) -/

/-- A ring that starts, with its registers CTL and PI: its records are dropped, ENABLE reads 1 and PI 0. -/
def State.ringStarted (s : State) (k : RecRing) (f ctl pi : Nat) : State := ((s.dropRecs k f).setFld ctl 0 1 1).setReg pi 0

theorem State.ringStarted_spec (s : State) (k : RecRing) (f : Nat) {ctl pi : Nat} (hne : ctl ≠ pi) :
    (s.ringStarted k f ctl pi).bit ctl 0 = true ∧ (s.ringStarted k f ctl pi).reg pi = 0 ∧ (s.ringStarted k f ctl pi).recs k f = []
    ∧ (s.ringStarted k f ctl pi).queues = s.queues ∧ (s.ringStarted k f ctl pi).pool = s.pool := by
  obtain ⟨hpool, -, hqueues, -⟩ := s.dropRecs_calm k f
  refine ⟨?_, ?_, s.recs_dropRecs k f, hqueues, hpool⟩
  · refine Eq.trans ?_ ((s.dropRecs k f).bit_setFld_one ctl 0 (by decide))
    simp only [State.bit, State.fld, State.ringStarted, State.reg_setReg, if_neg hne]
  · rw [State.ringStarted, State.reg_setReg, if_pos rfl]

/-- A write of the function's entry that leaves its records. -/
theorem State.recs_setFunc (s : State) (k : RecRing) (f : Nat) (x : Func) (hfault : x.faultRecs = (s.func f).faultRecs)
    (hsample : x.sampleRecs = (s.func f).sampleRecs) : (s.setFunc f x).recs k f = s.recs k f := by
  cases k <;> simp [State.recs, hfault, hsample]

/-- The same of a ring that starts with such a write. -/
theorem State.ringStarted_setFunc_spec (s : State) (k : RecRing) (f : Nat) {ctl pi : Nat} (hne : ctl ≠ pi) (x : Func)
    (hfault : x.faultRecs = ((s.ringStarted k f ctl pi).func f).faultRecs) (hsample : x.sampleRecs = ((s.ringStarted k f ctl pi).func f).sampleRecs) :
    ((s.ringStarted k f ctl pi).setFunc f x).bit ctl 0 = true ∧ ((s.ringStarted k f ctl pi).setFunc f x).reg pi = 0
    ∧ ((s.ringStarted k f ctl pi).setFunc f x).func f = x ∧ ((s.ringStarted k f ctl pi).setFunc f x).recs k f = []
    ∧ ((s.ringStarted k f ctl pi).setFunc f x).queues = s.queues ∧ ((s.ringStarted k f ctl pi).setFunc f x).pool = s.pool := by
  obtain ⟨hbit, hpi, hrecs, hqueues, hpool⟩ := s.ringStarted_spec k f hne
  refine ⟨?_, ?_, ?_, (State.recs_setFunc _ k f x hfault hsample).trans hrecs, hqueues, hpool⟩
  · rw [State.bit, State.fld, (State.setFunc_reads _ f x).1]
    exact hbit
  · rw [(State.setFunc_reads _ f x).1, hpi]
  · rw [State.func_setFunc, if_pos rfl]

/-- A sample ring that is enabled, SNUM 0. -/
def State.sampleStarted (s : State) (f : Nat) : State :=
  let u := s.ringStarted .sample f (page f 0x108C) (page f 0x1094)
  u.setFunc f { u.func f with snum := 0 }

/-- A fault ring that is enabled, no message sent for it. -/
def State.faultqStarted (s : State) (f : Nat) : State :=
  let u := s.ringStarted .fault f (page f 0x190C) (page f 0x1914)
  u.setFunc f { u.func f with irqSent := false }

theorem exec_sampleEnable_on (h : s.fld (page f 0x108C) 1 2 ≤ 1) : exec (.sampleEnable f true) s = .next (s.sampleStarted f) :=
  congrArg Outcome.next (if_neg (Nat.not_lt.2 h))

theorem exec_sampleEnable_off : exec (.sampleEnable f false) s =
    .next ((s.setRecs .sample f ((s.recs .sample f).take 1)).setFld (page f 0x108C) 0 1 0) := rfl

theorem exec_samplePeriod_enabled (h : s.bit (page f 0x108C) 0 = true) :
    let u := s.setFunc f { s.func f with snum := (s.func f).snum + 1 }
    exec (.samplePeriod f) s = .next (u.sampleAll f (u.func f).snum (u.queuesOf f)) :=
  congrArg Outcome.next (if_pos h)

theorem exec_faultqEnable_on (h : s.fld (page f 0x190C) 1 2 ≤ 1) : exec (.faultqEnable f true) s = .next (s.faultqStarted f) := by
  have hsp : ¬ (s.fld (page f 0x190C) 1 2 = 3 ∨ (s.fld (page f 0x190C) 1 2 = 2 ∧ f ≠ 0)) := by omega
  exact congrArg Outcome.next (if_neg hsp)

/-- Settles O50: a ring that is enabled starts empty at PI 0, whichever it is, and no instruction starts on a bucket without 64 B.
(R378, R379, R381 to R385, R425 to R427; log entries 30, 76) -/
theorem schedulingAndRings : Obligations.SchedulingAndRings := by
  intro s f g n
  refine ⟨exec_queueSched_weight, exec_tokenBucketRefill_queue s g n, exec_tokenBucketRefill_shaper s f n, ?sample, ?stop,
    exec_samplePeriod_enabled, ?fault, exec_held⟩
  case sample =>
    intro hsp
    obtain ⟨hbit, hpi, hfunc, hkept⟩ := s.ringStarted_setFunc_spec .sample f (page_ne (f := f) (a := 0x108C) (b := 0x1094) (by decide))
      { (s.ringStarted .sample f (page f 0x108C) (page f 0x1094)).func f with snum := 0 } rfl rfl
    exact ⟨s.sampleStarted f, exec_sampleEnable_on hsp, hbit, hpi, congrArg Func.snum hfunc, hkept⟩
  case stop =>
    refine ⟨_, exec_sampleEnable_off, State.bit_setFld_zero _ (page f 0x108C) 0 (by decide), ?_⟩
    rw [State.recs_setFld, State.recs_setRecs]
  case fault =>
    intro hsp
    obtain ⟨hbit, hpi, hfunc, hkept⟩ := s.ringStarted_setFunc_spec .fault f (page_ne (f := f) (a := 0x190C) (b := 0x1914) (by decide))
      { (s.ringStarted .fault f (page f 0x190C) (page f 0x1914)).func f with irqSent := false } rfl rfl
    exact ⟨s.faultqStarted f, exec_faultqEnable_on hsp, hbit, hpi, congrArg Func.irqSent hfunc, hkept⟩

end Sys2Proof.Machine
end

section
/-! PROOFS. A query of a key slot that has changed hands, while a TAG of its former function still uses it (R376, R394, R395). -/

namespace Sys2Proof.Machine

open Host (Outcome)

variable {s : State} {f n : Nat}

/-! ## KEYSLOT_CMD (R395) -/

/-- The state in which a key slot command runs: KEYSLOT_CMD names its OP. -/
def State.keyslotOp (s : State) (f op : Nat) : State := s.setFld (page f 0x1340) 16 2 op

theorem State.keyslotCmd_slot {op : Nat} (hgo : s.bit (page f 0x1340) 31 = false)
    (hslot : (s.keyslotOp f op).kslotOf f ((s.keyslotOp f op).fld (page f 0x1340) 0 8) = some n) (k : State → Nat → State) :
    s.keyslotCmd f op k = k (s.keyslotOp f op) n := by
  unfold State.keyslotOp at hslot ⊢
  simp only [State.keyslotCmd, hgo, Bool.false_eq_true, if_false, hslot]

/-- To a query, a slot that waits for its former function's instructions is empty: RESULT 4. -/
theorem exec_keyslotQuery_emptied (hgo : s.bit (page f 0x1340) 31 = false)
    (hslot : (s.keyslotOp f 0).kslotOf f ((s.keyslotOp f 0).fld (page f 0x1340) 0 8) = some n)
    (hemptied : (s.keyslotOp f 0).slotEmptied true n (s.keyslotOp f 0).nextRid = true) :
    exec (.keyslotQuery f) s = .next ((s.keyslotOp f 0).keyslotDone f 4 0) :=
  congrArg Outcome.next ((State.keyslotCmd_slot hgo hslot _).trans (if_pos (Or.inr hemptied)))

theorem State.keyslotDone_result (s : State) (f : Nat) {res : Nat} (hres : res < 16) (kcv : DWord) :
    (s.keyslotDone f res kcv).fld (page f 0x1344) 8 4 = res :=
  (State.setResult_told _ (page f 0x1344) res hres).1.1

/-! ## A slot that has changed hands -/

/-- Function 0 has been granted key slot 0, which a COMMIT took from another function: it still holds that function's key, since the TAG that is run 0
still uses it (R376). -/
def slotInTransit : State :=
  { State.reset.setReg 0x1B0024 0x100 with
    kslots := [(0, { a := List.replicate 32 1, b := List.replicate 32 1 })]
    runs := [State.reset.newRun 1 { pos := 0, w := 0x4A, x := none } 0]
    nextRid := 1
    slotWaits := [(true, 0, [0])] }

/-- Refutes O51: of a slot that holds its former function's key until that function's TAGs have completed, a query answers that it is empty,
and not the key's check value. (R376, R394, R395) -/
theorem not_monitorsAndKeySlots : ¬ Obligations.MonitorsAndKeySlots := by
  intro h
  obtain ⟨-, -, -, -, hkeyslot⟩ := h slotInTransit 0 0
  have hgo : slotInTransit.bit (page 0 0x1340) 31 = false := by decide
  have hslot : (slotInTransit.keyslotOp 0 0).kslotOf 0 ((slotInTransit.keyslotOp 0 0).fld (page 0 0x1340) 0 8) = some 0 := by decide
  obtain ⟨hquery, -⟩ := hkeyslot 0 0 hgo hslot
  obtain ⟨t, ht, ⟨hdone, -⟩, -⟩ := hquery rfl (by decide)
  have hempty := exec_keyslotQuery_emptied hgo hslot (by decide)
  rw [← Outcome.next.inj (hempty.symm.trans ht), State.keyslotDone_result _ 0 (by decide)] at hdone
  exact absurd hdone (by decide)

end Sys2Proof.Machine
end

section
/-! PROOFS. The security commands outside RECOVERY: what each answers, writes and extends (R402, R403, R405, R406). -/

namespace Sys2Proof.Machine

open Host (Outcome)

variable {s : State}

/-! ## SEC_CMD (R406) -/

/-- The state in which a security command runs: SEC_CMD names its OP. -/
def State.secOp (s : State) (op : Nat) : State := s.setFld 0x8014 0 4 op

theorem State.secOp_reg (s : State) (op : Nat) {a : Nat} (ha : a ≠ 0x8014) : (s.secOp op).reg a = s.reg a := s.reg_setFld_ne _ _ _ ha

theorem State.secOp_inRecovery (s : State) (op : Nat) : (s.secOp op).inRecovery = s.inRecovery :=
  congrArg (fun w => extractBits w 0 1 == 1) (s.secOp_reg op (a := 0x8000) (by decide))

theorem State.secOp_hostReach (s : State) (op : Nat) : (s.secOp op).hostReach 0 = s.hostReach 0 :=
  congrArg (fun w => (extractBits w 8 3 != 0) && (s.func 0).busMaster) (s.secOp_reg op (a := 0x190000) (by decide))

theorem State.secHost_reached (h : s.hostReach 0 = true) (op : Nat) : (s.secOp op).secHost true = true := by
  rw [State.secHost, State.secOp_hostReach, h]
  rfl

theorem State.secOp_secArg (s : State) (op : Nat) : (s.secOp op).secArg = s.secArg := by
  have hword : ∀ i, (s.secOp op).reg (0x8040 + 4 * i) = s.reg (0x8040 + 4 * i) := fun i => s.secOp_reg op (by omega)
  simp only [State.secArg, hword]

/-- What a command leaves that answers RESULT res, bytes for its buffer, and state u. -/
def State.secAnswer (r : Nat × List Byte × State) : State :=
  (if r.2.1.isEmpty then r.2.2 else r.2.2.emit (.hostWrite 0 0 false (r.2.2.reg64 0x8008) r.2.1)).setResult 0x8018 r.1

/-- With GO 0 a command runs, and its answer is told. -/
theorem State.secCmd_idle (hgo : s.bit 0x8014 31 = false) (op : Nat) (k : State → Nat × List Byte × State) :
    s.secCmd op k = State.secAnswer (k (s.secOp op)) :=
  if_neg (Bool.eq_false_iff.1 hgo)

/-- RESULT as it is told from a state whose status register is that of s. -/
theorem State.secAnswer_told {u : State} (hreg : u.reg 0x8018 = s.reg 0x8018) {res : Nat} (hres : res < 16) :
    State.told s (u.setResult 0x8018 res) 0x8018 res :=
  State.told_congr hreg rfl (u.setResult_told 0x8018 res hres).1

/-- An image that names a component that there is. -/
theorem State.secUpdate_named (s : State) {img : List Byte} (hlen : 8193 ≤ img.length)
    (hcomp : hdrNat img 6 1 = 1 ∨ hdrNat img 6 1 = 2 ∨ hdrNat img 6 1 = 3) :
    s.secUpdate img true = if s.verifyImage (hdrNat img 6 1) img = 0 then (1, [], s.writeSlot (img.take (8192 + hdrNat img 16 8)))
      else (3, [], s.setFld 0x8000 4 4 (s.verifyImage (hdrNat img 6 1) img)) := by
  have hread : ¬ (img.length < 8193 ∨ (!true) = true) := by simpa using hlen
  simp only [State.secUpdate, if_neg hread, if_pos hcomp]

section
variable (hgo : s.bit 0x8014 31 = false)
include hgo

/-! ## ATTEST and CERTS (R405) -/

theorem exec_attest_fits (hlen : 8192 ≤ (s.secOp 0).secLen) (hreach : s.hostReach 0 = true) : exec (.attest true) s =
    .next (State.secAnswer (1, (s.secOp 0).attestReport (s.secOp 0).secArg, s.secOp 0)) := by
  have hfits : ¬ ((s.secOp 0).secLen < 8192 ∨ (!(s.secOp 0).secHost true) = true) := by
    rw [State.secHost_reached hreach]
    simpa using hlen
  exact congrArg Outcome.next ((State.secCmd_idle hgo 0 _).trans (congrArg State.secAnswer (if_neg hfits)))

/-- CERTS writes the certificates to a buffer that holds them. -/
theorem exec_certs_reached (hrun : s.inRecovery = false) (hreach : s.hostReach 0 = true) : exec (.certs true) s =
    .next (if (s.secOp 1).secLen < (s.secOp 1).certBytes.length then (s.secOp 1).setResult 0x8018 2
      else ((s.secOp 1).emit (.hostWrite 0 0 false ((s.secOp 1).reg64 0x8008) (s.secOp 1).certBytes)).setResult 0x8018 1) := by
  have hcerts : (s.secOp 1).secCerts (s.secOp 1).secLen ((s.secOp 1).secHost true) =
      if (s.secOp 1).secLen < (s.secOp 1).certBytes.length then (2, [], s.secOp 1) else (1, (s.secOp 1).certBytes, s.secOp 1) := by
    simp only [State.secCerts, State.secOp_inRecovery, hrun, State.secHost_reached hreach, Bool.false_eq_true, if_false, Bool.not_true, or_false]
  refine congrArg Outcome.next ((State.secCmd_idle hgo 1 _).trans ((congrArg State.secAnswer hcerts).trans ?_))
  split <;> rfl

/-! ## EXTEND (R403) -/

/-- The state in which EXTEND runs: SEC_CMD names its OP and its register. -/
def State.secExtendOp (s : State) (mr : BitVec 3) : State := (s.secOp 2).setFld 0x8014 4 3 mr.toNat

theorem exec_extend_idle (mr : BitVec 3) (hrun : s.inRecovery = false) : exec (.extend mr) s =
    .next (if mr.toNat = 6 ∨ mr.toNat = 7 then ((s.secExtendOp mr).extendMr mr.toNat s.secArg).setResult 0x8018 1
      else (s.secExtendOp mr).setResult 0x8018 4) := by
  have hrunThen : (s.secExtendOp mr).inRecovery = false := by
    rw [State.inRecovery, State.bit, State.secExtendOp, State.fld_setFld_ne _ _ _ _ _ _ _ _ (by decide)]
    exact (s.secOp_inRecovery 2).trans hrun
  have hextend : (s.secExtendOp mr).secExtend mr.toNat (s.secOp 2).secArg =
      if mr.toNat = 6 ∨ mr.toNat = 7 then (1, [], (s.secExtendOp mr).extendMr mr.toNat s.secArg) else (4, [], s.secExtendOp mr) := by
    simp only [State.secExtend, hrunThen, State.secOp_secArg, Bool.false_eq_true, if_false]
  refine congrArg Outcome.next ((State.secCmd_idle hgo 2 _).trans ((congrArg State.secAnswer hextend).trans ?_))
  split <;> rfl

/-! ## UPDATE (R402) -/

/-- An image of a component that there is, in a buffer that can be read, is verified, and written where it verifies. -/
theorem exec_update_reached (image : List Byte) (hlen : 8193 ≤ (image.take (s.secOp 3).secLen).length) (hreach : s.hostReach 0 = true)
    (hcomp : hdrNat (image.take (s.secOp 3).secLen) 6 1 = 1 ∨ hdrNat (image.take (s.secOp 3).secLen) 6 1 = 2
      ∨ hdrNat (image.take (s.secOp 3).secLen) 6 1 = 3) :
    let img := image.take (s.secOp 3).secLen
    exec (.update image true) s = .next (if (s.secOp 3).verifyImage (hdrNat img 6 1) img = 0
      then ((s.secOp 3).writeSlot (img.take (8192 + hdrNat img 16 8))).setResult 0x8018 1
      else ((s.secOp 3).setFld 0x8000 4 4 ((s.secOp 3).verifyImage (hdrNat img 6 1) img)).setResult 0x8018 3) := by
  intro img
  refine congrArg Outcome.next ((State.secCmd_idle hgo 3 _).trans ?_)
  rw [State.secHost_reached hreach, State.secUpdate_named (s.secOp 3) hlen hcomp]
  split <;> rfl

/-! ## ADVANCE_SVN (R402) -/

/-- The state after ADVANCE_SVN has raised the stored minimum, before its RESULT is told. -/
def State.svnAdvanced (s : State) : State :=
  ({ s.secOp 4 with sec := { (s.secOp 4).sec with svn := (s.secOp 4).runningSvn } } : State).setFld 0x8000 8 7 (s.secOp 4).runningSvn

theorem exec_advanceSvn_raises (hrun : s.inRecovery = false) (hlow : (s.secOp 4).sec.svn < (s.secOp 4).runningSvn) :
    exec .advanceSvn s = .next (s.svnAdvanced.setResult 0x8018 1) := by
  have hadvance : (s.secOp 4).secAdvance = (1, [], s.svnAdvanced) := by
    simp only [State.secAdvance, State.secOp_inRecovery, hrun, Bool.false_eq_true, if_false, if_pos hlow, State.svnAdvanced]
  exact congrArg Outcome.next ((State.secCmd_idle hgo 4 _).trans (congrArg State.secAnswer hadvance))

end

/-! ## What EXTEND and ADVANCE_SVN leave (R402, R403) -/

theorem State.regs_secExtendOp (s : State) (mr : BitVec 3) : ∃ rs, s.secExtendOp mr = { s with regs := rs } :=
  State.setFld_of_regs (s.regs_setFld 0x8014 0 4 2) 0x8014 4 3 mr.toNat

theorem State.secExtendOp_reg (s : State) (mr : BitVec 3) {a : Nat} (ha : a ≠ 0x8014) : (s.secExtendOp mr).reg a = s.reg a :=
  (State.reg_setFld_ne _ _ _ _ ha).trans (s.secOp_reg 2 ha)

theorem State.svnAdvanced_reg (s : State) : s.svnAdvanced.reg 0x8018 = s.reg 0x8018 :=
  (State.reg_setFld_ne _ _ _ _ (by decide)).trans (s.secOp_reg 4 (by decide))

theorem State.svnAdvanced_frame (s : State) : ∃ rs sec, s.svnAdvanced = { s with regs := rs, sec } ∧ sec.svn = (s.secOp 4).runningSvn := by
  obtain ⟨rs, hset⟩ := State.regs_setFld { s.secOp 4 with sec := { (s.secOp 4).sec with svn := (s.secOp 4).runningSvn } } 0x8000 8 7
    (s.secOp 4).runningSvn
  obtain ⟨rs', hop⟩ := s.regs_setFld 0x8014 0 4 4
  refine ⟨rs, { (s.secOp 4).sec with svn := (s.secOp 4).runningSvn }, ?_, rfl⟩
  rw [State.svnAdvanced, hset]
  simp only [State.secOp, hop]

/-- An extension of MR6 or MR7 that is told: the register is extended, the others stay, and nothing else but registers changes. -/
theorem exec_extend_told (mr : BitVec 3) (hgo : s.bit 0x8014 31 = false) (hrun : s.inRecovery = false) (hmr : mr = 6 ∨ mr = 7) :
    ∃ t : State, exec (.extend mr) s = .next t ∧ State.told s t 0x8018 1
      ∧ t.mr mr.toNat = sha3_512 (s.mr mr.toNat ++ s.secArg) ∧ (∀ i, i ≠ mr.toNat → t.mr i = s.mr i)
      ∧ { t with regs := s.regs, mrs := s.mrs } = s := by
  have hnum : mr.toNat = 6 ∨ mr.toNat = 7 := hmr.imp (congrArg BitVec.toNat) (congrArg BitVec.toNat)
  have htold : State.told s (((s.secExtendOp mr).extendMr mr.toNat s.secArg).setResult 0x8018 1) 0x8018 1 :=
    State.secAnswer_told (s.secExtendOp_reg mr (by decide)) (by decide)
  have hexec := (exec_extend_idle hgo mr hrun).trans (congrArg Outcome.next (if_pos hnum))
  obtain ⟨rs, hop⟩ := s.regs_secExtendOp mr
  obtain ⟨rs', hset⟩ := ((s.secExtendOp mr).extendMr mr.toNat s.secArg).regs_setResult 0x8018 1
  rw [hset, hop] at hexec htold
  refine ⟨_, hexec, htold, ?_, fun i hi => ?_, rfl⟩
  · simp [State.mr, State.extendMr]
  · simp [State.mr, State.extendMr, hi]

/-- Settles O52: each command with GO 0 outside RECOVERY, by what its own test finds. (R402, R403, R405, R406) -/
theorem securityCommands : Obligations.SecurityCommands := by
  intro s hgo hrun a
  refine ⟨exec_attest_fits hgo, exec_certs_reached hgo hrun, fun mr hmr => exec_extend_told mr hgo hrun hmr, ?refused,
    fun image => exec_update_reached hgo image, ?advance⟩
  case refused =>
    intro mr h6 h7
    have hother : ¬ (mr.toNat = 6 ∨ mr.toNat = 7) := by bv_omega
    have hexec := (exec_extend_idle hgo mr hrun).trans (congrArg Outcome.next (if_neg hother))
    have htold := State.secAnswer_told (s := s) (s.secExtendOp_reg mr (by decide)) (res := 4) (by decide)
    obtain ⟨rs, hop⟩ := State.regs_trans (s.regs_secExtendOp mr) (State.regs_setResult _ 0x8018 4)
    rw [hop] at hexec htold
    exact ⟨_, hexec, htold, rfl⟩
  case advance =>
    intro hlow
    have hexec := exec_advanceSvn_raises hgo hrun hlow
    have htold := State.secAnswer_told (s := s) s.svnAdvanced_reg (res := 1) (by decide)
    obtain ⟨rs, sec, hadvanced, hsvn⟩ := s.svnAdvanced_frame
    obtain ⟨rs', hset⟩ := s.svnAdvanced.regs_setResult 0x8018 1
    rw [hset, hadvanced] at hexec htold
    exact ⟨_, hexec, htold, hsvn, rfl⟩

end Sys2Proof.Machine
end

section
/-! PROOFS. The bit aliases of the block-control windows (R5, R409, R414, R415). -/

namespace Sys2Proof.Machine

/-- The word that stands for bit b of the register at offset o of the window that WIN selects (R414). -/
def aliasWord (o b : Nat) : Nat := 0x800000 + (o * 32 + b) * 4

/-- The register at offset o of window win of block control (R408, R414). -/
def aliasReg (win o : Nat) : Nat := 0x100000 + 0x10000 * win + o

variable {s : State} {o b : Nat}

theorem aliasWord_index (o : Nat) (hb : b < 32) : (aliasWord o b - 0x800000) / 4 / 32 = o ∧ (aliasWord o b - 0x800000) / 4 % 32 = b := by
  unfold aliasWord
  omega

theorem aliasWord_range (ho : o < 0x10000) (hb : b < 32) :
    0x800000 ≤ aliasWord o b ∧ aliasWord o b < 0x1000000 ∧ aliasWord o b % 4 = 0 := by
  unfold aliasWord
  omega

/-- Behind the word that stands for a bit lies that bit of the register of the window selected. -/
theorem State.aliasOf_aliasWord (s : State) (h4 : o % 4 = 0) (hb : b < 32) :
    s.aliasOf (aliasWord o b) = some (aliasReg (s.fld 0x110 0 4) o, b) := by
  obtain ⟨hreg, hbit⟩ := aliasWord_index o hb
  simp only [State.aliasOf, hreg, hbit, h4, if_true, aliasReg]

/-- Read as an equation of functions, as in `State.Canon.aliasWrite`: the kernel is not to compute the address of the bit. -/
theorem State.aliasWrite_of_aliasOf {addr a : Nat} (v : Word) (halias : s.aliasOf addr = some (a, b))
    (hbit : (accMask (fun _ => true) a).getLsbD b = true) :
    s.aliasWrite addr v = s.wordWrite 0 a (if v.getLsbD 0 then bitMask b 1 else 0) (bitMask b 1) := by
  have hfun : ∀ F, F = State.aliasWrite → F s addr v = s.wordWrite 0 a (if v.getLsbD 0 then bitMask b 1 else 0) (bitMask b 1) := by
    delta State.aliasWrite
    rintro _ rfl
    beta_reduce
    rw [halias]
    exact if_pos hbit
  exact hfun _ rfl

/-- A write of a word that stands for a bit writes that bit alone, where that bit is not reserved (R414, R415). -/
theorem exec_aliasWrite_bit (v : Word) (ho : o < 0x10000) (h4 : o % 4 = 0) (hb : b < 32)
    (hbit : (accMask (fun _ => true) (aliasReg (s.fld 0x110 0 4) o)).getLsbD b = true) :
    exec (.aliasWrite (aliasWord o b) v) s =
      .next (s.wordWrite 0 (aliasReg (s.fld 0x110 0 4) o) (if v.getLsbD 0 then bitMask b 1 else 0) (bitMask b 1)) :=
  congrArg Host.Outcome.next
    ((if_pos (aliasWord_range ho hb)).trans (State.aliasWrite_of_aliasOf v (s.aliasOf_aliasWord h4 hb) hbit))

/-! ## A write of GLOBAL_ALIAS_WIN (R414) -/

/-- GLOBAL_ALIAS_WIN has one field to write, WIN in bits 3 to 0. -/
theorem accMask_aliasWin : accMask (fun x => x == .rw || x == .wo) 0x110 = bitMask 0 4 := rfl

/-- A write of GLOBAL_ALIAS_WIN starts nothing. -/
theorem State.regWrite_aliasWin (s : State) (v : Word) : s.regWrite 0 0x110 v = s.plainWrite 0x110 v (BitVec.allOnes 32) := rfl

theorem State.regWrite_aliasWin_fld (s : State) {win : Nat} (hwin : win < 16) : (s.regWrite 0 0x110 (BitVec.ofNat 32 win)).fld 0x110 0 4 = win := by
  rw [State.regWrite_aliasWin, State.fld, State.plainWrite_reg, accMask_aliasWin, BitVec.allOnes_and, extractBits_merge _ _ _ _ (by decide),
    extractBits, BitVec.toNat_ofNat]
  omega

/-- Settles O53: the index of a word of the window of bits is its register's offset and its bit, and the write of WIN is one of a field. (R414, R415) -/
theorem aliasBits : Obligations.AliasBits := by
  intro s o b ho h4 hb r
  refine ⟨s.aliasOf_aliasWord h4 hb, fun v hbit => exec_aliasWrite_bit v ho h4 hb hbit, fun win hwin => ⟨_, rfl, ?_⟩, fun v w rest hbit => ?_⟩
  · rw [show 0x800000 + (o * 32 + b) * 4 = aliasWord o b from rfl, State.aliasOf_aliasWord _ h4 hb, State.regWrite_aliasWin_fld s hwin]
    rfl
  · exact exec_aliasWrite_bit (s := { s with pending := .registerWrite 0 0x110 w :: rest }) v ho h4 hb hbit

end Sys2Proof.Machine
end

section
/-! PROOFS. COMMIT and DISCARD: the status that each tells, and what an accepted set, an empty one and a wrong GEN do (R410, R412, R413). -/

namespace Sys2Proof.Machine

variable {s : State} {gen : BitVec 16}

/-! ## GLOBAL_COMMIT_STATUS (R410) -/

theorem State.commitStatus_told (s : State) {res blk : Nat} (hres : res < 16) (hblk : blk < 16) :
    State.told s (s.commitStatus res blk) 0x108 res ∧ (s.commitStatus res blk).fld 0x108 12 4 = blk := by
  refine ⟨⟨?_, ?_⟩, ?_⟩
  · rw [State.commitStatus, State.bumpSeq, State.fld_setFld_other _ _ _ _ _ _ _ (by omega) (by omega),
      State.fld_setFld_other _ _ _ _ _ _ _ (by omega) (by omega), State.fld_setFld _ _ _ _ _ (by omega)]
    omega
  · rw [State.commitStatus, State.bumpSeq, State.fld_setFld _ _ _ _ _ (by omega),
      State.fld_setFld_other _ _ _ _ _ _ _ (by omega) (by omega), State.fld_setFld_other _ _ _ _ _ _ _ (by omega) (by omega)]
    rfl
  · rw [State.commitStatus, State.bumpSeq, State.fld_setFld_other _ _ _ _ _ _ _ (by omega) (by omega), State.fld_setFld _ _ _ _ _ (by omega)]
    omega

theorem State.commitStatus_reg (s : State) (res blk : Nat) {a : Nat} (ha : a ≠ 0x108) : (s.commitStatus res blk).reg a = s.reg a := by
  simp only [State.commitStatus, State.bumpSeq, State.reg_setFld, if_neg ha]

/-- The status is told in the register file alone. -/
theorem State.regs_commitStatus (s : State) (res blk : Nat) : ∃ rs, s.commitStatus res blk = { s with regs := rs } :=
  State.regs_trans (State.setFld_of_regs (s.regs_setFld 0x108 8 4 res) 0x108 12 4 blk) (State.regs_bumpSeq _ 0x108)

/-! ## COMMIT (R412) -/

/-- A set that every block accepts is applied. -/
theorem State.commit_accepted (h : (s.blockChecks s.candidate).all (fun b => b.2.2.2.2.1 == 1) = true) :
    s.commit = ((s.commitApply s.candidate).blockStatus (s.blockChecks s.candidate)).settle := by
  have hnone : (s.blockChecks s.candidate).find? (fun b => b.2.2.2.2.1 != 1) = none := by
    refine List.find?_eq_none.2 fun b hb => ?_
    simpa using List.all_eq_true.1 h b hb
  simp only [State.commit, hnone]

section
variable (hstaged : s.staged = [])
include hstaged

theorem State.stagedWords_empty : s.stagedWords = [] := by
  simp only [State.stagedWords, hstaged, List.filterMap_nil]

theorem State.stages_empty (win : Nat) : s.stages win = false := by
  simp only [State.stages, State.stagedWords_empty hstaged, List.any_nil]

theorem State.blockChecks_empty (t : State) : s.blockChecks t = [] := by
  simp only [State.blockChecks, State.stages_empty hstaged]
  rfl

theorem State.candidate_empty : s.candidate = s := by
  simp only [State.candidate, State.stagedWords_empty hstaged, List.foldl_nil]

theorem State.stagedFuncs_empty : s.stagedFuncs = [] := by
  simp only [State.stagedFuncs, State.stagedWords_empty hstaged, List.any_nil]
  exact List.filter_eq_nil_iff.2 fun _ _ hf => Bool.false_ne_true hf

/-- With nothing staged an accepted set writes CURRENT and GLOBAL_COMMIT_STATUS alone. -/
theorem State.commitApply_empty : (s.commitApply s).regs = ((s.setFld 0x100 0 16 (s.fld 0x100 0 16 + 1)).commitStatus 1 0).regs := by
  simp only [State.commitApply, State.stages_empty hstaged, Bool.false_eq_true, if_false, State.stagedFuncs_empty hstaged, List.foldl_nil,
    State.commitStore]
  split <;> rfl

/-- With nothing staged a COMMIT is accepted with no block's word. -/
theorem State.commit_empty : s.commit = (s.commitApply s).settle := by
  have haccepted : (s.blockChecks s.candidate).all (fun b => b.2.2.2.2.1 == 1) = true := by rw [State.blockChecks_empty hstaged]; rfl
  rw [State.commit_accepted haccepted, State.blockChecks_empty hstaged, State.candidate_empty hstaged]
  rfl

theorem State.commitApply_empty_told : (s.commitApply s).fld 0x100 0 16 = (s.fld 0x100 0 16 + 1) % 2 ^ 16
    ∧ State.told s (s.commitApply s) 0x108 1 ∧ (s.commitApply s).fld 0x108 12 4 = 0 := by
  have hreg := fun a => State.reg_congr (State.commitApply_empty hstaged) a
  obtain ⟨htold, hblock⟩ := (s.setFld 0x100 0 16 (s.fld 0x100 0 16 + 1)).commitStatus_told (res := 1) (blk := 0) (by decide) (by decide)
  refine ⟨?_, State.told_congr ?_ (hreg _) htold, ?_⟩
  · rw [State.fld, hreg, State.commitStatus_reg _ _ _ (by decide)]
    exact s.fld_setFld 0x100 0 16 _ (by decide)
  · rw [State.reg_setFld, if_neg (by decide)]
  · rw [State.fld, hreg]
    exact hblock

end

/-! ## The writes of GLOBAL_COMMIT (R412, R413) -/

section
variable (hidle : s.bit 0x100 16 = false)
include hidle

theorem exec_globalCommit_current (hgen : gen.toNat = (s.fld 0x100 0 16 + 1) % 2 ^ 16) : exec (.globalCommit gen) s = .next s.commit :=
  congrArg Host.Outcome.next ((s.commitWrite_spec gen State.commit).2.2 hidle hgen)

theorem exec_globalDiscard_current (hgen : gen.toNat = (s.fld 0x100 0 16 + 1) % 2 ^ 16) :
    exec (.globalDiscard gen) s = .next (({ s with staged := [] } : State).commitStatus 4 0) :=
  congrArg Host.Outcome.next ((s.commitWrite_spec gen _).2.2 hidle hgen)

/-- Any other GEN is counted and answered GEN_STALE, of a COMMIT and of a DISCARD alike. -/
theorem exec_globalCommit_stale (hgen : gen.toNat ≠ (s.fld 0x100 0 16 + 1) % 2 ^ 16) :
    exec (.globalCommit gen) s = .next ((s.count 0x200020).commitStatus 3 0)
    ∧ exec (.globalDiscard gen) s = .next ((s.count 0x200020).commitStatus 3 0) :=
  ⟨congrArg Host.Outcome.next ((s.commitWrite_spec gen State.commit).2.1 hidle hgen),
    congrArg Host.Outcome.next ((s.commitWrite_spec gen _).2.1 hidle hgen)⟩

end

/-- Settles O54: a write of GLOBAL_COMMIT by its GEN, and a COMMIT by what its blocks find. (R410, R412, R413) -/
theorem commitAndDiscard : Obligations.CommitAndDiscard := by
  intro s gen hidle
  refine ⟨fun hgen hall => ?accepted, fun hgen hstaged => ?empty, fun hgen => ?discard, fun hgen => ?stale⟩
  case accepted => rw [exec_globalCommit_current hidle hgen, State.commit_accepted hall]
  case empty =>
    obtain ⟨hcurrent, htold, hblock⟩ := State.commitApply_empty_told hstaged
    refine ⟨s.commitApply s, ?_, hcurrent.trans hgen.symm, htold, hblock⟩
    rw [exec_globalCommit_current hidle hgen, State.commit_empty hstaged]
  case discard =>
    have htold := (({ s with staged := [] } : State).commitStatus_told (res := 4) (blk := 0) (by decide) (by decide)).1
    have hreg := fun x (hx : x ≠ 0x108) => ({ s with staged := [] } : State).commitStatus_reg 4 0 hx
    obtain ⟨regs, hframe⟩ := ({ s with staged := [] } : State).regs_commitStatus 4 0
    rw [hframe] at htold hreg
    refine ⟨{ s with staged := [], regs }, ?_, rfl, State.told_congr rfl rfl htold, hreg, rfl⟩
    rw [exec_globalDiscard_current hidle hgen, hframe]
  case stale =>
    have htold := ((s.count 0x200020).commitStatus_told (res := 3) (blk := 0) (by decide) (by decide)).1
    obtain ⟨hcommit, hdiscard⟩ := exec_globalCommit_stale hidle hgen
    obtain ⟨regs, hframe⟩ := (s.count 0x200020).regs_commitStatus 3 0
    rw [hframe] at htold hcommit hdiscard
    refine ⟨_, hcommit, hdiscard, rfl, State.told_congr ((s.count_reads 0x200020 1).1 0x108) rfl htold, ?_⟩
    exact (s.counter_count 0x200020 1 0x200020).trans (if_pos rfl)

end Sys2Proof.Machine
end

section
/-! PROOFS. Status registers, freezes of the readable counters, and captures of them (R411, R418, R419). -/

namespace Sys2Proof.Machine

variable {s : State}

/-! ## Freezes (R410, R419) -/

/-- What a freeze holds: the counters, and the histograms of the queues that exist. -/
def State.toFreeze (s : State) : Frozen := { ev := s.ev, hist := (s.queues.filter (fun q => q.2.created)).map (fun q => (q.1, q.2.hist)) }

/-- The state in which a freeze has begun: FREEZE reads 1, EXPIRED 0, and every readable value is held as it stands. -/
def State.freezing (s : State) : State := { (s.setFld 0x120 0 1 1).setFld 0x120 1 1 0 with frozen := some s.toFreeze }

theorem State.freezing_frozen (s : State) : s.freezing.frozen = some s.toFreeze := rfl

theorem State.freezing_bits (s : State) : s.freezing.bit 0x120 0 = true ∧ s.freezing.bit 0x120 1 = false :=
  ⟨(State.bit_setFld_other _ 0x120 1 0 0 (by decide) (by decide)).trans (s.bit_setFld_one 0x120 0 (by decide)),
    State.bit_setFld_zero _ 0x120 1 (by decide)⟩

theorem exec_cntFreeze_begin (h : s.frozen = none) : exec (.cntFreeze true) s = .next s.freezing := by
  have hopen : ¬ ((s.setFld 0x120 0 1 1).setFld 0x120 1 1 0).frozen.isSome = true := by
    rw [show ((s.setFld 0x120 0 1 1).setFld 0x120 1 1 0).frozen = s.frozen from rfl, h]
    exact Bool.false_ne_true
  exact congrArg Host.Outcome.next (if_neg hopen)

theorem exec_cntFreeze_end : exec (.cntFreeze false) s = .next { s.setFld 0x120 0 1 0 with frozen := none } := rfl

theorem exec_freezeExpire_frozen (h : s.bit 0x120 0 = true) :
    exec .freezeExpire s = .next { (s.setFld 0x120 0 1 0).setFld 0x120 1 1 1 with frozen := none } :=
  congrArg Host.Outcome.next (if_pos h)

/-- While counters are held, what is read is what was held. -/
theorem State.liveCounter_frozen {z : Frozen} (h : s.frozen = some z) (a : Nat) : s.liveCounter a = Tab.get (fun _ => 0) z.ev a := by
  rw [State.liveCounter, h]
  rfl

/-- Counting does not reach what is held. -/
theorem State.liveCounter_count_frozen {z : Frozen} (h : s.frozen = some z) (a n b : Nat) :
    (s.count a n).liveCounter b = Tab.get (fun _ => 0) z.ev b := State.liveCounter_frozen (s := s.count a n) h b

/-- While none is held, what is read is what has been counted. -/
theorem State.liveCounter_running (h : s.frozen = none) (a : Nat) : s.liveCounter a = s.counter a := by
  rw [State.liveCounter, h]
  rfl

/-! ## Captures (R418) -/

/-- A capture of function f, before its status register tells of it. -/
def State.captured (s : State) (f : Nat) : State := { s with snaps := Tab.put (fun _ => []) s.snaps f (s.capture f) }

theorem exec_cntSnap (f : Nat) : exec (.cntSnap f) s = .next ((s.captured f).setFld (page f 0x1700) 8 8 (s.fld (page f 0x1700) 8 8 + 1)) := rfl

/-! ## Writes of SEQ (R411) -/

theorem State.noteReserved_none {a : Nat} {v : Word} (m : Word) (h : v &&& ~~~ accMask (fun _ => true) a = 0) : s.noteReserved a v m = s := by
  have hnone : v &&& m &&& ~~~ accMask (fun _ => true) a = 0 := by
    rw [BitVec.and_assoc, BitVec.and_comm m, ← BitVec.and_assoc, h]
    exact BitVec.zero_and
  exact if_pos hnone

/-- A write of a status register's SEQ without reserved bits, by the physical function. -/
theorem exec_statusSeqWrite {a : Nat} {m v : Word} (hclear : seqClear a = some m) (hres : v &&& ~~~ accMask (fun _ => true) a = 0) :
    exec (.statusSeqWrite 0 a v) s = .next (if extractBits v 0 8 = s.fld a 0 8 then s.setReg a (s.reg a &&& ~~~ m) else s) := by
  simp only [exec, execStatusSeqWrite, State.noteReserved_none _ hres, State.seqWrite, hclear]
  rfl

/-- Settles O55: a freeze holds a copy of the counters, which a count does not reach; a write of SEQ clears where it equals SEQ.
(R411, R418, R419; log entries 22, 50) -/
theorem statusRegistersAndFreezes : Obligations.StatusRegistersAndFreezes := by
  refine ⟨fun s f => ⟨fun hopen => ?freeze, exec_freezeExpire_frozen, _, exec_cntSnap f, rfl, ?snap, ?frame⟩,
    fun s a m v hclear hres => ⟨?same, ?other⟩⟩
  case freeze =>
    obtain ⟨hfreeze, hexpired⟩ := s.freezing_bits
    exact ⟨_, exec_cntFreeze_begin hopen, hfreeze, hexpired, State.liveCounter_frozen s.freezing_frozen,
      State.liveCounter_count_frozen s.freezing_frozen, _, exec_cntFreeze_end, State.bit_setFld_zero _ 0x120 0 (by decide),
      State.liveCounter_running rfl⟩
  case snap => exact State.fld_setFld _ (page f 0x1700) 8 8 _ (by decide)
  case frame => simp only [State.captured, State.setFld, State.setReg]
  case same =>
    intro hseq
    rw [exec_statusSeqWrite hclear hres, if_pos hseq]
  case other =>
    intro hseq
    rw [exec_statusSeqWrite hclear hres, if_neg hseq]

end Sys2Proof.Machine
end

section
/-! PROOFS. Resets of the node, readiness, cast-on and the management key (R439, R442 to R445, R452, R453, R457). -/

namespace Sys2Proof.Machine

variable {s : State} {boot : FlashRead}

/-! ## Cold resets (R439, R442, R443, R452, R457) -/

theorem exec_rstCtl_code : exec (.rstCtl 0 0xC01D5E70) s = .next (s.coldReset .register { slotA := true, slotB := true }) :=
  congrArg Host.Outcome.next (if_pos ⟨rfl, rfl⟩)

theorem exec_nodeResetN_powered (hon : s.pwr.state ≠ .off) : exec (.nodeResetN boot) s = .next (s.coldReset .resetPin boot) :=
  congrArg Host.Outcome.next (if_neg fun hoff => hon hoff.1)

theorem exec_powerOn_off (hoff : s.pwr.state = .off) (hpresent : s.pwr.present = true) (hlatch : s.pwr.latched = false) :
    exec (.powerOn boot) s = .next (s.coldReset .powerOn boot) := by
  have hstart : (s.pwr.state == .off && s.pwr.present && !s.pwr.latched) = true := by rw [hoff, hpresent, hlatch]; rfl
  exact congrArg Host.Outcome.next (if_pos hstart)

theorem exec_wakeMatch_standby {frame : List Byte} {i : Nat} (hi : i < 8) (hstandby : s.pwr.state = .standby)
    (hmatch : s.wakeMatches i frame = true) : exec (.wakeMatch frame boot) s = .next (s.coldReset .wake boot) := by
  have hany : (List.range 8).any (fun i => s.wakeMatches i frame) = true := List.any_eq_true.2 ⟨i, List.mem_range.2 hi, hmatch⟩
  have hwake : (s.pwr.state == .standby && (List.range 8).any (fun i => s.wakeMatches i frame)) = true := by rw [hstandby, hany]; rfl
  exact congrArg Host.Outcome.next (if_pos hwake)

/-! ## Readiness and cast-on (R443 to R445) -/

theorem exec_poolReady_comes (h : s.poolReady = false) : exec .poolReady s = .next s.poolComesReady.winRelease.settle :=
  congrArg Host.Outcome.next (if_neg (Bool.eq_false_iff.1 h))

/-- Casting on ends in STAGE 4, with the year count begun. -/
theorem exec_castOnSend_ready (h : s.mayCastOn = true) :
    ∃ t : State, exec .castOnSend s = .next t ∧ t.fld 0x200 8 4 = 4 ∧ t.firstCastOn.isSome = true := by
  refine ⟨_, congrArg Host.Outcome.next (if_pos h), ?_, rfl⟩
  rw [State.fld_bumpSeq_above _ 0x200 (by decide) (by decide), State.fld_setFld _ _ _ _ _ (by decide)]
  rfl

/-- A CAST_ON with an FSEQ above the last one seen from its source is acted on and passed on. -/
theorem exec_castOn_fresh (s : State) (p : Nat) (h : Hdr) (n : NoticeF) :
    let a := s.consume { hdr := h, body := .notice .castOn n, payload := [] }
    a.boundOff = false → n.subject.toNat ≠ a.self → Tab.get (fun _ => 0) a.fseqSeen (noticeCode .castOn * 2 ^ 20 + n.subject.toNat) < n.fseq →
      exec (.castOn p h n) s = .next (((a.noteFseq .castOn n.subject n).actCastOn n.subject).forwardNotice p .castOn h n).settle := by
  intro a hbound hself hfresh
  refine congrArg Host.Outcome.next (if_neg ?_)
  rintro (hoff | hown | ⟨-, hstale⟩)
  · exact Bool.eq_false_iff.1 hbound hoff
  · exact hself hown
  · exact BitVec.not_le.2 hfresh hstale

/-! ## The management key (R451, R453) -/

/-- LOAD keeps MGT_KEY as the key, tells KEY_VALID, and clears the registers. -/
theorem exec_mgtKeyLoad_key (s : State) : ∃ t : State, exec .mgtKeyLoad s = .next t ∧ t.mgt.key = some s.mgtKeyBytes ∧ t.bit 0x410 12 = true
    ∧ ∀ i, i < 8 → t.reg (0x500 + 4 * i) = 0 := by
  refine ⟨_, rfl, rfl, ?_, fun i hi => ?_⟩
  · exact State.bit_setFld_one _ 0x410 12 (by decide)
  · rw [State.reg_setFld, if_neg (by omega)]
    exact State.reg_setRegs _ (a := fun i => 0x500 + 4 * i) (fun _ => 0) (List.nodup_range.imp fun hne => by omega) (List.mem_range.2 hi)

/-- Settles O56: each reset, and each of the others in the branch that its hypotheses select. (R439, R442, R443, R444, R445, R452, R453, R457) -/
theorem nodeResets : Obligations.NodeResets := by
  intro s boot
  refine ⟨fun cause => rfl, exec_rstCtl_code, exec_nodeResetN_powered, exec_powerOn_off, fun frame => exec_wakeMatch_standby (by decide),
    exec_poolReady_comes, exec_castOnSend_ready, exec_castOn_fresh s, exec_mgtKeyLoad_key s, _, rfl, rfl, ?_, rfl⟩
  exact State.bit_setFld_zero _ 0x410 12 (by decide)

end Sys2Proof.Machine
end

section
/-! PROOFS. The power controller: the evaluation of the throttle, the limits of its environment, and presence (R439, R456, R457, R459, R460). -/

namespace Sys2Proof.Machine

open Host (Outcome)

variable {s : State} {x : Sensors}

/-! ## A step change of the throttle (R459) -/

theorem State.regs_setThrottle (s : State) (step cause : Nat) : ∃ rs, s.setThrottle step cause = { s with regs := rs } :=
  State.regs_trans (State.setFld_of_regs (s.regs_setFld 0x208 10 4 step) 0x604 8 2 cause) (State.regs_bumpSeq _ 0x604)

theorem State.throttle_setThrottle (s : State) {step : Nat} (cause : Nat) (h : step < 16) : (s.setThrottle step cause).throttle = step := by
  rw [State.throttle, State.setThrottle, State.bumpSeq, State.fld_setFld_ne _ _ _ _ _ _ _ _ (by decide),
    State.fld_setFld_ne _ _ _ _ _ _ _ _ (by decide), State.fld_setFld _ _ _ _ _ (by decide)]
  exact Nat.mod_eq_of_lt h

theorem State.cause_setThrottle (s : State) (step : Nat) {cause : Nat} (h : cause < 4) : (s.setThrottle step cause).fld 0x604 8 2 = cause := by
  rw [State.setThrottle, State.fld_bumpSeq_above _ _ (by decide) (by decide), State.fld_setFld _ _ _ _ _ (by decide)]
  exact Nat.mod_eq_of_lt h

/-! ## What the evaluation shows before it decides (R459) -/

/-- The state in which the evaluation decides: the sensors are shown, the time under a throttle is counted, and the tier is paused by its heat. -/
def State.sensed (s : State) (x : Sensors) : State :=
  let u := s.showSensors x
  let u := if u.throttle > 0 then u.count 0x200158 100 else u
  { u with pwr := { u.pwr with nandPaused := if 80 ≤ x.nand then true else if x.nand < 75 then false else u.pwr.nandPaused } }

/-- Showing the sensors writes PWR_MEAS and THERM_STATUS alone. -/
theorem State.reg_showSensors (s : State) (x : Sensors) {a : Nat} (hpwr : a ≠ 0x608) (hth : a ≠ 0x60C) : (s.showSensors x).reg a = s.reg a := by
  simp only [State.showSensors, State.reg_setFld, if_neg hpwr, if_neg hth]

theorem State.sensed_reg (s : State) (x : Sensors) {a : Nat} (hpwr : a ≠ 0x608) (hth : a ≠ 0x60C) : (s.sensed x).reg a = s.reg a := by
  refine Eq.trans ?_ (s.reg_showSensors x hpwr hth)
  unfold State.sensed
  extract_lets u v
  have hv : v.reg a = u.reg a := by
    simp only [v]
    split
    · exact (u.count_reads _ _).1 a
    · rfl
  exact hv

theorem State.regs_showSensors (s : State) (x : Sensors) : ∃ rs, s.showSensors x = { s with regs := rs } := by
  have hpwr := State.setFld_of_regs (s.regs_setFld 0x608 0 16 x.vin) 0x608 16 16 x.pin
  have htj := State.setFld_of_regs (State.setFld_of_regs hpwr 0x60C 0 8 x.tj) 0x60C 8 8 x.lp
  exact State.setFld_of_regs (State.setFld_of_regs htj 0x60C 16 8 x.nand) 0x60C 24 8 x.coolOut

theorem State.sensed_frame (s : State) (x : Sensors) : ∃ regs ev pwr, s.sensed x = { s with regs, ev, pwr } := by
  obtain ⟨regs, hshow⟩ := s.regs_showSensors x
  simp only [State.sensed, hshow]
  split
  · exact ⟨_, _, _, rfl⟩
  · exact ⟨_, _, _, rfl⟩

/-- The evaluation finds the throttle, its cause, the limit and the margin as they were. -/
theorem State.sensed_reads (s : State) (x : Sensors) : (s.sensed x).throttle = s.throttle ∧ (s.sensed x).fld 0x604 8 2 = s.fld 0x604 8 2
    ∧ (s.sensed x).overPower x = s.overPower x ∧ (s.sensed x).under x = s.under x := by
  have hfld : ∀ a lo w, a ≠ 0x608 → a ≠ 0x60C → (s.sensed x).fld a lo w = s.fld a lo w :=
    fun a lo w hpwr hth => congrArg (extractBits · lo w) (s.sensed_reg x hpwr hth)
  refine ⟨hfld 0x208 10 4 (by decide) (by decide), hfld 0x604 8 2 (by decide) (by decide), ?_, ?_⟩
  · simp only [State.overPower, hfld 0x600 0 10 (by decide) (by decide)]
  · simp only [State.under, hfld 0x600 0 10 (by decide) (by decide), hfld 0x600 10 6 (by decide) (by decide)]

theorem State.counter_countIf (s : State) (p : Prop) [Decidable p] (c n a : Nat) :
    (if p then s.count c n else s).counter a = s.counter a + if a = c ∧ p then BitVec.ofNat 64 n else 0 := by
  by_cases hp : p <;> by_cases ha : a = c <;> simp [hp, ha]

/-- The evaluation counts 100 µs where the node is throttled, and counts nothing else before it decides. -/
theorem State.sensed_counter (s : State) (x : Sensors) (a : Nat) :
    (s.sensed x).counter a = s.counter a + if a = 0x200158 ∧ 0 < s.throttle then 100 else 0 := by
  have hshown : (s.showSensors x).throttle = s.throttle :=
    congrArg (extractBits · 10 4) (s.reg_showSensors x (by decide) (by decide))
  have hcount : (s.sensed x).counter a = (if 0 < s.throttle then (s.showSensors x).count 0x200158 100 else s.showSensors x).counter a := by
    rw [← hshown]
    rfl
  rw [hcount, State.counter_countIf, State.counter_of_regs (s.regs_showSensors x)]
  rfl

/-! ## What the evaluation decides (R459) -/

/-- The causes of a rise, as CAUSE tells them. -/
def riseCause (power thermal : Bool) : Nat := (if power then 1 else 0) + (if thermal then 2 else 0)

theorem riseCause_lt (power thermal : Bool) : riseCause power thermal < 4 := by
  cases power <;> cases thermal <;> decide

/-- A rise by one step, with its causes told and counted. -/
def State.throttleRaised (s : State) (power thermal : Bool) : State :=
  let u := s.setThrottle (s.throttle + 1) (riseCause power thermal)
  let u := if power then u.count 0x200148 else u
  if thermal then u.count 0x200150 else u

/-- A step down, whose cause is gone at step 0. -/
def State.throttleLowered (s : State) : State := s.setThrottle (s.throttle - 1) (if s.throttle = 1 then 0 else s.fld 0x604 8 2)

/-- The throttle rises (R459): the node is over a limit, below step 3, and the time of a rise has come. -/
def State.rises (s : State) (x : Sensors) : Bool := (s.overPower x || overThermal x) && decide (s.throttle < 3) && x.riseOk

/-- The throttle falls where it does not rise: the node has been under its limits for 100 ms, above step 0. -/
def State.falls (s : State) (x : Sensors) : Bool := s.under x && x.underHeld && decide (0 < s.throttle)

theorem exec_throttleEval_eq : exec (.throttleEval x) s = .next
    (if s.rises x then (s.sensed x).throttleRaised (s.overPower x) (overThermal x)
    else if s.falls x then (s.sensed x).throttleLowered else s.sensed x) := by
  obtain ⟨hthrottle, -, hpower, hunder⟩ := s.sensed_reads x
  have hrises : (s.sensed x).rises x = s.rises x := by rw [State.rises, hthrottle, hpower, State.rises]
  have hfalls : (s.sensed x).falls x = s.falls x := by rw [State.falls, hthrottle, hunder, State.falls]
  rw [← hrises, ← hfalls, ← hpower]
  rfl

theorem State.throttleRaised_frame (s : State) (power thermal : Bool) : ∃ regs ev, s.throttleRaised power thermal = { s with regs, ev } := by
  obtain ⟨regs, hset⟩ := s.regs_setThrottle (s.throttle + 1) (riseCause power thermal)
  simp only [State.throttleRaised, hset]
  cases power <;> cases thermal <;> exact ⟨_, _, rfl⟩

theorem State.throttleRaised_reg (s : State) (power thermal : Bool) (a : Nat) :
    (s.throttleRaised power thermal).reg a = (s.setThrottle (s.throttle + 1) (riseCause power thermal)).reg a := by
  cases power <;> cases thermal <;> simp [State.throttleRaised]

theorem State.throttleRaised_counter (s : State) (power thermal : Bool) (a : Nat) : (s.throttleRaised power thermal).counter a =
    s.counter a + (if a = 0x200148 ∧ power = true then 1 else 0) + (if a = 0x200150 ∧ thermal = true then 1 else 0) := by
  simp only [State.throttleRaised, State.counter_countIf, State.counter_of_regs (s.regs_setThrottle _ _)]
  rfl

/-- A rise from a step below 3. -/
theorem State.throttleRaised_told (s : State) (power thermal : Bool) (h : s.throttle < 3) :
    (s.throttleRaised power thermal).throttle = s.throttle + 1 ∧ (s.throttleRaised power thermal).fld 0x604 8 2 = riseCause power thermal := by
  have hfld : ∀ a lo w, (s.throttleRaised power thermal).fld a lo w = (s.setThrottle (s.throttle + 1) (riseCause power thermal)).fld a lo w :=
    fun a lo w => congrArg (extractBits · lo w) (s.throttleRaised_reg power thermal a)
  exact ⟨(hfld _ _ _).trans (s.throttle_setThrottle _ (by omega)), (hfld _ _ _).trans (s.cause_setThrottle _ (riseCause_lt power thermal))⟩

theorem State.throttle_lt (s : State) : s.throttle < 16 := Nat.mod_lt _ (by decide)

theorem State.throttleLowered_told (s : State) : s.throttleLowered.throttle = s.throttle - 1
    ∧ s.throttleLowered.fld 0x604 8 2 = if s.throttle = 1 then 0 else s.fld 0x604 8 2 := by
  have hcause : (if s.throttle = 1 then 0 else s.fld 0x604 8 2) < 4 := by
    split
    · decide
    · exact Nat.mod_lt _ (by decide)
  have hstep := s.throttle_lt
  exact ⟨s.throttle_setThrottle _ (by omega), s.cause_setThrottle _ hcause⟩

/-- The evaluation writes registers, counters and the power controller alone. -/
theorem exec_throttleEval_frame (s : State) (x : Sensors) : ∃ t : State, exec (.throttleEval x) s = .next t
    ∧ { t with regs := s.regs, ev := s.ev, pwr := s.pwr } = s := by
  obtain ⟨_, _, _, hsensed⟩ := s.sensed_frame x
  refine ⟨_, exec_throttleEval_eq, ?_⟩
  split
  · obtain ⟨_, _, hraised⟩ := (s.sensed x).throttleRaised_frame (s.overPower x) (overThermal x)
    rw [hraised, hsensed]
  · split
    · obtain ⟨_, hlowered⟩ := (s.sensed x).regs_setThrottle ((s.sensed x).throttle - 1)
        (if (s.sensed x).throttle = 1 then 0 else (s.sensed x).fld 0x604 8 2)
      rw [State.throttleLowered, hlowered, hsensed]
    · rw [hsensed]

section
variable {t : State} (ht : exec (.throttleEval x) s = .next t)
include ht

theorem throttleEval_rise (h : s.rises x = true) :
    t.throttle = s.throttle + 1 ∧ t.fld 0x604 8 2 = riseCause (s.overPower x) (overThermal x)
    ∧ ∀ a, t.counter a = s.counter a + (if a = 0x200158 ∧ 0 < s.throttle then 100 else 0)
      + (if a = 0x200148 ∧ s.overPower x = true then 1 else 0) + (if a = 0x200150 ∧ overThermal x = true then 1 else 0) := by
  obtain rfl : _ = t := Outcome.next.inj (((congrArg Outcome.next (if_pos h)).symm.trans exec_throttleEval_eq.symm).trans ht)
  have hlow : s.throttle < 3 := by simp only [State.rises, Bool.and_eq_true, decide_eq_true_eq] at h; exact h.1.2
  rw [← (s.sensed_reads x).1] at hlow ⊢
  obtain ⟨hstep, hcause⟩ := (s.sensed x).throttleRaised_told (s.overPower x) (overThermal x) hlow
  refine ⟨hstep, hcause, fun a => ?_⟩
  rw [State.throttleRaised_counter, State.sensed_counter, (s.sensed_reads x).1]

/-- The state after an evaluation that does not raise the throttle. -/
theorem throttleEval_of_not_rises (h : s.rises x = false) : t = if s.falls x then (s.sensed x).throttleLowered else s.sensed x := by
  rw [exec_throttleEval_eq, h] at ht
  exact (Outcome.next.inj ht).symm

theorem throttleEval_fall (hrise : s.rises x = false) (h : s.falls x = true) :
    t.throttle = s.throttle - 1 ∧ t.fld 0x604 8 2 = if s.throttle = 1 then 0 else s.fld 0x604 8 2 := by
  obtain ⟨hthrottle, hcause, -, -⟩ := s.sensed_reads x
  obtain ⟨hstep, htold⟩ := (s.sensed x).throttleLowered_told
  rw [throttleEval_of_not_rises ht hrise, if_pos h]
  exact ⟨by rw [hstep, hthrottle], by rw [htold, hthrottle, hcause]⟩

theorem throttleEval_stay (hrise : s.rises x = false) (h : s.falls x = false) :
    t.throttle = s.throttle ∧ t.fld 0x604 8 2 = s.fld 0x604 8 2 := by
  obtain ⟨hthrottle, hcause, -, -⟩ := s.sensed_reads x
  rw [throttleEval_of_not_rises ht hrise, h]
  exact ⟨hthrottle, hcause⟩

theorem throttleEval_counter_throttled : t.counter 0x200158 = s.counter 0x200158 + if 0 < s.throttle then 100 else 0 := by
  by_cases hrise : s.rises x = true
  · rw [(throttleEval_rise ht hrise).2.2]
    simp
  · rw [throttleEval_of_not_rises ht (Bool.eq_false_iff.2 hrise)]
    have hcounter : ∀ u : State, (∀ a, u.counter a = (s.sensed x).counter a) →
        u.counter 0x200158 = s.counter 0x200158 + if 0 < s.throttle then 100 else 0 := by
      intro u hu
      rw [hu, State.sensed_counter]
      simp
    split
    · exact hcounter _ (State.counter_of_regs ((s.sensed x).regs_setThrottle _ _))
    · exact hcounter _ fun _ => rfl

end

/-! ## Limits of the environment, and presence (R439, R456, R457, R460) -/

theorem State.envLimit_active (h : s.pwr.state = .active) (off : Bool) :
    s.envLimit off = if off then { s.bindOff 4 with pwr := { (s.bindOff 4).pwr with offDue := true } } else s.bindOff 4 :=
  if_neg fun hne => hne h

theorem State.envLimit_inactive (h : s.pwr.state ≠ .active) (off : Bool) : s.envLimit off = s := if_pos h

/-- Settles O58: a rise, a step down or neither; the limits by whether the node is active; presence by what it was.
(R439, R456, R457, R459, R460; log entries 1, 51) -/
theorem powerControl : Obligations.PowerControl := by
  intro s
  refine ⟨?throttle, ?active, ?inactive, fun hdue => congrArg Outcome.next (if_pos hdue),
    fun hdue => congrArg Outcome.next (if_neg (Bool.eq_false_iff.1 hdue)),
    fun hopen => congrArg Outcome.next (if_neg (Bool.eq_false_iff.1 hopen)), fun hmade => congrArg Outcome.next (if_pos hmade), rfl⟩
  case throttle =>
    intro x hot rises
    obtain ⟨t, ht, hframe⟩ := exec_throttleEval_frame s x
    refine ⟨t, ht, hframe, throttleEval_counter_throttled ht, fun hrise => ?rise, fun hrise hunder hheld hpos => ?fall, fun hrise hnot => ?stay⟩
    case rise =>
      obtain ⟨hstep, hcause, hcounter⟩ := throttleEval_rise ht hrise
      exact ⟨hstep, hcause, by rw [hcounter]; simp, by rw [hcounter]; simp⟩
    case fall => exact throttleEval_fall ht hrise (by simp only [State.falls, hunder, hheld, hpos, decide_true, Bool.and_self])
    case stay =>
      refine throttleEval_stay ht hrise (Bool.eq_false_iff.2 fun hfall => ?_)
      simp only [State.falls, Bool.and_eq_true, decide_eq_true_eq] at hfall
      obtain ⟨⟨hunder, hheld⟩, hpos⟩ := hfall
      rcases hnot with hno | hno | hno
      · exact Bool.eq_false_iff.1 hno hunder
      · exact Bool.eq_false_iff.1 hno hheld
      · omega
  case active =>
    intro b hact
    have hlimit := State.envLimit_active hact
    refine ⟨?_, ?_, congrArg Outcome.next (hlimit true), fun w => congrArg Outcome.next (hlimit true), congrArg Outcome.next (hlimit true)⟩
    · exact congrArg (fun u : State => Outcome.next { u with pwr := { u.pwr with present := false } }) (hlimit false)
    · exact congrArg (fun u : State => Outcome.next u.powerOff) (hlimit false)
  case inactive =>
    intro hact
    have hlimit := State.envLimit_inactive hact
    refine ⟨?_, ?_, congrArg Outcome.next (hlimit true), fun w => congrArg Outcome.next (hlimit true), congrArg Outcome.next (hlimit true)⟩
    · exact congrArg (fun u : State => Outcome.next { u with pwr := { u.pwr with present := false } }) (hlimit false)
    · exact congrArg (fun u : State => Outcome.next u.powerOff) (hlimit false)

end Sys2Proof.Machine
end

section
/-! PROOFS. The management commands: what the firmware serves with a key and without one (R449 to R452, R457). -/

namespace Sys2Proof.Machine

variable {s : State} {m : MgmtReq} {boot : FlashRead}

/-! ## The form of POWER (R451) -/

theorem powerForm_of_body {v : Byte} (hbody : m.body = [v]) : powerForm m v = true := beq_iff_eq.2 hbody

/-! ## Serving a request (R450, R451) -/

theorem State.authentic_count (s : State) (op : Nat) (m : MgmtReq) : (s.count 0x200100).authentic op m = s.authentic op m := rfl

/-- The state in which the command of an accepted request runs: the request is counted, and its CTR is the last accepted one. -/
def State.keyTaken (s : State) (m : MgmtReq) : State :=
  { s.count 0x200100 with mgt := { (s.count 0x200100).mgt with ctr := m.ctr.toNat } }

section
variable (hact : s.pwr.state = .active) (hplain : MgmtReq.plain m)
include hact hplain

/-- A request of the right form that needs no key is served and answered. -/
theorem State.serve_open (op : Nat) (k : State → Nat × List Byte × State) :
    s.serve op m false k = (k (s.count 0x200100)).2.2.sendFrame
      ((k (s.count 0x200100)).2.2.responseBytes op m.ctr (k (s.count 0x200100)).1 (k (s.count 0x200100)).2.1 false) := by
  obtain ⟨hver, hflags, hlen, hcast⟩ := hplain
  have hform : ¬ (m.version ≠ 1 ∨ m.flags ≠ 0 ∨ 1452 < m.body.length) := by simp [hver, hflags, hlen]
  simp only [State.serve, hact, hcast, ne_eq, not_true_eq_false, if_false, Bool.false_eq_true, false_and, Bool.false_and, if_neg hform]

/-- A request of the right form with a good tag and a new CTR is served and answered. -/
theorem State.serve_keyed {op : Nat} (hauth : (s.count 0x200100).authentic op m = true) (k : State → Nat × List Byte × State) :
    s.serve op m true k = (k (s.keyTaken m)).2.2.sendFrame
      ((k (s.keyTaken m)).2.2.responseBytes op m.ctr (k (s.keyTaken m)).1 (k (s.keyTaken m)).2.1 true) := by
  obtain ⟨hver, hflags, hlen, hcast⟩ := hplain
  have hform : ¬ (m.version ≠ 1 ∨ m.flags ≠ 0 ∨ 1452 < m.body.length) := by simp [hver, hflags, hlen]
  simp only [State.serve, hact, hcast, ne_eq, not_true_eq_false, if_false, if_true, Bool.false_eq_true, false_and, hauth, Bool.not_true,
    Bool.and_false, if_neg hform, State.keyTaken]

/-! ## Commands without a key (R451) -/

theorem exec_ident_plain (hbody : m.body = []) :
    exec (.ident m) s = .next ((s.count 0x200100).sendFrame ((s.count 0x200100).responseBytes 1 m.ctr 0 (s.count 0x200100).identBody false)) := by
  refine congrArg Host.Outcome.next ((State.serve_open hact hplain 1 _).trans ?_)
  simp only [hbody, List.isEmpty_nil, if_true]

theorem exec_bufRead_open (hlen : m.body.length = 8) (hpos : 0 < bodyNat m 4) (hmax : bodyNat m 4 ≤ 1024)
    (hin : bodyNat m 0 + bodyNat m 4 ≤ bufSize) (hopen : s.isOpen (bodyNat m 0) (bodyNat m 4) = true) :
    exec (.bufRead m) s = .next ((s.count 0x200100).sendFrame ((s.count 0x200100).responseBytes 5 m.ctr 0
      (Tab.getAll (fun _ => 0) (s.count 0x200100).mgt.buf (bodyNat m 0) (bodyNat m 4)) false)) := by
  have hform : (m.body.length == 8 && decide (0 < bodyNat m 4) && decide (bodyNat m 4 ≤ 1024)) = true := by
    simp only [hlen, hpos, hmax, beq_self_eq_true, decide_true, Bool.and_self]
  simp only [exec, execBufRead, hform, hopen, Bool.and_self, Bool.not_true, State.serve_open hact hplain, Bool.false_eq_true, if_false,
    if_neg (Nat.not_lt.2 hin)]

/-- ATTEST and CERTS of the security buffer need no key; what they write may be read by anyone. -/
theorem exec_sec_open (hlen : m.body.length = 74) (hop : m.body.getD 0 0 = 0 ∨ m.body.getD 0 0 = 1)
    (hin : bodyNat m 66 + bodyNat m 70 ≤ bufSize) :
    let r := (s.count 0x200100).secPort (m.body.getD 0 0).toNat (m.body.getD 1 0).toNat ((m.body.drop 2).take 64) (bodyNat m 66) (bodyNat m 70)
    let u := if r.2.1.isEmpty then r.2.2 else r.2.2.bufPut (bodyNat m 66) r.2.1 true
    exec (.sec m) s = .next (u.sendFrame (u.responseBytes 6 m.ctr 0 (leBytes 1 r.1) false)) := by
  have hkey : (!((m.body.getD 0 0).toNat == 0 || (m.body.getD 0 0).toNat == 1)) = false := by
    rcases hop with h | h <;> rw [h] <;> rfl
  have hform : ¬ m.body.length ≠ 74 := fun h => h hlen
  simp only [exec, execSec, hkey, State.serve_open hact hplain, if_neg hform, if_neg (Nat.not_lt.2 hin)]

/-! ## Commands with a key (R451) -/

theorem exec_regRead_keyed (hauth : (s.count 0x200100).authentic 2 m = true) (hlen : m.body.length = 8) (hpos : 0 < bodyNat m 4)
    (hmax : bodyNat m 4 ≤ 256) (hin : bar0Ok (bodyNat m 0) (bodyNat m 4) = true) :
    exec (.regRead m) s = .next ((s.keyTaken m).sendFrame ((s.keyTaken m).responseBytes 2 m.ctr 0
      ((List.range (bodyNat m 4)).flatMap (fun i => leBytes 4 ((s.keyTaken m).readReg 0 (bodyNat m 0 + 4 * i)).toNat)) true)) := by
  have hform : ¬ (m.body.length ≠ 8 ∨ bodyNat m 4 = 0 ∨ 256 < bodyNat m 4) := by omega
  simp only [exec, execRegRead, State.serve_keyed hact hplain hauth, if_neg hform, hin, Bool.not_true, Bool.false_eq_true, if_false]

/-- The words of a REG_WRITE, in ascending address. -/
def State.writeWords (s : State) (m : MgmtReq) : State :=
  (List.range (bodyNat m 4)).foldl (fun u i => u.regWrite 0 (bodyNat m 0 + 4 * i) (BitVec.ofNat 32 (bodyNat m (8 + 4 * i)))) s

theorem exec_regWrite_keyed (hauth : (s.count 0x200100).authentic 3 m = true) (hpos : 0 < bodyNat m 4) (hmax : bodyNat m 4 ≤ 256)
    (hlen : m.body.length = 8 + 4 * bodyNat m 4) (hin : bar0Ok (bodyNat m 0) (bodyNat m 4) = true) :
    exec (.regWrite m) s = .next (((s.keyTaken m).writeWords m).sendFrame (((s.keyTaken m).writeWords m).responseBytes 3 m.ctr 0 [] true)) := by
  have hform : ¬ (bodyNat m 4 = 0 ∨ 256 < bodyNat m 4 ∨ m.body.length ≠ 8 + 4 * bodyNat m 4) := by omega
  simp only [exec, execRegWrite, State.serve_keyed hact hplain hauth, if_neg hform, hin, Bool.not_true, Bool.false_eq_true, if_false,
    State.writeWords]

theorem exec_bufWrite_keyed (hauth : (s.count 0x200100).authentic 4 m = true) (hmin : 4 ≤ m.body.length) (hmax : m.body.length ≤ 1028)
    (hin : bodyNat m 0 + (m.body.length - 4) ≤ bufSize) :
    let u := (s.keyTaken m).bufPut (bodyNat m 0) (m.body.drop 4) false
    exec (.bufWrite m) s = .next (u.sendFrame (u.responseBytes 4 m.ctr 0 [] true)) := by
  have hform : ¬ (m.body.length < 4 ∨ 1028 < m.body.length) := by omega
  simp only [exec, execBufWrite, State.serve_keyed hact hplain hauth, if_neg hform, if_neg (Nat.not_lt.2 hin)]

/-! ## POWER (R451, R452, R457) -/

/-- The answer OK to a POWER command. -/
def State.powerAnswered (s : State) (m : MgmtReq) : State := (s.keyTaken m).sendFrame ((s.keyTaken m).responseBytes 7 m.ctr 0 [] true)

/-- Every frame that waits goes out, before the node acts on the command that it has answered. -/
def State.txDrained (s : State) : State := s.mgt.tx.foldl (fun u b => u.frameOut b) s

theorem State.powerServed_of_body {v : Byte} (hauth : s.authentic 7 m = true) (hbody : m.body = [v]) : s.powerServed m v = true := by
  obtain ⟨hver, hflags, -, hcast⟩ := hplain
  simp only [State.powerServed, hact, hcast, hauth, hver, hflags, powerForm_of_body hbody, beq_self_eq_true, Bool.not_false, Bool.and_self]

section
variable (hauth : s.authentic 7 m = true)
include hauth

theorem exec_powerActive_keyed (hbody : m.body = [0]) : exec (.powerActive m) s = .next (s.powerAnswered m) := by
  have hkey : (s.count 0x200100).authentic 7 m = true := (State.authentic_count s 7 m).trans hauth
  simp only [exec, execPowerActive, State.serve_keyed hact hplain hkey, powerForm_of_body hbody, if_true, State.powerAnswered]

/-- STANDBY is answered, and then the node loses its supply. -/
theorem exec_powerStandby_keyed (hbody : m.body = [1]) (hmay : s.mayStandby = true) :
    exec (.powerStandby m) s = .next (s.powerAnswered m).txDrained.standby := by
  have hkey : (s.count 0x200100).authentic 7 m = true := (State.authentic_count s 7 m).trans hauth
  have hmayThen : (s.keyTaken m).mayStandby = true := hmay
  have hacts : (s.powerServed m 1 && s.mayStandby) = true := by rw [State.powerServed_of_body hact hplain hauth hbody, hmay]; rfl
  simp only [exec, execPowerStandby, State.serve_keyed hact hplain hkey, powerForm_of_body hbody, hmayThen, hacts, Bool.not_true,
    Bool.false_eq_true, if_false, if_true, State.powerAnswered, State.txDrained]

/-- COLD_RESET is answered, and then the node is reset. -/
theorem exec_powerColdReset_keyed (hbody : m.body = [2]) :
    exec (.powerColdReset m boot) s = .next ((s.powerAnswered m).txDrained.coldReset .mgtCommand boot) := by
  have hkey : (s.count 0x200100).authentic 7 m = true := (State.authentic_count s 7 m).trans hauth
  simp only [exec, execPowerColdReset, State.serve_keyed hact hplain hkey, powerForm_of_body hbody,
    State.powerServed_of_body hact hplain hauth hbody, if_true, State.powerAnswered, State.txDrained]

end

end

/-- Settles O59: each command is served, and its own form picks what is answered; POWER acts on the state that has answered.
(R449, R450, R451, R452, R457; log entry 31) -/
theorem managementPort : Obligations.ManagementPort := by
  intro s m hact hplain a keyed ok
  refine ⟨exec_ident_plain hact hplain, ?regRead, ?regWrite, ?bufWrite, ?bufRead, ?sec, ?active, ?standby, ?reset⟩
  case regRead => exact exec_regRead_keyed hact hplain
  case regWrite => exact exec_regWrite_keyed hact hplain
  case bufWrite => exact exec_bufWrite_keyed hact hplain
  case bufRead => exact exec_bufRead_open hact hplain
  case sec => exact exec_sec_open hact hplain
  case active =>
    intro hauth
    exact exec_powerActive_keyed hact hplain ((State.authentic_count s 7 m).symm.trans hauth)
  case standby =>
    rintro t hauth hbody hmay rfl
    exact exec_powerStandby_keyed hact hplain hauth hbody hmay
  case reset =>
    rintro t boot hauth hbody rfl
    exact exec_powerColdReset_keyed hact hplain hauth hbody

end Sys2Proof.Machine
end

section
/-! PROOFS. The segment of the management port: PLCA cycles and fall-back, collisions, and frames without a command (R447 to R450, R453, R454). -/

namespace Sys2Proof.Machine

variable {s : State}

/-! ## PLCA and CSMA/CD (R448) -/

/-- The PLCA fields that a cycle takes over at its start. -/
def State.plcaTaken (s : State) : State := { s with mgt := { s.mgt with plca := s.reg 0x408 } }

section
variable (hact : s.pwr.state = .active)
include hact

theorem State.active_gate : ¬ (s.pwr.state != .active) = true := by
  rw [hact]
  decide

/-- A follower's cycle: PLCA is in use, and the port has its opportunity. -/
theorem exec_plcaCycle_follower (hon : s.bit 0x408 0 = true) (hid : s.fld 0x408 1 8 ≠ 0) (hused : s.fld 0x408 1 8 ≠ 255) :
    exec .plcaCycle s = .next ((s.plcaTaken.setFld 0x410 8 1 1).setFld 0x410 9 1 0).opportunity := by
  have hplca : ¬ (!s.bit 0x408 0 || s.fld 0x408 1 8 == 255) = true := by
    rw [hon, beq_eq_false_iff_ne.2 hused]
    decide
  have hfollows : ¬ s.plcaTaken.fld 0x408 1 8 = 0 := hid
  refine congrArg Host.Outcome.next ((if_neg (State.active_gate hact)).trans ((if_neg hplca).trans ?_))
  exact congrArg (fun u : State => ((u.setFld 0x410 8 1 1).setFld 0x410 9 1 0).opportunity) (if_neg hfollows)

/-- A cycle without PLCA: the frames that wait go under CSMA/CD. -/
theorem exec_plcaCycle_csma (hoff : s.bit 0x408 0 = false ∨ s.fld 0x408 1 8 = 255) :
    let u := (s.plcaTaken.setFld 0x410 8 1 0).setFld 0x410 9 1 0
    exec .plcaCycle s = .next (s.mgt.tx.foldl (fun u b => u.sendFrame b) { u with mgt := { u.mgt with tx := [] } }) := by
  have hcsma : (!s.bit 0x408 0 || s.fld 0x408 1 8 == 255) = true := by
    rcases hoff with hclear | hnone
    · rw [hclear]; rfl
    · rw [hnone, beq_self_eq_true, Bool.or_true]
  exact congrArg Host.Outcome.next ((if_neg (State.active_gate hact)).trans (if_pos hcsma))

/-- A follower that hears no beacon falls back, and its frames go. -/
theorem exec_plcaFallback_follower (hon : s.plcaOn = true) (hid : s.plca 1 8 ≠ 0) :
    let u := (((s.setFld 0x410 8 1 0).setFld 0x410 9 1 1).bumpSeq 0x410).count 0x200128
    exec .plcaFallback s = .next (s.mgt.tx.foldl (fun u b => u.sendFrame b) { u with mgt := { s.mgt with tx := [] } }) := by
  have hgate : ¬ (s.pwr.state != .active || !s.plcaOn || s.plca 1 8 == 0) = true := by
    rw [hact, hon, beq_eq_false_iff_ne.2 hid]
    decide
  exact congrArg Host.Outcome.next (if_neg hgate)

end

section
variable {b : List Byte} {n : Nat} (hwire : s.mgt.wire = some (b, n))
include hwire

theorem exec_csmaCdCollision_again (hn : n < 16) :
    exec .csmaCdCollision s = .next (({ s with mgt := { s.mgt with wire := some (b, n + 1) } } : State).emit (.mgmt b)) := by
  simp only [exec, execCsmaCdCollision, hwire, if_pos hn]

theorem exec_csmaCdCollision_last (hn : 16 ≤ n) :
    exec .csmaCdCollision s = .next (({ s with mgt := { s.mgt with wire := none } } : State).count 0x200120) := by
  simp only [exec, execCsmaCdCollision, hwire, if_neg (Nat.not_lt.2 hn)]

end

/-! ## Frames without a command (R447, R449, R450) -/

/-- What an active port does with a frame that carries no valid command. -/
def State.badFrame (s : State) : BadFrame → State
  | .tooLong => s.count 0x200138
  | .wrongAddress => s.count 0x200138
  | .wrongEtherType => s.count 0x200138
  | .badFcs => s.count 0x200118
  | .noBuffer => ((s.setFld 0x410 10 1 1).bumpSeq 0x410).count 0x200110
  | .badRequest op ctr => (s.count 0x200100).sendFrame ((s.count 0x200100).responseBytes op.toNat ctr 1 [] false)

theorem exec_managementFrame_active (hact : s.pwr.state = .active) (bad : BadFrame) :
    exec (.managementFrame bad) s = .next (s.badFrame bad) := by
  refine congrArg Host.Outcome.next ((if_neg (State.active_gate hact)).trans ?_)
  cases bad <;> rfl

/-- Settles O60: each event of the segment in the branch that its hypotheses select, and each bad frame by what is wrong with it.
(R447, R448, R449, R450, R453, R454; log entries 31, 42) -/
theorem managementSegment : Obligations.ManagementSegment := by
  intro s hact
  have hframe := exec_managementFrame_active hact
  exact ⟨exec_plcaCycle_follower hact, exec_plcaCycle_csma hact, exec_plcaFallback_follower hact, fun b n => exec_csmaCdCollision_again,
    fun b n => exec_csmaCdCollision_last, hframe _, hframe _, hframe _, hframe _, hframe _, fun op ctr => hframe _⟩

end Sys2Proof.Machine
end
